-- ==== Sys2Proof/Word.lean ====
section
/-!
DEFINITION. The word types of the device: bytes and the three register, record and descriptor widths the spec uses
(R3: bit 0 is the least significant bit; R4: every multi-byte value is little-endian).
-/

namespace Sys2Proof

/-- One byte of memory. -/
abbrev Byte := BitVec 8

/-- A 32-bit register. -/
abbrev Word32 := BitVec 32

/-- A 64-bit register. -/
abbrev Word64 := BitVec 64

/-- A 64-byte descriptor (R90): byte b occupies bits 8b+7..8b. -/
abbrev Desc := BitVec 512

end Sys2Proof
end

