-- ==== Sys2Proof/Syntax.lean ====
section
/-!
DEFINITION. The commands of the block: one constructor per row of the spec's table of operations and events. The table
gives its rows no operands and no bits; the operands are the model's (log entry 1): the command a step acts on by its
fetch number, the value of a register write, what a sensor, a test or a link reports, and host stores made visible
before a step that reads host memory.
-/

namespace Sys2Proof

/-- What a read of one line meets (R394): nothing, a correctable or an uncorrectable error. -/
inductive MemErr where
  | none | corrected | uncorrectable
  deriving DecidableEq, Repr

/-- A configuration-space register of the function by name (R39, R44, R45, R48, R72): the header; the PCIe capability
(device, link, power management); AER's uncorrectable status; the DVSEC for CXL Devices (capability, control with status,
control 2 with status 2, lock with the cache size, and the two ranges); the DVSEC for Flex Bus Port; the Register Locator
DVSEC; MSI-X. -/
inductive CfgReg where
  | deviceVendor | command | revisionClass | bar (n : Fin 6) | subsystem | msixControl
  | deviceCap | deviceControl | deviceCap2 | linkCap | linkStatus | powerControl | aerUncorrectable
  | cxlCapability | cxlControl | cxlControl2 | cxlLock
  | rangeSizeHigh (n : Fin 2) | rangeSizeLow (n : Fin 2) | rangeBaseHigh (n : Fin 2) | rangeBaseLow (n : Fin 2)
  | flexBusCapability | flexBusStatus | registerLocatorLow | registerLocatorHigh
  deriving DecidableEq, Repr

/-- A configuration request: a read or a write of a register, or a DOE exchange that reads the CDAT (R39). -/
inductive CfgReq where
  | read (r : CfgReg)
  | write (r : CfgReg) (value : Word32)
  | cdat
  deriving DecidableEq, Repr

/-- A host read of a base address register's space: 32 bits or 64 bits of BAR0 (R47, R64, R65), or 32 bits of a doorbell
page of BAR2 (R86). -/
inductive HostRead where
  | word (offset : BitVec 21)
  | pair (offset : BitVec 21)
  | page (page : BitVec 12) (offset : BitVec 12)
  deriving DecidableEq, Repr

/-- What the host writes to commit an HDM decoder beside its ranges (R49): the interleave ways, and whether it is to lock. -/
structure DecoderCtl where
  ways : BitVec 4
  lock : Bool
  deriving DecidableEq, Repr

/-- What a model's invocations meet in memory (R240, R245, R329): scale tables that fail their check as (slot, tensor),
sequences whose state pages hold an uncorrectable line, and whether weights, program or shadow hold one. `internal` is an
inconsistency that the device's own checks find in the command, with its internal code (Tables 16.1 and 16.3). -/
structure ModelMeet where
  tables : List (Nat × Nat) := []
  seqs : List Nat := []
  hard : Bool := false
  internal : Option Word32 := none
  deriving DecidableEq, Repr

/-- Element format of an accumulator slot (R261). -/
inductive AccFmt where
  | fp32 | int32 | fp64
  deriving DecidableEq, Repr

/-- An operand of the matrix engine for one group (R235 to R238, R242): where its rows lie in the scratchpad (the group's first
element, bytes per row), its format (0 FP32, 1 BF16, 2 FP16, 3 E4M3, 4 E5M2, 5 INT8, 6 INT4, 7 UINT4, 8 FP64, 9 INT32, 10
Q4B, 11 shared-exponent mantissas), how narrow codes expand (0 not, 1 by the table at `lut`, 2 less the zero point), its block
scales or exponents (first byte, bytes per row, elements per block), and its tensor scale in FP32. -/
structure MatOperand where
  base : Nat
  rowBytes : Nat
  fmt : Nat
  expand : Nat := 0
  zero : Int := 0
  lut : Nat := 0
  scale : Option (Nat × Nat × Nat) := none
  tscale : Nat := 0x3F800000
  deriving DecidableEq, Repr

/-- Lane formats of the vector unit (R252). -/
inductive LaneFmt where
  | fp32 | bf16 | fp16 | int32 | int8
  deriving DecidableEq, Repr

/-- FP32 functions of one operand (R252). -/
inductive LaneFn where
  | sqrt | recip | rsqrt | exp | exp2 | log | log2 | tanh | erf | logistic
  deriving DecidableEq, Repr

/-- Lane operations of two operands. -/
inductive LaneOp where
  | add | sub | mul | max | min
  deriving DecidableEq, Repr

/-- Lane comparisons (R233). -/
inductive LaneCmp where
  | eq | ne | lt | le
  deriving DecidableEq, Repr

/-- An operation of the vector unit over registers 0 to 63: arithmetic in a lane format, FP32 fused multiply-add, divide and
functions, comparisons into a predicate, conversion between formats numbered as in MatOperand, the horizontal sum, the
two-level encoding of a tensor in the scratchpad to elements at `dst` with its scale table at `table` (R241), and moves between a
register and 128 bytes of scratchpad. -/
inductive VecOp where
  | arith (op : LaneOp) (f : LaneFmt) (d a b : Fin 64)
  | fma (f : LaneFmt) (d a b c : Fin 64)
  | div (d a b : Fin 64)
  | fn (op : LaneFn) (d a : Fin 64)
  | cmp (op : LaneCmp) (f : LaneFmt) (pred : Nat) (a b : Fin 64)
  | cvt (src dst : Nat) (d a : Fin 64)
  | hsum (d a : Fin 64)
  | scale (fmt src rows cols dst table : Nat)
  | load (d : Fin 64) (addr : Nat)
  | store (a : Fin 64) (addr : Nat)
  deriving DecidableEq, Repr

/-- A component image of a firmware package (R479, R480): its component, whether its payload, key and signature verify,
SVN, COMMIT_SVN, root slot and its SHA3-384 as a number. -/
structure FwImage where
  comp : Fin 4
  sound : Bool
  svn : BitVec 8
  commit : Bool
  root : BitVec 8
  digest : BitVec 384
  deriving DecidableEq, Repr

/-- The sensors of Table 17.6. -/
inductive PldmSensor where
  | hubTemp (i : Fin 16) | baseTemp (i : Fin 12) | dramTemp (i : Fin 12) | farTemp (i : Fin 8) | nandTemp | inletTemp
  | inputPower | inputVoltage | railVoltage (i : Fin 45) | railCurrent (i : Fin 45)
  | hifStatus | unitCount (n : Fin 3) | secStatus | bootFailure | railFailure
  deriving DecidableEq, Repr

/-- The commands. -/
inductive Instr where
  /-- SEARCH: Runs one nearest-neighbour query bound at its binding point through the stages of Table 1.2 and writes
  its result block (R147). -/
  | search (cmd : Nat) (meet : ModelMeet)
  /-- SEARCH_BATCH: Runs up to 4096 queries that share one binding point and fetch stamp, and writes one result
  block per query (R94). -/
  | searchBatch (cmd : Nat) (count : Nat) (meet : ModelMeet)
  /-- INSERT: Adds fresh entries for new IDs after the checks of R273, under the collection's durability mode
  (R274). -/
  | insert (cmd : Nat)
  /-- DELETE: Tombstones every entry of each named ID (R274). -/
  | delete (cmd : Nat)
  /-- UPSERT: Tombstones the existing entries of each ID and adds one fresh entry for it (R274). -/
  | upsert (cmd : Nat)
  /-- ATTR_SET: Applies a masked update to the attribute word of every entry of each named ID (R274). -/
  | attrSet (cmd : Nat)
  /-- FILTER_DEFINE: Installs, replaces or deletes a filter predicate program of a collection (R186). -/
  | filterDefine (cmd : Nat)
  /-- TRAIN: Retrains centroids and quantisers from a sample, re-encodes the entries and publishes a new index epoch
  (R296). -/
  | train (cmd : Nat)
  /-- BUILD: Creates a collection from a configuration block, trains it, encodes its source records and sets epoch 1
  (R118). -/
  | build (cmd : Nat)
  /-- COMPACT: Rewrites lists with tombstones or fresh entries into new copies and publishes epoch E + 1 (R293). -/
  | compact (cmd : Nat)
  /-- SNAPSHOT: Pins the image and frames of a collection under a label at its binding point (R303). -/
  | snapshot (cmd : Nat)
  /-- SNAPSHOT_SESSION: Saves the model sequence states of the ring's context (R304). -/
  | snapshotSession (cmd : Nat)
  /-- RESTORE: Restores a collection from a snapshot, writes a marker frame and sets the collection READY at the
  saved epoch (R306). -/
  | restore (cmd : Nat)
  /-- RESTORE_SESSION: Re-creates the saved sequences of a context from a session snapshot (R307). -/
  | restoreSession (cmd : Nat)
  /-- MODEL_LOAD: Validates a model image, copies it into a slot with shadows and scale checks, and sets the slot
  READY (R322). -/
  | modelLoad (cmd : Nat)
  /-- MODEL_UNLOAD: Frees a READY model slot when no sequence or command in flight uses it (R317). -/
  | modelUnload (cmd : Nat)
  /-- MODEL_STEP: Performs one batch step of a slot for the ring's context: leaves, joins, one step of each
  sequence, output (R326). -/
  | modelStep (cmd : Nat) (meet : ModelMeet)
  /-- ATOMIC: Performs one memory-side add on a host-region target and returns the old value (R383). -/
  | atomic (cmd : Nat)
  /-- FENCE: Completes after earlier commands of its scope complete and the write-combining buffer is flushed and
  visible (R108). -/
  | fence (cmd : Nat)
  /-- BARRIER: Arrives at a barrier instance of the partition, and all arrivals complete when PARTICIPANTS have
  arrived (R109). -/
  | barrier (cmd : Nat)
  /-- BARRIER_TIMEOUT: At expiry of the instance's TIMEOUT_US, every arrived BARRIER completes with
  ST_BARRIER_TIMEOUT (R110). -/
  | barrierTimeout (part : BitVec 4) (id : BitVec 8)
  /-- DIGEST: Computes the module digest M, current or at a given epoch, and writes it to host memory (R439). -/
  | digest (cmd : Nat)
  /-- QUERY_PROGRESS: Returns the state and SPEC0 of a target command, or the journal high-water mark (R467). -/
  | queryProgress (cmd : Nat)
  /-- SANITISE: Frees a collection or the whole store, zeroes its memory, and erases and verifies its NAND blocks
  (R308). -/
  | sanitise (cmd : Nat)
  /-- FORMAT: Frees a collection, or every collection with its images, frames and snapshots, and resets H to 0
  (R309). -/
  | format (cmd : Nat)
  /-- PAUSE: Stops fetching for a context or partition and yields at a command boundary (R354). -/
  | pause (cmd : Nat)
  /-- PAUSE_SAVE: Stops a context or partition at token boundaries and writes instruction-precise tile images
  (R355). -/
  | pauseSave (cmd : Nat)
  /-- RESUME: Restores saved images onto the current placement, releases held commands and restarts fetching (R357).
  -/
  | resume (cmd : Nat)
  /-- DESCRIPTOR_FETCH: The queue manager selects a ring by virtual time, reserves a CQ slot, fetches a descriptor
  and stamps it (R348). -/
  | descriptorFetch (stores : List Host.Cell) (part : BitVec 4)
  /-- GLOBAL_OBSERVATION: Host global observation for a record's ItoMWr arrives, after which the MSI-X message may
  be sent (R42). -/
  | globalObservation (ring : BitVec 12)
  /-- COAL_TIME_EXPIRY: COAL_TIME has passed since the oldest unsignalled record, and the ring's MSI-X message is
  sent (R104). -/
  | coalTimeExpiry (ring : BitVec 12)
  /-- MSIX_UNMASK: Host unmasks an MSI-X vector with its pending bit set, and one message is sent (R55). -/
  | msixUnmask (vector : BitVec 11)
  /-- SQ_TAIL: Doorbell write that makes SQ entries available for fetch, or puts the pair in ERROR (R87). -/
  | sqTail (stores : List Host.Cell) (page : BitVec 12) (value : Word32)
  /-- CQ_HEAD: Doorbell write that releases CQ entries, or puts the pair in ERROR (R88). -/
  | cqHead (page : BitVec 12) (value : Word32)
  /-- RING_CREATE: QM_RING_CMD CREATE makes a FREE ring pair ACTIVE when its configuration is valid (R84). -/
  | ringCreate
  /-- RING_DESTROY: QM_RING_CMD DESTROY stops fetching and drains the ring pair (R85). -/
  | ringDestroy
  /-- DESTROY_FORCE: QM_RING_CMD DESTROY_FORCE stops fetching and aborts every fetched command with ST_ABORT_DISABLE
  (R85). -/
  | destroyForce
  /-- QM_ENABLE: Write to HIF_CONTROL.QM_ENABLE that starts or stops descriptor fetching (R58). -/
  | qmEnable (value : Word32)
  /-- DEVICE_RESET: Keyed write to HIF_RESET that applies the DEVICE reset level (R59). -/
  | deviceReset (value : Word32)
  /-- HIF_TOD_COMMIT: Write to HIF_TOD that commits the time of day and copies HIF_TIMER into HIF_TOD_STAMP (R67). -/
  | hifTodCommit (value : Word64)
  /-- LOW_HALF_READ_LATCH: 32-bit read of the low half of a 64-bit register, which latches the high half into the
  shadow (R65). The reads that have no row of their own come with it: of 32-bit registers, of 64 bits, of BAR2. -/
  | lowHalfReadLatch (read : HostRead)
  /-- HIGH_HALF_READ: 32-bit read of the high half of a 64-bit register, which returns and consumes a held shadow
  (R65). -/
  | highHalfRead (offset : BitVec 21)
  /-- REGISTER_WRITE: Write to a register field that has no row of its own, acting as its access code states (R8). -/
  | registerWrite (offset : BitVec 21) (wide : Bool) (value : Word64)
  /-- BAD_ACCESS: BAR0 access of the wrong size or alignment, which reads 0 and sets HIF_ERR_STATUS.BAD_ACCESS
  (R47). -/
  | badAccess (offset : BitVec 21) (size : Nat) (write : Bool)
  /-- BIAS_FLIP: HIF_BIAS_CTL.GO requests a flip of a 2 MiB block to host or device bias (R51). -/
  | biasFlip (value : Word32)
  /-- BIAS_FLIP_DONE: A bias flip completes after the device's own accesses to the block drain (R51). -/
  | biasFlipDone
  /-- HOST_MEM_READ: Host CXL.mem read of device memory, served with merged data or all-ones (R53). -/
  | hostMemRead (addr : Word64) (err : MemErr)
  /-- HOST_MEM_WRITE: Host CXL.mem write, which is applied, or discarded for a protected block or out-of-range
  address (R52). -/
  | hostMemWrite (addr : Word64) (data : BitVec 512) (mask : Word64)
  /-- CONFIG_REQUEST: Configuration request answered normally, or with Configuration Request Retry Status during
  reset (R72). -/
  | configRequest (req : CfgReq)
  /-- DECODER_COMMIT: Commit of an HDM decoder, refused with Commit Error when its span exceeds DVSEC Range 2 (R49).
  -/
  | decoderCommit (index : Fin 4) (base : Word64) (size : Word64) (skip : Word64) (ctl : DecoderCtl)
  /-- POWER_STATE_CHANGE: Transition of the function between D0 and D3hot (R74). -/
  | powerStateChange (d3 : Bool)
  /-- COLD: A valid 54 V input starts the COLD level and the power-up sequence (R502). -/
  | cold (railFail : Option (Fin 45))
  /-- WARM: PERST_N assertion, a hot reset or link down applies the WARM level (R503). -/
  | warm (perst : Bool)
  /-- CXL_RESET: Initiate CXL Reset applies the CXL_RESET level, with optional Mem Clr (R72). -/
  | cxlReset (memClr : Bool)
  /-- FLR: Initiate Function Level Reset applies the FLR level (R68). -/
  | flr
  /-- RESET_COMPLETE: A reset level finishes and the device reaches MEM_ACTIVE and READY (R72). -/
  | resetComplete (channels : List (Nat × Nat)) (fails : List Nat)
  /-- INPUT_LOSS: The 54 V input falls below 43.0 V: fetching stops and the write-combining and journal flushes run
  (R504). -/
  | inputLoss
  /-- HOLDUP_FLUSH_DONE: The hold-up flush of staging and the protected buffer to NAND completes, and the rails go
  off (R282). -/
  | holdupFlushDone
  /-- INPUT_BREAKER_TRIP: The input breaker opens on overcurrent and the module latches off (R499). -/
  | inputBreakerTrip
  /-- LATCH_RELEASE: The input stays below 43.0 V for 100 ms, or standby is removed, and the latched-off state ends
  (R501). -/
  | latchRelease
  /-- STANDBY_POWER_ON: Standby power is applied: Primrose starts, verifies its bank and samples the address straps
  (R498). -/
  | standbyPowerOn (straps : BitVec 3)
  /-- STANDBY_POWER_LOSS: Both standby sources are absent and the standby domain stops (R498). -/
  | standbyPowerLoss
  /-- REFCLK_LOSS: The reference clock is absent: HIF_TIMER holds and TIMER_GAP is set (R66). -/
  | refclkLoss
  /-- REFCLK_RETURN: The reference clock returns and HIF_TIMER resumes counting (R66). -/
  | refclkReturn
  /-- VIRAL: A viral indication or an uncorrectable CXL.cache or CXL.mem error puts the device in the viral state
  (R73). -/
  | viral
  /-- IDE_INTEGRITY_FAILURE: Drops failing traffic, makes the stream insecure, logs AER and holds device requests
  (R487). -/
  | ideIntegrityFailure (stream : Fin 3) (aer : Word32)
  /-- IDE_KEY_PROGRAM: CXL_IDE_KM key programming of an IDE stream over a secured SPDM session (R486). -/
  | ideKeyProgram (session : Nat) (stream : Fin 3) (skid : Bool)
  /-- LINK_REPLAY: A stack-link CRC, DDR5 parity or write CRC error causes a replay, and a retrain after 8 failures
  (R393). -/
  | linkReplay (unit : Fin 20) (ok : Bool) (delay : List (Nat × Nat))
  /-- RETRAIN_DONE: A link or channel retrain ends; a failure takes the stack out of service or fails the channel
  (R393). -/
  | retrainDone (unit : Fin 20) (ok : Bool)
  /-- EVACUATION_DONE: Copying a failing stack channel to its spare completes (R394). -/
  | evacuationDone (stack : Fin 12) (lost : List Nat)
  /-- SCRUB_PATROL: A BG-class patrol read of usable lines that writes back corrected lines (R399). -/
  | scrubPatrol (line : Word64) (err : MemErr)
  /-- BLOCK_REBUILD: Rebuilds a missing 2 MiB block from its source when room exists (R396). -/
  | blockRebuild
  /-- BLOCK_REBUILD_DONE: A rebuilt block returns to service (R396). -/
  | blockRebuildDone
  /-- REPAIR_CTL_RETEST: Keyed STK_REPAIR_CTL or FAR_REPAIR_CTL write that clears a channel's map-out record (R397).
  -/
  | repairCtlRetest (far : Bool) (value : Word32)
  /-- MARGIN_TEST: MARGIN_CTL.GO starts a margin test on a stack link or far-tier channel, or refuses it (R400). -/
  | marginTest (far : Bool) (value : Word32)
  /-- MARGIN_TEST_DONE: The 10 ms margin test ends, restores the settings and writes its result (R400). -/
  | marginTestDone (far : Bool) (lines : Word32) (errors : Word32)
  /-- FAR_HOST_WRITE: Write to FAR_HOST.UNITS that resizes the host region, or is refused (R375). -/
  | farHostWrite (value : Word32)
  /-- SCAN_PASS_START: A scan pass of a list starts on a free engine when 32 probes wait or a gather limit is
  reached (R152). -/
  | scanPassStart (part : BitVec 4) (coll : BitVec 10) (list : Option (BitVec 16)) (stack : Fin 12)
  /-- GATHER_LIMIT: A pending probe reaches its gather limit of F + 0.6 × b (R167). -/
  | gatherLimit (part : BitVec 4) (coll : BitVec 10) (list : Option (BitVec 16)) (stack : Fin 12)
  /-- SEGMENT_DONE: A scan segment ends and delivers NaN counts, exclusions and saturation counts (R198). -/
  | segmentDone (stack : Fin 12) (engine : Fin 18)
  /-- CANDIDATE_RECORD: A candidate record crosses the stack link and enters the per-stack merge (R192). -/
  | candidateRecord (stack : Fin 12) (engine : Fin 18) (query : Fin 32) (slot : Word32)
  /-- THETA_UPDATE: A new running threshold published by the merge reaches the engines of a stack (R190). -/
  | thetaUpdate (cmd : Nat) (query : Nat) (stack : Fin 12)
  /-- COVERAGE_CUTOFF: At F + 0.85 × b with PARTIAL_OK = 1, fixes the coverage mask and drops unfinished stacks
  (R168). -/
  | coverageCutoff (cmd : Nat)
  /-- SCAN_ENGINE_FAULT: An engine fails during a segment, which then resumes on another engine (R199). -/
  | scanEngineFault (stack : Fin 12) (engine : Fin 18)
  /-- MERGE_UNIT_FAULT: An Aster unit fails, losing its merge state and stopping the affected commands (R218). -/
  | mergeUnitFault (cluster : Fin 16) (cmds : List Nat)
  /-- MERGE_ROW: Aster selects the best k entries of a row in the order of R206 (R205). -/
  | mergeRow (tile : Fin 272) (wide : Bool) (sim : Bool) (k : Nat) (row : List (Nat × Nat))
  /-- RANGE_LOCK_GRANT: A waiting range-lock request is granted after conflicting locks release (R286). -/
  | rangeLockGrant (cmd : Nat)
  /-- FRAME_ENTER_BUFFER: A frame enters the protected buffer in JSEQ order once room exists (R280). -/
  | frameEnterBuffer
  /-- FRAME_PERSISTED: A frame reaches its persistence point, advancing H (R278). -/
  | framePersisted
  /-- NAND_PROGRAM_DONE: A frame is programmed to NAND, and a failed program after persistence is redone elsewhere
  (R280). -/
  | nandProgramDone
  /-- JOURNAL_WRITE_FAIL: A frame cannot be written: the store becomes READ_ONLY and affected mutations get
  ST_JRN_FAIL (R284). -/
  | journalWriteFail
  /-- RECORD_APPLY: A mutation's records reach their apply point and enter the binding state (R276). -/
  | recordApply (coll : BitVec 10)
  /-- VERSION_WRITE: Writes a new list version's changes after every pass of older versions has ended (R289). -/
  | versionWrite (coll : BitVec 10) (what : Nat) (shard : Bool)
  /-- COMPACT_PUBLISH: After the lock is raised to X, applies the remaining catch-up and publishes the new epoch
  (R293). -/
  | compactPublish (cmd : Nat)
  /-- HOLDUP_LOST: Hold-up energy falls below its threshold: HOLDUP_READY clears and the buffer drains to NAND
  (R283). -/
  | holdupLost (mv : Nat)
  /-- HOLDUP_CHARGED: The bank's computed energy reaches 4.5 J and HOLDUP_READY is set (R500). -/
  | holdupCharged (mv : Nat)
  /-- HOLDUP_MEASURE: The 24-hourly discharge measurement of the bank capacitance (R500). -/
  | holdupMeasure (capUF : Nat) (mv : Nat)
  /-- COLLECTION_RECOVERY: After JRN_READY, the device recovers a collection from its image and frames (R302). -/
  | collectionRecovery
  /-- MAINT_RESUME: Resumes a SANITISE or FORMAT that a reset or power loss cut short (R311). -/
  | maintResume
  /-- JRN_LP_ENTRY: After IDLE_MS of idleness with LP_EN = 1, the journal store begins low-power entry (R312). -/
  | jrnLpEntry
  /-- JRN_LP_ENTRY_DONE: Low-power entry completes, to LOW_POWER, or to EXITING when a command waits (R312). -/
  | jrnLpEntryDone
  /-- JRN_LP_EXIT_DONE: Low-power exit completes, the store is ACTIVE and held commands proceed (R312). -/
  | jrnLpExitDone
  /-- SNAP_DELETE: JRN_SNAP_CMD.DELETE deletes the selected snapshot (R305). -/
  | snapDelete (value : Word32)
  /-- JRN_COLL_HSEQ_READ: Read of JRN_COLL_HSEQ that latches the collection's chain value into JRN_COLL_DIGEST
  (R440). -/
  | jrnCollHseqRead
  /-- QUIESCE: Write to JRN_TWIN.QUIESCE that holds fetched mutations, or releases them in fetch order (R446). -/
  | quiesce (value : Word32)
  /-- RETAIN_LOST: Free journal space falls below 1 %, and the device clears RETAIN and reclaims (R445). -/
  | retainLost
  /-- EXPORT_SNAP: JRN_XFER_CTL.GO with EXPORT_SNAP writes a snapshot as a transfer image (R441). -/
  | exportSnap (value : Word32)
  /-- EXPORT_FRAMES: JRN_XFER_CTL.GO with EXPORT_FRAMES writes persisted frames of a HOST_SEQ range (R441). -/
  | exportFrames (value : Word32)
  /-- IMPORT_SNAP: JRN_XFER_CTL.GO with IMPORT_SNAP reads a snapshot transfer image and commits it to the catalog
  (R441). -/
  | importSnap (value : Word32)
  /-- XFER_ABORT: JRN_XFER_CTL.ABORT stops a running transfer at the next chunk (R444). -/
  | xferAbort (value : Word32)
  /-- XFER_HOST_CHUNK: Host write of JRN_XFER_COUNT.HOST that finishes a chunk of the handshake (R442). -/
  | xferHostChunk (stores : List Host.Cell) (value : Word32)
  /-- XFER_DEVICE_CHUNK: The device finishes writing or consuming a transfer chunk and advances DEV (R442). -/
  | xferDeviceChunk
  /-- PARTITION_ENABLE: SCH_PART_CMD ENABLE reserves a partition's areas and makes it ACTIVE (R345). -/
  | partitionEnable
  /-- DISABLE: SCH_PART_CMD DISABLE drains every ring pair of the partition (R345). -/
  | disable
  /-- DISABLE_FORCE: SCH_PART_CMD DISABLE_FORCE aborts the partition's commands and discards its saved images
  (R345). -/
  | disableForce
  /-- PARTITION_RESET: SCH_PART_CMD RESET resets a partition's units and aborts its fetched commands (R371). -/
  | partitionReset
  /-- PARTITION_RESET_DONE: A partition reset completes and the partition returns to ACTIVE (R371). -/
  | partitionResetDone (part : BitVec 4)
  /-- PLACE: SCH_PART_CMD PLACE reads and checks a placement table and advances the placement epoch (R366). -/
  | place (stores : List Host.Cell)
  /-- CONTEXT_CREATE: SCH_CTX_CMD CREATE makes a context ACTIVE in its partition (R346). -/
  | contextCreate
  /-- CONTEXT_DESTROY: SCH_CTX_CMD DESTROY makes a context FREE (R346). -/
  | contextDestroy
  /-- WATCHDOG: An admitted stream makes no progress for LIMIT_US, and its context faults (R364). -/
  | watchdog (stream : Nat)
  /-- HOLD_DEFER_EXPIRY: HOLD_DEFER_US passes and the context is saved, its holdings marked held-by-saved (R361). -/
  | holdDeferExpiry (ctx : BitVec 12)
  /-- HOLDER_RESTORE: A wait on a held-by-saved holding restores the holder, which runs BORROWED (R362). -/
  | holderRestore (ctx : BitVec 12)
  /-- TILE_SAVE_DONE: A tile image is written, completing a PAUSE when it is the last one (R355). -/
  | tileSaveDone (tile : Fin 272)
  /-- SEM_WAIT: A tile program takes n from a semaphore, or waits (R359). -/
  | semWait (tile : Fin 272) (sem : BitVec 10) (n : BitVec 16)
  /-- SEM_SIGNAL: A tile program adds n to a semaphore, and waiters are granted in order (R359). -/
  | semSignal (tile : Fin 272) (sem : BitVec 10) (n : BitVec 16)
  /-- SEM_SET: A tile program stores a semaphore count, and waiters are served in order (R359). -/
  | semSet (tile : Fin 272) (sem : BitVec 10) (n : BitVec 16)
  /-- STREAM_DESCRIPTOR: A tile program issues a stream descriptor that moves strided elements (R387). -/
  | streamDescriptor (cmd : Nat) (tile : Fin 272) (desc : Desc)
  /-- STREAM_ADMIT: A stream is admitted once its whole destination buffer can be reserved (R360). -/
  | streamAdmit (stream : Nat)
  /-- TAG_LANDED: A transfer tag's data lands, advancing the stream frontier (R389). -/
  | tagLanded (stream : Nat) (elem : Nat) (tag : Nat)
  /-- STREAM_RESUME: The block is no longer missing, and the stream resumes after its frontier (R391). -/
  | streamResume (stream : Nat)
  /-- DMA_ENGINE_FAULT: A DMA engine error or host memory failure aborts the whole transfer task (R390). -/
  | dmaEngineFault (stream : Nat) (host : Bool)
  /-- MATRIX_GROUP: The matrix engine reduces one 32-element group into an accumulator slot's levels (R255). -/
  | matrixGroup (cmd : Nat) (tile : Fin 272) (setY : Bool) (slot : Fin 2) (rows : Nat) (cols : Nat) (len : Nat) (first : Bool) (init : Option Nat) (a : MatOperand) (b : MatOperand)
  /-- COMBINE: Combines 2, 4 or 8 split reduction parts as a balanced tree (R259). -/
  | combine (cmd : Nat) (tile : Fin 272) (fmt : AccFmt) (rows : Nat) (cols : Nat) (parts : List (Option Nat)) (dst : Nat)
  /-- DRAIN: Drains an accumulator slot to scratchpad with the fused scale, bias, row and requantisation steps
  (R266). -/
  | drain (cmd : Nat) (tile : Fin 272) (setY : Bool) (word : Word64)
  /-- DRAIN_DONE: A drain's output is complete, and the set becomes EMPTY or HELD (R264). -/
  | drainDone (tile : Fin 272)
  /-- SLOT_TILE_WRITE: A program writes an accumulator slot as a tile of initial values (R263). -/
  | slotTileWrite (cmd : Nat) (tile : Fin 272) (setY : Bool) (slot : Fin 2) (fmt : AccFmt) (rows : Nat) (cols : Nat) (src : Nat)
  /-- SLOT_TILE_READ: A program reads an accumulator slot as the tile a drain would give (R263). -/
  | slotTileRead (cmd : Nat) (tile : Fin 272) (setY : Bool) (slot : Fin 2) (fmt : AccFmt) (rows : Nat) (cols : Nat) (dst : Nat)
  /-- VECTOR_OP: A vector-unit lane operation with one rounding under R225 (R252). -/
  | vectorOp (cmd : Nat) (tile : Fin 272) (op : VecOp)
  /-- MODEL_ACTIVATE: A model is activated on a tile group, waiting for room in the model area (R323). -/
  | modelActivate (part : BitVec 4) (group : Fin 64) (slot : BitVec 8)
  /-- UNIT_STALL: A unit holds work and issues no token for 100 µs without cause, and fails with cause 3 (R456). -/
  | unitStall (unit : Fin 504)
  /-- TEST_SLICE: An in-service test slice runs on a unit as filler or forced, and compares with golden results
  (R461). -/
  | testSlice (unit : Fin 504) (pass : Bool) (worn : Bool)
  /-- TEST_OVERDUE: A unit's test age passes PERIOD_S, and TEST_OVERDUE is written (R461). -/
  | testOverdue (unit : Fin 504)
  /-- TST_RETEST: Keyed write that clears a unit's failure record for the next self-test (R458). -/
  | tstRetest (value : Word32)
  /-- RAIL_CURRENT_REPORT: End of a 1 µs rail window, which raises or lowers rail-current bubbles (R405). -/
  | railCurrentReport (rail : Fin 45) (current : BitVec 16) (mv : BitVec 16)
  /-- INPUT_POWER_REPORT: A 100 µs input report that updates the estimates and recomputes the cap bubble fraction
  (R414). -/
  | inputPowerReport (power : Nat) (vin : Nat) (u : Nat) (meas : List (Nat × Nat × Nat)) (energy : List (Nat × Nat × Nat)) (unassigned : Nat) (paceMiss : Bool)
  /-- THERMAL_REPORT: A 10 µs temperature report that sets thermal fractions and doubled refresh (R416). -/
  | thermalReport (hub : List Int) (base : List Int) (dram : List Int) (far : List Int) (nand : Int) (inlet : Int)
  /-- VR_ALERT_ASSERT: VR_ALERT_N asserts, and every self-timed unit drops to the alert fraction (R406). -/
  | vrAlertAssert
  /-- VR_ALERT_DEASSERT: VR_ALERT_N deasserts, and units leave the alert state through the ramp (R406). -/
  | vrAlertDeassert
  /-- PARK_QUEUE_JOIN: A tile idle for IDLE_PARK_US joins the park queue (R424). -/
  | parkQueueJoin (tile : Fin 272)
  /-- RAMP_STEP: Every STEP, parks or unparks the next GROUP tiles (R424). -/
  | rampStep
  /-- DRIFT_CLEAR: W1C of STK_SAT_STATUS.DRIFT, which also clears FROZEN and both counts (R201). -/
  | driftClear (value : Word32)
  /-- FMT_CLR: FMT_CTL.CLR clears the saturation and NaN counters (R249). -/
  | fmtClr (value : Word32)
  /-- EVT_SELECT: Write to MGT_EVT_SEL that selects an event record, or sets GONE (R452). -/
  | evtSelect (value : Word64)
  /-- PR_SEC_TICK: Primrose's seconds counter advances and the lifetime records update (R469). -/
  | prSecTick
  /-- PR_SEC_STORE: Every 60 s Primrose stores PR_SEC (R469). -/
  | prSecStore
  /-- CALENDAR_RECOMPUTE: Hourly, and at each commit, Primrose recomputes the calendar dates (R471). -/
  | calendarRecompute
  /-- SIGN_TOKEN_REFILL: Every 8 s of PR_SEC, the signing bucket gains one token (R477). -/
  | signTokenRefill
  /-- AAK_GENERATION_DONE: A new alias attestation key and its DIK-signed certificate are ready (R476). -/
  | aakGenerationDone
  /-- GET_VERSION: SPDM request that returns the supported versions (R484). -/
  | getVersion (transport : Fin 3)
  /-- GET_CAPABILITIES: SPDM request that returns the responder's capabilities (R484). -/
  | getCapabilities (transport : Fin 3)
  /-- NEGOTIATE_ALGORITHMS: SPDM request that selects the algorithms of Table 17.2 (R484). -/
  | negotiateAlgorithms (transport : Fin 3) (common : Bool)
  /-- GET_DIGESTS: SPDM request that returns the certificate chain digest (R484). -/
  | getDigests (transport : Fin 3)
  /-- GET_CERTIFICATE: SPDM request that returns the certificate chain of slot 0 (R484). -/
  | getCertificate (transport : Fin 3) (slot : BitVec 4)
  /-- CHALLENGE: SPDM request answered with a CHALLENGE_AUTH signed with one AAK index and token (R485). -/
  | challenge (transport : Fin 3) (slot : BitVec 4)
  /-- GET_MEASUREMENTS: SPDM request that returns measurement blocks, signed when requested (R485). -/
  | getMeasurements (transport : Fin 3) (which : BitVec 8) (signed : Bool)
  /-- KEY_EXCHANGE: SPDM request that opens a secured session with a signed KEY_EXCHANGE_RSP (R485). -/
  | keyExchange (transport : Fin 3)
  /-- FINISH: SPDM request that completes session establishment, authenticated by HMAC (R485). -/
  | finish (transport : Fin 3) (session : Nat) (hmac : Bool)
  /-- KEY_UPDATE: SPDM request that updates a session's keys (R484). -/
  | keyUpdate (transport : Fin 3) (session : Nat)
  /-- HEARTBEAT: SPDM session heartbeat request (R484). -/
  | heartbeat (transport : Fin 3) (session : Nat)
  /-- END_SESSION: SPDM request that ends a secured session (R484). -/
  | endSession (transport : Fin 3) (session : Nat)
  /-- RESPOND_IF_READY: SPDM request that retrieves a response delayed by ResponseNotReady (R484). -/
  | respondIfReady (transport : Fin 3)
  /-- PLDM_FIRMWARE_UPDATE: Out-of-band PLDM Type 5 transfer of a firmware package to the inactive bank (R483). -/
  | pldmFirmwareUpdate (i3c : Bool) (comps : BitVec 4) (bytes : Word32)
  /-- ACTIVATE_FIRMWARE: PLDM ActivateFirmware request for staged components at the next COLD or WARM (R483). -/
  | activateFirmware (i3c : Bool)
  /-- PLDM_SET_EFFECTER: PLDM effecter write of PWR_CAP.LIMIT_W (R490). -/
  | pldmSetEffecter (i3c : Bool) (watts : Nat)
  /-- PLDM_GET_SENSOR: PLDM request that returns a numeric or state sensor reading (R489). -/
  | pldmGetSensor (i3c : Bool) (sensor : PldmSensor)
  /-- PLDM_FRU_READ: PLDM FRU data request that returns part identity and lifetime records (R489). -/
  | pldmFruRead (i3c : Bool)
  /-- FWU_GO: SEC_FWU_CTL.GO stages an in-band firmware package from host memory (R483). -/
  | fwuGo (comps : BitVec 4)
  /-- FWU_ABORT: SEC_FWU_CTL.ABORT stops staging and invalidates the inactive bank (R491). -/
  | fwuAbort
  /-- FWU_ACTIVATE: SEC_FWU_CTL.ACTIVATE requests activation of staged components at the next COLD or WARM (R483). -/
  | fwuActivate (comps : BitVec 4)
  /-- FWU_STAGING_DONE: Staging of a firmware package completes, and the components are verified and STAGED (R483). -/
  | fwuStagingDone (malformed : Bool) (images : List FwImage)
  /-- PERST_N_DEASSERT: Deassertion of PERST_N, or the end of a hot reset, releases the internal reset and starts
  the COLD and WARM timing of Table 2.19 (R503). -/
  | perstNDeassert
  /-- LINK_TRAINING_DONE: Flex Bus training completes at some rate, width and protocol set, which fixes CXL.io-only
  mode, DEGRADED and the end of retry status (R41). -/
  | linkTrainingDone (rate : Nat) (width : Nat) (cacheMem : Bool)
  /-- BW_REGULATOR_REFILL: A partition's token bucket gains RATE × 10^8 bytes/s and releases a waiting request when
  it holds more than 0 bytes (R352). -/
  | bwRegulatorRefill (part : BitVec 4) (n : Fin 6) (ns : Nat)
  /-- TILE_UNIT_FAULT: An uncorrectable scratchpad or accumulator error, or a matrix-engine or vector-unit failure,
  fails a tile and stops the commands that have work on it (R271). -/
  | tileUnitFault (tile : Fin 272)
  /-- LINE_INITIALISATION: After COLD, the BG-class initialisation of every usable line proceeds, and reads of a
  line return zero until it is initialised (R401). -/
  | lineInitialisation
  /-- BUILD_DONE: BUILD finishes: it commits the image of epoch 1, the collection leaves BUILDING for READY and the
  completion is written (R132). -/
  | buildDone (cmd : Nat)
  /-- MODEL_LOAD_DONE: MODEL_LOAD finishes copying, shadows and the MODEL_ID computation, and the slot leaves
  LOADING for READY (R322). -/
  | modelLoadDone (cmd : Nat)
  /-- RESTORE_DONE: RESTORE commits its catalog entry and marker frame and sets the collection READY at the saved
  epoch, leaving EXCLUSIVE (R306). -/
  | restoreDone (cmd : Nat)
  /-- MAINT_DONE: A SANITISE or FORMAT finishes its last unit, the collection or store is freed, MAINT_ACTIVE clears
  and a MAINT_DONE record is written (R311). -/
  | maintDone
  /-- SET_ENDPOINT_ID: The MCTP bus owner assigns Primrose's endpoint ID on a binding (R488). -/
  | setEndpointId (i3c : Bool) (eid : BitVec 8)
  /-- I3C_DYNAMIC_ADDRESS: The I3C bus owner assigns Primrose's dynamic address (R488). -/
  | i3cDynamicAddress (addr : BitVec 7)
  deriving DecidableEq, Repr

end Sys2Proof
end

