-- ==== Sys2Proof/Decode.lean ====
section
/-!
DEFINITION. The word a row's bits spell. The spec's table gives no row any bits, so no word spells a command.
-/

namespace Sys2Proof

/-- No row of the table has bits (log entry 1). -/
def decodeTableWord (_nbits _w : Nat) : Option Instr := none

end Sys2Proof
end

