-- ==== Sys2Proof/Config.lean ====
section
/-!
DEFINITION. The free values: what the spec leaves open, as constants with no body. Nothing in Lean can evaluate them or
prove a value of them. Each is named in a log entry of notes/assumptions.
-/

namespace Sys2Proof

/-- The k-th open choice a run makes (log entry 2): State.freeCtr is the argument, and every use advances it. -/
opaque Config.freeValue : Nat → Nat

/-- The sign of the NaN that an operation with a NaN operand yields, by the two operand encodings (log entry 11:
R220 fixes the sign for conversions and for operands that are not NaN only). -/
opaque Config.nanSign : Nat → Nat → Bool

/-- The channel, row and bank of a line: the mapping is internal (R374; log entry 22). The channels of a range that covers each
once stand in the order of their keys; the surviving channel that backs a line of a lost one is by line. -/
opaque Config.channelKey : Nat → Nat → Nat
opaque Config.survivorOf : Nat → Nat
opaque Config.rowOf : Nat → Nat
opaque Config.bankOf : Nat → Nat

/-- A byte of a device structure whose layout is internal (R128, R134; log entry 23), by address and free count. -/
opaque Config.innerByte : Nat → Nat → Nat

/-- Element j of centroid i that BUILD starts from where its sample has fewer than LIST_COUNT vectors (R118, R296 name none;
log entry 32): a function of the configuration and the sample, so that twins agree (R34, R298). -/
opaque Config.firstCentroid : List Byte → List (List Nat) → Nat → Nat → Nat

/-- The codebook BUILD starts from (R296 names none; log entry 32), by subquantizers, codewords and sample residuals. -/
opaque Config.firstCodebook : Nat → Nat → List (List Nat) → List Nat

/-- Element j of the vector that TRAIN re-encodes for an entry with no residual record (R295, R296; log entry 33), by
code, codebook and element. -/
opaque Config.codeVector : List Byte → List Nat → Nat → Nat

/-- Which of an ID's copies TRAIN re-encodes from (R296; log entry 33), by ID. -/
opaque Config.copyPick : Nat → Nat

/-- The resident models' functions (R32, R246): what a compiled tile program computes is the image's own. Arguments are the
image as loaded, which of its tensors are in FALLBACK, and the inputs. seqState names the state of a sequence after it
reads tokens in a state (0 before its first); logit, by vocabulary index; encoderOut, by element; crossScore of two
segments; anyToken, the token where every logit is NaN (log entry 34). -/
opaque Config.seqState : List Byte → List Bool → Nat → List Nat → Nat
opaque Config.logit : List Byte → List Bool → Nat → Nat → Nat
opaque Config.encoderOut : List Byte → List Bool → List Nat → Nat → Nat
opaque Config.crossScore : List Byte → List Bool → List Nat → List Nat → Nat
opaque Config.anyToken : List Byte → List Bool → Nat → Nat

/-- A word of the CXL component registers, whose offsets CXL 2.0 decides (Table 2.3; log entry 39), by offset and free
count. -/
opaque Config.componentReg : Nat → Nat → Nat

/-- Where the capability pointer of the component registers puts the HDM decoder capability, in units of 16 bytes (R46,
R49; log entry 39). -/
opaque Config.hdmPointer : Nat

/-- What tile k of a group of n tiles holds of a pinned tensor (R251, R323 name no place; log entry 134): the scratchpad address,
and the first byte and length of its part of the tensor's data with its scale table. -/
opaque Config.pinAt : List Byte → Nat → Nat → Nat → Nat × Nat × Nat

/-- A byte of the shadow of a tensor whose scale table fails its check at MODEL_LOAD, whose values R245 then leaves open (log
entry 135), by image, tensor and offset. -/
opaque Config.shadowByte : List Byte → Nat → Nat → Byte

/-- Whether a merge unit holds work of a search (R218; log entry 122), by free value, cluster and command. -/
opaque Config.mergeHolds : Nat → Nat → Nat → Bool

/-- The module's serial number (Table 17.6; log entry 36). -/
opaque Config.serialNumber : Nat

end Sys2Proof
end

