-- ==== Sys2Proof/Machine/Bytes.lean ====
section
/-!
DEFINITION. Bit fields, little-endian byte strings, sparse memory as a canonical cell list, and keyed tables with a
default. Nothing here knows the device's state.
-/

namespace Sys2Proof.Machine

/-! ### Bit fields (R3) -/

/-- Bits lo+n−1..lo of a number. -/
def bitsOf (v lo n : Nat) : Nat := (v >>> lo) % 2 ^ n

/-- Field of n bits at bit lo of a register, as a number. -/
def fld {w : Nat} (r : BitVec w) (lo n : Nat) : Nat := bitsOf r.toNat lo n

/-- One bit of a register. -/
def flag {w : Nat} (r : BitVec w) (i : Nat) : Bool := r.getLsbD i

/-- A register with the n-bit field at bit lo replaced by v (mod 2^n). -/
def setFld {w : Nat} (r : BitVec w) (lo n v : Nat) : BitVec w :=
  let m : BitVec w := BitVec.ofNat w ((2 ^ n - 1) <<< lo)
  (r &&& ~~~m) ||| (BitVec.ofNat w ((v % 2 ^ n) <<< lo))

/-- Write-1-to-clear (R8). -/
def w1c {w : Nat} (old v mask : BitVec w) : BitVec w := old &&& ~~~(v &&& mask)

/-- A Boolean as a bit. -/
def bit (b : Bool) : Nat := if b then 1 else 0

/-- A number saturated at the largest value of n bits. -/
def satN (n v : Nat) : Nat := min v (2 ^ n - 1)

/-- The nearest value of lo..hi. -/
def clampN (lo hi v : Nat) : Nat := max lo (min hi v)

/-- Ceiling division. -/
def cdiv (a b : Nat) : Nat := a / b + (if a % b = 0 then 0 else 1)

/-- Round a up to a multiple of b. -/
def roundUp (a b : Nat) : Nat := cdiv a b * b

/-! ### Little-endian byte strings (R4) -/

/-- The n low bytes of v, lowest first. -/
def natBytes : Nat → Nat → List Byte
  | 0, _ => []
  | n + 1, v => BitVec.ofNat 8 v :: natBytes n (v / 256)

/-- The number a little-endian byte string spells. -/
def bytesNat : List Byte → Nat
  | [] => 0
  | b :: bs => b.toNat + 256 * bytesNat bs

/-- The number in n bytes at offset o of a byte string (bytes past the end read 0). -/
def getLE (bs : List Byte) (o n : Nat) : Nat := bytesNat ((bs.drop o).take n)

/-- Cut a list into pieces of n (n ≥ 1); the fuel is the number of pieces. -/
def piecesOf {α : Type} (n : Nat) : Nat → List α → List (List α)
  | 0, _ => []
  | k + 1, l => l.take n :: piecesOf n k (l.drop n)

/-- All the whole pieces of n elements. -/
def chunksOf {α : Type} (n : Nat) (l : List α) : List (List α) := piecesOf n (l.length / n) l

/-- A list brought to exactly n elements. -/
def padTo {α : Type} (d : α) (n : Nat) (l : List α) : List α := (l ++ List.replicate (n - l.length) d).take n

/-! ### Keyed tables with a default, kept in rising key order -/

/-- The entry of key k, d when the table lists none. -/
def tget {α : Type} (d : α) : List (Nat × α) → Nat → α
  | [], _ => d
  | (k', v) :: t, k => if k' = k then v else tget d t k

/-- The table with key k set. -/
def tset {α : Type} : List (Nat × α) → Nat → α → List (Nat × α)
  | [], k, v => [(k, v)]
  | (k', v') :: t, k, v =>
    if k < k' then (k, v) :: (k', v') :: t
    else if k = k' then (k, v) :: t
    else (k', v') :: tset t k v

/-- The table without key k. -/
def tdel {α : Type} (t : List (Nat × α)) (k : Nat) : List (Nat × α) := t.filter (fun p => p.1 ≠ k)

/-- The table with the entry of key k changed by f. -/
def tmod {α : Type} (d : α) (t : List (Nat × α)) (k : Nat) (f : α → α) : List (Nat × α) :=
  tset t k (f (tget d t k))

/-- Change every listed entry. -/
def tmap {α : Type} (f : Nat → α → α) (t : List (Nat × α)) : List (Nat × α) := t.map (fun p => (p.1, f p.1 p.2))

/-- Element i of a list, d past the end. -/
def lget {α : Type} (d : α) (l : List α) (i : Nat) : α := l.getD i d

/-- A list with element i changed by f. -/
def lmod {α : Type} (l : List α) (i : Nat) (f : α → α) : List α :=
  match l, i with
  | [], _ => []
  | x :: t, 0 => f x :: t
  | x :: t, i + 1 => x :: lmod t i f

/-- The last n elements of a list. -/
def lastN {α : Type} (n : Nat) (l : List α) : List α := (l.reverse.take n).reverse

/-- The sum of a list of numbers. -/
def sumN (l : List Nat) : Nat := l.foldl (· + ·) 0

/-- The least number of a list (0 for none). -/
def minL : List Nat → Nat
  | [] => 0
  | x :: t => t.foldl min x

/-- The largest number of a list (0 for none). -/
def maxL (l : List Nat) : Nat := l.foldl max 0

/-- The first index whose element satisfies p. -/
def findIdx {α : Type} (p : α → Bool) : List α → Nat → Option Nat
  | [], _ => none
  | x :: t, i => if p x then some i else findIdx p t (i + 1)

/-- Insert x before the first element it precedes. -/
def insertBy {α : Type} (lt : α → α → Bool) (x : α) : List α → List α
  | [] => [x]
  | y :: t => if lt x y then x :: y :: t else y :: insertBy lt x t

/-- Stable insertion sort. -/
def sortBy {α : Type} (lt : α → α → Bool) (l : List α) : List α := l.foldl (fun acc x => insertBy lt x acc) []

/-- The elements whose key is the first with that key, in order. -/
def dedupBy {α : Type} (k : α → Nat) : List α → List Nat → List α
  | [], _ => []
  | x :: t, seen => if seen.contains (k x) then dedupBy k t seen else x :: dedupBy k t (k x :: seen)

/-! ### Sparse memory: (address, byte) pairs in rising address order; an unlisted address reads 0 -/

/-- What an unlisted byte reads as. DESIGN CHOICE (log entry 5) for host memory; R401 for device memory. -/
def emptyByte : Byte := 0

/-- The byte at an address. -/
def memGet : List Host.Cell → Nat → Byte
  | [], _ => emptyByte
  | (a', b) :: m, a => if a' = a then b else memGet m a

/-- Put one cell into its place, dropping it when it equals what an unlisted address reads as. -/
def memPut : List Host.Cell → Nat → Byte → List Host.Cell
  | [], a, b => if b = emptyByte then [] else [(a, b)]
  | (a', b') :: m, a, b =>
    if a < a' then (if b = emptyByte then (a', b') :: m else (a, b) :: (a', b') :: m)
    else if a = a' then (if b = emptyByte then m else (a, b) :: m)
    else (a', b') :: memPut m a b

/-- The canonical form: addresses strictly rising from lo on, no listed byte equal to the empty byte. -/
def memWfFrom : Nat → List Host.Cell → Bool
  | _, [] => true
  | lo, (a, b) :: m => decide (lo ≤ a) && decide (b ≠ emptyByte) && memWfFrom (a + 1) m

/-- The canonical form of a memory. -/
def Memory.wf (m : List Host.Cell) : Bool := memWfFrom 0 m

/-- The n bytes from address a. -/
def memBytes (m : List Host.Cell) (a : Nat) : Nat → List Byte
  | 0 => []
  | n + 1 => memGet m a :: memBytes m (a + 1) n

/-- Write a byte string from address a. -/
def memWrite (m : List Host.Cell) (a : Nat) : List Byte → List Host.Cell
  | [] => m
  | b :: bs => memWrite (memPut m a b) (a + 1) bs

/-- Write listed cells one after another. -/
def memCells (m : List Host.Cell) (cs : List Host.Cell) : List Host.Cell :=
  cs.foldl (fun m c => memPut m c.1 c.2) m

/-- The little-endian number in n bytes from address a. -/
def memNat (m : List Host.Cell) (a n : Nat) : Nat := bytesNat (memBytes m a n)

end Sys2Proof.Machine
end

