-- ==== Sys2Proof/Machine/Formats.lean ====
section
/-!
DEFINITION. Number formats, conversion and rounding (08_number_formats.md). A format's bit patterns are numbers; every
operation decodes to an exact value, computes exactly, and rounds once to nearest with ties to even (R225, R233).
-/

namespace Sys2Proof.Machine

/-- The floating formats of Table 8.1 and the engine's internal form E10M23 (R235). -/
inductive Fmt where
  | fp64 | fp32 | bf16 | fp16 | e4m3 | e5m2 | e10m23
  deriving DecidableEq, Repr

/-- Width in bits. -/
def Fmt.width : Fmt → Nat
  | .fp64 => 64 | .fp32 => 32 | .bf16 => 16 | .fp16 => 16 | .e4m3 => 8 | .e5m2 => 8 | .e10m23 => 34

/-- Fraction bits F of Table 8.1. -/
def Fmt.frac : Fmt → Nat
  | .fp64 => 52 | .fp32 => 23 | .bf16 => 7 | .fp16 => 10 | .e4m3 => 3 | .e5m2 => 2 | .e10m23 => 23

/-- Exponent bits of Table 8.1. -/
def Fmt.exp (f : Fmt) : Nat := f.width - 1 - f.frac

/-- Bias of Table 8.1. -/
def Fmt.bias : Fmt → Nat
  | .fp64 => 1023 | .fp32 => 127 | .bf16 => 127 | .fp16 => 15 | .e4m3 => 7 | .e5m2 => 15 | .e10m23 => 511

/-- Bytes of one element. -/
def Fmt.bytes (f : Fmt) : Nat := f.width / 8

/-- An exact value: NaN, infinity, or (−1)^neg · m · 2^e. -/
inductive FV where
  | nan (neg : Bool)
  | inf (neg : Bool)
  | fin (neg : Bool) (m : Nat) (e : Int)
  deriving DecidableEq, Repr

/-- The value is NaN. -/
def FV.isNaN : FV → Bool
  | .nan _ => true
  | _ => false

/-- The value is finite. -/
def FV.isFin : FV → Bool
  | .fin .. => true
  | _ => false

/-- The value is a zero. -/
def FV.isZero : FV → Bool
  | .fin _ 0 _ => true
  | _ => false

/-- The sign. -/
def FV.neg : FV → Bool
  | .nan n | .inf n | .fin n _ _ => n

/-- The value with the other sign. -/
def FV.negate : FV → FV
  | .nan n => .nan (!n)
  | .inf n => .inf (!n)
  | .fin n m e => .fin (!n) m e

/-- The magnitude. -/
def FV.abs : FV → FV
  | .nan _ => .nan false
  | .inf _ => .inf false
  | .fin _ m e => .fin false m e

/-- Largest exponent field. -/
def Fmt.emax (f : Fmt) : Nat := 2 ^ f.exp - 1

/-- Decode a bit pattern (R219, R220). -/
def decode (f : Fmt) (x : Nat) : FV :=
  let neg := decide (bitsOf x (f.width - 1) 1 = 1)
  let e := bitsOf x f.frac f.exp
  let fr := bitsOf x 0 f.frac
  if e = f.emax ∧ f = .e4m3 ∧ fr = 7 then .nan neg
  else if e = f.emax ∧ f ≠ .e4m3 then (if fr = 0 then .inf neg else .nan neg)
  else if e = 0 then .fin neg fr (1 - (f.bias : Int) - f.frac)
  else .fin neg (2 ^ f.frac + fr) ((e : Int) - f.bias - f.frac)

/-- The canonical NaN of Table 8.2. -/
def canonNaN (f : Fmt) (neg : Bool) : Nat :=
  bit neg <<< (f.width - 1) ||| (f.emax <<< f.frac) |||
    (if f = .e4m3 then 7 else 2 ^ (f.frac - 1))

/-- Infinity; E4M3 has none and its NaN stands (R226). -/
def infBits (f : Fmt) (neg : Bool) : Nat :=
  if f = .e4m3 then canonNaN f neg else bit neg <<< (f.width - 1) ||| (f.emax <<< f.frac)

/-- The largest finite encoding. -/
def maxFinite (f : Fmt) : Nat := if f = .e4m3 then 0x7E else (f.emax <<< f.frac) - 1

/-- Nearest-even quotient of m by 2^sh, a sticky flag saying that a non-zero rest lies below m. -/
def rneShift (m sh : Nat) (sticky : Bool) : Nat :=
  if sh = 0 then m
  else
    let k := m >>> sh
    let r := m % 2 ^ sh
    let h := 2 ^ (sh - 1)
    if r > h ∨ (r = h ∧ (sticky ∨ k % 2 = 1)) then k + 1 else k

/-- The magnitude bits (no sign) nearest to m · 2^e, before any overflow rule. -/
def roundMag (f : Fmt) (m : Nat) (e : Int) (sticky : Bool) : Nat :=
  if m = 0 then 0
  else
    let p := f.frac + 1
    let qmin : Int := 1 - (f.bias : Int) - f.frac
    let q : Int := max (e + (Nat.log2 m + 1 : Nat) - p) qmin
    let k := if q ≤ e then m <<< (e - q).toNat else rneShift m (q - e).toNat sticky
    if k < 2 ^ f.frac then k
    else (q - qmin + 1).toNat <<< f.frac + (k - 2 ^ f.frac)

/-- A conversion's result: the bits, and how it counts in FMT_SAT_COUNT and FMT_NAN_COUNT. -/
structure Cvt where
  bits : Nat
  sat : Nat := 0
  nan : Nat := 0
  deriving DecidableEq, Repr

/-- Convert an exact value (sticky: plus a rest below its last bit) to a format, once (R225, R226). -/
def cvtS (f : Fmt) (v : FV) (sticky : Bool) : Cvt :=
  match v with
  | .nan n => { bits := canonNaN f n }
  | .inf n => { bits := infBits f n, nan := if f = .e4m3 then 1 else 0 }
  | .fin n m e =>
    let b := roundMag f m e sticky
    let s := bit n <<< (f.width - 1)
    if b ≤ maxFinite f then { bits := s + b }
    else if f = .e4m3 then { bits := s + 0x7E, sat := 1 }
    else { bits := infBits f n }

/-- Convert an exact value. -/
def cvt (f : Fmt) (v : FV) : Cvt := cvtS f v false

/-- The bits of the conversion. -/
def enc (f : Fmt) (v : FV) : Nat := (cvt f v).bits

/-- Convert a pattern between formats, directly (R225). -/
def convert (src dst : Fmt) (x : Nat) : Nat := enc dst (decode src x)

/-! ### Exact arithmetic on values (R233) -/

/-- m · 2^e brought to exponent e0 ≤ e. -/
def alignTo (m : Nat) (e e0 : Int) : Nat := m <<< (e - e0).toNat

/-- Signed integer of a finite value at exponent e0. -/
def finAt (n : Bool) (m : Nat) (e e0 : Int) : Int := if n then -(alignTo m e e0 : Int) else (alignTo m e e0 : Int)

/-- The NaN an operation with a NaN operand yields. -/
def nanOf (a b : Nat) : FV := .nan (Config.nanSign a b)

/-- Exact sum; zeros by sign, exact zero sums of non-zero terms +0. -/
def addV (a b : FV) (ka kb : Nat) : FV :=
  match a, b with
  | .nan _, _ | _, .nan _ => nanOf ka kb
  | .inf x, .inf y => if x = y then .inf x else .nan false
  | .inf x, _ => .inf x
  | _, .inf y => .inf y
  | .fin x m e, .fin y k g =>
    if m = 0 ∧ k = 0 then .fin (x && y) 0 e
    else
      let e0 := min e g
      let s := finAt x m e e0 + finAt y k g e0
      .fin (decide (s < 0)) s.natAbs e0

/-- Exact product. -/
def mulV (a b : FV) (ka kb : Nat) : FV :=
  match a, b with
  | .nan _, _ | _, .nan _ => nanOf ka kb
  | .inf x, .fin y k _ => if k = 0 then .nan false else .inf (xor x y)
  | .fin x m _, .inf y => if m = 0 then .nan false else .inf (xor x y)
  | .inf x, .inf y => .inf (xor x y)
  | .fin x m e, .fin y k g => .fin (xor x y) (m * k) (e + g)

/-- Add, subtract, multiply in a format. -/
def fadd (f : Fmt) (a b : Nat) : Nat := enc f (addV (decode f a) (decode f b) a b)
def fsub (f : Fmt) (a b : Nat) : Nat := enc f (addV (decode f a) (decode f b).negate a b)
def fmul (f : Fmt) (a b : Nat) : Nat := enc f (mulV (decode f a) (decode f b) a b)

/-- Fused multiply-add: a × b + c rounded once. The NaN of 0 × ∞ is positive, whatever c is but NaN (R220). -/
def ffma (f : Fmt) (a b c : Nat) : Nat :=
  let p := mulV (decode f a) (decode f b) a b
  if p.isNaN && !(decode f a).isNaN && !(decode f b).isNaN && !(decode f c).isNaN then canonNaN f false
  else enc f (addV p (decode f c) a c)

/-- The exact quotient, rounded once: enough quotient bits and a sticky rest. -/
def fdiv (f : Fmt) (a b : Nat) : Nat :=
  match decode f a, decode f b with
  | .nan _, _ | _, .nan _ => enc f (nanOf a b)
  | .inf _, .inf _ => canonNaN f false
  | .inf x, .fin y _ _ => infBits f (xor x y)
  | .fin x _ _, .inf y => enc f (.fin (xor x y) 0 0)
  | .fin x m e, .fin y k g =>
    if k = 0 then (if m = 0 then canonNaN f false else infBits f (xor x y))
    else
      let sh := 2 * f.frac + 8 + Nat.log2 k
      let n := m <<< sh
      (cvtS f (.fin (xor x y) (2 * (n / k) + bit (decide (n % k ≠ 0))) (e - g - sh - 1)) false).bits

/-- Integer square root by bits: r with r² ≤ n, built from bit i down. -/
def isqrtBits (n : Nat) : Nat → Nat → Nat
  | 0, r => r
  | i + 1, r =>
    let t := r + 2 ^ i
    isqrtBits n i (if t * t ≤ n then t else r)

/-- ⌊√n⌋. -/
def isqrt (n : Nat) : Nat := isqrtBits n (Nat.log2 n / 2 + 1) 0

/-- The square root rounded once. -/
def fsqrt (f : Fmt) (a : Nat) : Nat :=
  match decode f a with
  | .nan _ => enc f (nanOf a a)
  | .inf n => if n then canonNaN f false else infBits f false
  | .fin n m e =>
    if m = 0 then enc f (.fin n 0 0)
    else if n then canonNaN f false
    else
      let sh := 2 * f.frac + 8 + (if (e - (2 * f.frac + 8 : Nat)) % 2 = 0 then 0 else 1)
      let k := m <<< sh
      let r := isqrt k
      enc f (.fin false (2 * r + bit (decide (r * r ≠ k))) ((e - sh) / 2 - 1))

/-- Value order of two values that are not NaN: a < b. -/
def ltV (a b : FV) : Bool :=
  match a, b with
  | .nan _, _ | _, .nan _ => false
  | .inf x, .inf y => x && !y
  | .inf x, _ => x
  | _, .inf y => !y
  | .fin x m e, .fin y k g => decide (finAt x m e (min e g) < finAt y k g (min e g))

/-- Equal as values; −0 = +0 and NaN equals nothing (R233). -/
def eqV (a b : FV) : Bool := !a.isNaN && !b.isNaN && !ltV a b && !ltV b a

/-- a ≤ b. -/
def leV (a b : FV) : Bool := ltV a b || eqV a b

/-- Maximum under R233: NaN if any operand is NaN; of −0 and +0, +0. -/
def fmax (f : Fmt) (a b : Nat) : Nat :=
  let x := decode f a; let y := decode f b
  if x.isNaN || y.isNaN then enc f (nanOf a b)
  else if ltV x y then b else if ltV y x then a else if x.neg then b else a

/-- Minimum under R233: of −0 and +0, −0. -/
def fmin (f : Fmt) (a b : Nat) : Nat :=
  let x := decode f a; let y := decode f b
  if x.isNaN || y.isNaN then enc f (nanOf a b)
  else if ltV x y then a else if ltV y x then b else if x.neg then a else b

/-! ### Integers -/

/-- An integer as an exact value. -/
def ofInt (i : Int) : FV := .fin (decide (i < 0)) i.natAbs 0

/-- Two's complement number of n bits. -/
def sext (n v : Nat) : Int := if bitsOf v (n - 1) 1 = 1 then (v % 2 ^ n : Nat) - (2 ^ n : Int) else (v % 2 ^ n : Nat)

/-- The n-bit two's complement pattern of an integer. -/
def toBits (n : Nat) (i : Int) : Nat := (i % (2 ^ n : Int)).toNat

/-- A conversion to an integer: the value and its counts. -/
structure ICvt where
  val : Int
  sat : Nat := 0
  nan : Nat := 0
  deriving DecidableEq, Repr

/-- Clamp an integer, counting a clamp. -/
def clampI (lo hi v : Int) : ICvt :=
  if v < lo then { val := lo, sat := 1 } else if hi < v then { val := hi, sat := 1 } else { val := v }

/-- Floating value to integer: nearest even, then clamp (R227). -/
def toInt (lo hi : Int) (v : FV) : ICvt :=
  match v with
  | .nan _ => { val := 0, nan := 1 }
  | .inf n => { val := if n then lo else hi, sat := 1 }
  | .fin n m e =>
    let k : Int := if 0 ≤ e then (m <<< e.toNat : Nat) else (rneShift m (-e).toNat false : Nat)
    clampI lo hi (if n then -k else k)

/-- Requantisation (R231): ties away from zero, each clamp counted. -/
def requant (a : Int) (m n : Nat) (z lo hi : Int) : ICvt :=
  let p := a * m
  let r : Int :=
    if n = 0 then p
    else
      let h : Int := 2 ^ (n - 1)
      if 0 ≤ p then (p + h) / 2 ^ n else -((-p + h) / 2 ^ n)
  clampI lo hi (r + z)

/-! ### The Q4B bell grid (R223, R224) -/

/-- N(i) of Table 8.4. -/
def q4bN (i : Nat) : Int :=
  let t : List Int := [86, 261, 442, 637, 854, 1110, 1449, 2048]
  if i < 8 then -(lget 0 t (7 - i)) else lget 0 t (i - 8)

/-- The level value L(i) = N(i) / 2048. -/
def q4bV (i : Nat) : FV := .fin (decide (q4bN i < 0)) (q4bN i).natAbs (-11)

/-- The number of midpoints (N(i)+N(i+1))/4096 below or at the value: the nearest level, ties to the even index. -/
def q4bIndex (v : FV) : Nat :=
  (List.range 15).foldl (fun acc i =>
    let s := q4bN i + q4bN (i + 1)
    let mid : FV := .fin (decide (s < 0)) s.natAbs (-12)
    if ltV mid v || (eqV mid v && i % 2 = 1) then i + 1 else acc) 0

/-- Encode a value into Q4B with its counts (R224). -/
def q4bEnc (v : FV) : Cvt :=
  match v with
  | .nan _ => { bits := 8, nan := 1 }
  | .inf n => { bits := if n then 0 else 15, sat := 1 }
  | .fin n m e =>
    if ltV (.fin false 1 0) (.fin false m e) then { bits := if n then 0 else 15, sat := 1 }
    else { bits := q4bIndex v }

/-! ### BS8 block scales (R238) -/

/-- The value of BS8 code c. -/
def bs8V (c : Nat) : FV := .fin false (8 + c % 8) (((c / 8 : Nat) : Int) - 16 - 3)

/-- Codes 0x01 to 0xFE are valid. -/
def bs8Ok (c : Nat) : Bool := decide (1 ≤ c ∧ c ≤ 254)

/-! ### FP32 shorthands -/

/-- FP32 operations on bit patterns. -/
abbrev f32 := Fmt.fp32
def f32One : Nat := 0x3F800000
def f32Zero : Nat := 0

/-- A natural number as FP32, rounded once. -/
def f32Nat (n : Nat) : Nat := enc .fp32 (.fin false n 0)

end Sys2Proof.Machine
end

