-- ==== Sys2Proof/Machine/State.lean ====
section
/-!
DEFINITION. The device's state as plain data: every register, queue, memory and status the spec gives the module, with
the value each has right after reset (R11: the value after the COLD level; log entry 3 lists those the spec gives none).
Keyed tables are lists of (key, entry) in rising key order; a key that is not listed stands for the default entry.
-/

namespace Sys2Proof.Machine

/-! ### Stops -/

/-- Why a step stops with a fault. No command of this device does: the block has no exception entry and every rule
gives its commands an effect. The one constructor is never raised. Safe. -/
inductive Fault where
  /-- Raised by no command. Safe: a stop would only withhold a next state. -/
  | none
  deriving DecidableEq, Repr

/-- Why a step is refused. -/
inductive Refusal where
  /-- A row of the table whose meaning is not written: raised by its arm of Dispatch alone. Safe: no next state is
  claimed. -/
  | notModelled (mnemonic : String)
  deriving DecidableEq, Repr

/-! ### Host attachment (02_host_attachment.md) -/

/-- The reset levels of Table 2.18. -/
inductive ResetLevel where
  | cold | warm | cxl | flr | device
  deriving DecidableEq, Repr

/-- HDM decoder (R49): base, size and DPA skip in bytes, the interleave fields as written, and whether it is to lock on
commit, is committed, is locked, or reports Commit Error. -/
structure Decoder where
  base : Nat := 0
  size : Nat := 0
  skip : Nat := 0
  ways : Nat := 0
  gran : Nat := 0
  lockOn : Bool := false
  committed : Bool := false
  locked : Bool := false
  error : Bool := false
  deriving DecidableEq, Repr

/-- One MSI-X table entry (R54, R55): the host's address and data words, the mask bit and the pending bit. -/
structure MsixEntry where
  addr : Word64 := 0
  data : Word32 := 0
  mask : Bool := true
  pend : Bool := false
  deriving DecidableEq, Repr

/-- The CXL link as trained (R40, R41). -/
structure Link where
  up : Bool := false
  rate : Nat := 32
  width : Nat := 16
  cacheMem : Bool := true
  deriving DecidableEq, Repr

/-- The host interface: the registers of Tables 2.7 to 2.17 that hold state, the timer, the reset machine, the link,
the HDM decoders, the bias table, MSI-X and what the host last read. `cache` holds the lines of the device cache (R39:
used only for ring traffic), `dvsec` the DVSEC control registers by key (Table 2.18), `hdmGlobal` the HDM decoder
capability's global control, and `cdat` the CDAT the host last read, as (range, base, bytes). -/
structure Hif where
  control : Word32 := 2
  errStatus : Word32 := 0
  errMask : Word32 := 0
  biasCtl : Word32 := 0
  biasFlip : Option (Nat × Bool) := none
  hostBias : List Nat := []
  timer : Nat := 0
  tod : Word64 := 0
  todStamp : Word64 := 0
  todSet : Bool := false
  timerGap : Bool := false
  viral : Bool := false
  lastReset : Nat := 0
  bootStage : Nat := 0
  selftestFail : Bool := false
  memActive : Bool := false
  ready : Bool := false
  inReset : Option ResetLevel := some .cold
  memClr : Bool := false
  shadow : Option (Nat × Word32) := none
  lows : List (Nat × Nat) := []
  rdata : Word64 := 0
  rline : Option (BitVec 512) := none
  cfgRead : Option Word32 := none
  cdat : List (Nat × Nat × Nat) := []
  link : Link := {}
  cfgRetry : Bool := true
  d3 : Bool := false
  cfg : List (Nat × Nat) := []
  dvsec : List (Nat × Nat) := []
  hdmGlobal : Nat := 0
  cache : List Nat := []
  msixFuncMask : Bool := false
  msix : List (Nat × MsixEntry) := []
  msgs : List Nat := []
  decoders : List Decoder := List.replicate 4 {}
  aer : List Nat := []
  deriving DecidableEq, Repr

/-! ### Rings and commands (03_rings_and_commands.md) -/

/-- Table 3.12. -/
inductive RingState where
  | free | active | draining | error
  deriving DecidableEq, Repr

/-- One ring pair: its registers and the device's indices. `cover` lists, oldest first, the tails written and their
arrival times, for the waiting times of R351; `goWait` lists records waiting for global observation on the cache path,
with whether a message is due after each (R42). -/
structure Ring where
  sqBase : Word64 := 0
  cqBase : Word64 := 0
  cfg : Word32 := 0x404
  irq : Word32 := 0x1000
  qos : Word32 := 1000
  state : RingState := .free
  errCause : Nat := 0
  refused : Bool := false
  sqHead : Nat := 0
  sqTail : Nat := 0
  cqHead : Nat := 0
  cqTail : Nat := 0
  phase : Bool := true
  inflight : Nat := 0
  unsig : Nat := 0
  oldest : Nat := 0
  goWait : List Bool := []
  cover : List (Nat × Nat) := []
  energy : Nat := 0
  deriving DecidableEq, Repr

/-- A BARRIER instance (R109, R110): participants, timeout in µs and first arrival of its first arrival, and the
commands that have arrived. -/
structure Barrier where
  participants : Nat
  timeoutUs : Nat
  first : Nat
  arrived : List Nat
  deriving DecidableEq, Repr

/-- How far a fetched command has come. -/
inductive Run where
  /-- Fetched and not started. -/
  | waiting
  /-- Started: its first stage has admitted it. -/
  | running
  /-- At its last step (R468): a force no longer changes its status. -/
  | last
  deriving DecidableEq, Repr

/-! ### Tiles (09_matrix_engines.md) -/

/-- One accumulator slot: its shape, the nine level entries (each one value per element, row-major), the initial value, the
number of groups added (R255, R258, R261, R262), and S_A × S_B as formed when its operands were loaded (R238, R266). -/
structure AccSlot where
  fmt : AccFmt := .fp32
  rows : Nat := 0
  cols : Nat := 0
  levels : List (Option (List Nat)) := List.replicate 9 none
  init : Option (List Nat) := none
  groups : Nat := 0
  scaleAB : Nat := 0x3F800000
  deriving DecidableEq, Repr

/-- Table 9.4. -/
inductive SetState where
  | empty | accumulating | held | draining
  deriving DecidableEq, Repr

/-- An accumulator set of two slots; `keep` is the KEEP bit of the drain under way. -/
structure AccSet where
  state : SetState := .empty
  keep : Bool := false
  slots : List AccSlot := List.replicate 2 {}
  deriving DecidableEq, Repr

/-- One tile: scratchpad bytes, vector registers of 32 lanes, accumulator sets X and Y, the active set; its control state (R250): the
program position, as the operations its invocation has issued, predicates, the tensor scales of the operands last loaded, the
semaphores and the streams that its invocation has handles of; the pinned tensors it holds, as (model slot, tensor) (R323); the
partition it last ran for and the command it runs (R251, R270). -/
structure Tile where
  scratch : List Host.Cell := []
  vregs : List (Nat × List Nat) := []
  x : AccSet := {}
  y : AccSet := {}
  activeY : Bool := false
  pos : Nat := 0
  preds : List (Nat × Nat) := []
  tscales : Nat × Nat := (0x3F800000, 0x3F800000)
  semHandles : List Nat := []
  credits : List Nat := []
  pins : List (Nat × Nat) := []
  lastPart : Option Nat := none
  running : Option Nat := none
  workSince : Nat := 0
  deriving DecidableEq, Repr

/-- A saved tile image (R270, R355): context, logical tile, the physical tile it was taken from, command and the tile's whole state. -/
structure SaveImage where
  ctx : Nat
  logical : Nat
  phys : Nat
  cmd : Nat
  tile : Tile
  deriving DecidableEq, Repr

/-! ### Partitions, contexts and pre-emption (12_partitions_scheduling.md) -/

/-- Table 12.5. -/
inductive PartState where
  | off | active | pausing | paused | resetting | draining
  deriving DecidableEq, Repr

/-- Table 12.7. -/
inductive CtxState where
  | free | active | yielded | saved | borrowed | tornDown | pausing
  deriving DecidableEq, Repr

/-- An invocation waiting on a semaphore: its context, command, tile and the amount it wants, since when it waits, and since when a
holder that it waits for is saved (R421). -/
structure SemWaiter where
  ctx : Nat
  cmd : Nat
  tile : Nat
  amount : Nat
  since : Nat
  heldFrom : Option Nat := none
  deriving DecidableEq, Repr

/-- One semaphore of a partition (R359): its count, what each context has taken and not signalled, its waiters in the
order of their WAITs, and the contexts whose holding is marked held-by-saved (R361). -/
structure Sem where
  count : Nat := 0
  holds : List (Nat × Int) := []
  waiters : List SemWaiter := []
  marked : List Nat := []
  deriving DecidableEq, Repr

/-- Bandwidth regulator (R352): its register, its bucket in bytes, and the HIF_TIMER up to which it has been refilled. -/
structure Regulator where
  reg : Word32 := 0x10000000
  level : Int := 1048576
  filled : Nat := 0
  deriving DecidableEq, Repr

/-- A run of 2 MiB blocks of device physical space: first block and count. -/
structure Extent where
  first : Nat
  count : Nat
  deriving DecidableEq, Repr

/-- A placement epoch still draining (R366, R367): the epoch and its table, whose tiles keep their buffers. -/
structure OldEpoch where
  epoch : Nat
  place : List (Nat × Nat)
  deriving DecidableEq, Repr

/-! ### Collections (04_collections_and_layout.md) -/

/-- The accepted configuration block (Table 4.1), with bytes 0x20–0x5F of the raw block cleared (Table 4.7). -/
structure CollCfg where
  metric : Nat := 0
  codeType : Nat := 0
  dim : Nat := 1
  pqM : Nat := 0
  attrBytes : Nat := 0
  resFmt : Nat := 0
  spillMax : Nat := 1
  idInStack : Bool := false
  durability : Nat := 0
  listCount : Nat := 1
  freshCap : Nat := 4096
  maxEntries : Nat := 1
  rho : Nat := 0
  srcFmt : Nat := 0
  resGiven : Bool := false
  raw : List Byte := []
  deriving DecidableEq, Repr

/-- One stored entry (R120, R123, R124): ID, code bytes without pad, attribute bytes, tombstone, residual record
without pad. -/
structure Entry where
  id : Nat
  code : List Byte
  attr : List Byte
  dead : Bool := false
  res : List Byte
  deriving DecidableEq, Repr

/-- The columns' base addresses (Table 4.9). -/
structure Cols where
  code : Nat := 0
  tomb : Nat := 0
  attr : Nat := 0
  id : Nat := 0
  res : Nat := 0
  deriving DecidableEq, Repr

/-- One inverted list at one version (R136, R137): slots in order, LIST_EPOCH, stack, replica,
capacity, column addresses, the replica's columns and the block runs that hold them. -/
structure IList where
  slots : List Entry := []
  epoch : Nat := 1
  stack : Nat := 0
  replica : Option Nat := none
  capacity : Nat := 0
  cols : Cols := {}
  repCols : Cols := {}
  runs : List Extent := []
  repRuns : List Extent := []
  deriving DecidableEq, Repr

/-- One fresh entry (R125, R138): its fresh index, entry, primary list, journal sequence number, and the vector as
carried, in FP32 (FP64 kept when the residual is formed in FP64), from which compaction makes spill copies. -/
structure Fresh where
  index : Nat
  entry : Entry
  list : Nat
  jseq : Nat
  vec : List Nat
  deriving DecidableEq, Repr

/-- The content of a collection that a query binds (R147): configuration, epoch, lists, fresh segment, centroids (FP32
rows), codebook or scale table (FP32, flat), residual scales, filter programs, home stack and addresses. `vers` numbers the
versions of R288: key l for list l, 65536 + h for fresh shard h, and 65552 + h for the tombstones and attribute words of
that shard, which alone need a version write (R290). -/
structure CollData where
  cfg : CollCfg := {}
  epoch : Nat := 0
  lists : List IList := []
  fresh : List Fresh := []
  centroids : List (List Nat) := []
  codebook : List Nat := []
  resScale : List Nat := []
  filters : List (Nat × List Byte) := []
  home : Nat := 0
  dir : Nat := 0
  centDpa : Nat := 0
  cbDpa : Nat := 0
  resScaleDpa : Nat := 0
  freshCols : List Cols := []
  homeRuns : List Extent := []
  farRuns : List Extent := []
  filterRuns : List (Nat × Extent) := []
  vers : List (Nat × Nat) := []
  deriving DecidableEq, Repr

/-- Table 4.6. -/
inductive CollState where
  | free | building | ready | exclusive | failed
  deriving DecidableEq, Repr

/-! ### Queries (05_search.md, 06_scan_engines.md, 07_topk_merge.md) -/

/-- What a probe scans: a list, or the fresh shard of a stack. -/
inductive Scanned where
  | list (l : Nat)
  | shard (s : Nat)
  deriving DecidableEq, Repr

/-- How far a probe has come (R152, R168). -/
inductive ProbeState where
  | pending | running (pass : Nat) | delivered | withdrawn
  deriving DecidableEq, Repr

/-- One probe of a query: what it scans, the stack whose coverage bit it belongs to, the stack that scans it (R153), how
far it is, the running pass it has left (R168), and since when it waits for a version to be written to memory (R289). -/
structure Probe where
  what : Scanned
  stack : Nat
  onStack : Nat
  state : ProbeState := .pending
  left : Option Nat := none
  verFrom : Option Nat := none
  deriving DecidableEq, Repr

/-- A candidate as the hub holds it: score pattern, ID, whether it is fresh, code version (0 for a fresh entry), list
(0xFFFFFFFF for a shard), slot of its column set, home stack, and the tag of the segment and the query slot it came from
(Table 6.8). -/
structure Cand where
  score : Nat
  id : Nat
  fresh : Bool
  version : Nat
  list : Nat
  slot : Nat
  stack : Nat
  tag : Nat := 0
  qslot : Nat := 0
  deriving DecidableEq, Repr

/-- An exclusion entry (Table 3.22): the line, the list (0xFFFFFFFF for the fresh segment) and the vectors. -/
structure Excl where
  line : Nat
  list : Nat
  vectors : Nat
  deriving DecidableEq, Repr

/-- One query of a command. Its input as read once (R146, R149): whether it fails, the query in FP32 and FP64, its bits
and its tokens. Its probes once dispatched; stacks out of service at dispatch, as a mask (R169); the mask once the cut-off
has fixed it (R168); the published threshold of each stack as (stack, FP32 bits), the stacks whose threshold table holds an
entry for it and those whose table it found full (R191); what its stacks have delivered: the candidates in its per-stack
merges (R189), the NaN count of each stack (R193) and the exclusion entries met, each with its stack (R198); and whether
its block is written. -/
structure QState where
  bad : Bool := false
  q32 : List Nat := []
  q64 : List Nat := []
  qbits : List Byte := []
  tokens : List Nat := []
  probes : Option (List Probe) := none
  lost : Nat := 0
  fixed : Option Nat := none
  theta : List (Nat × Nat) := []
  thetaSlots : List Nat := []
  thetaFull : List Nat := []
  held : List Cand := []
  nans : List (Nat × Nat) := []
  excls : List (Nat × Excl) := []
  written : Bool := false
  deriving DecidableEq, Repr

/-- A search command (R147): whether it has met its binding point and the state it then took (none where the collection
refuses searches, R148), the filter program of its fetch (R187), its queries, the next one to complete, what its blocks
written so far add to the record, and since when a join of it is deferred. -/
structure QueryWork where
  bound : Option CollData := none
  filter : Option (List Byte) := none
  qs : List QState := []
  next : Nat := 0
  met : Bool := false
  invalid : Nat := 0
  excl : Nat := 0
  cover : Nat := 0xFFF
  anyCover : Bool := false
  anyBad : Bool := false
  anyPartial : Bool := false
  anyTrunc : Bool := false
  deferSince : Option Nat := none
  deriving DecidableEq, Repr

/-- A query slot of a segment's engine (R173): its query, as command and index in it; its distance table as the exponent of
σ and the FP16 entries, and its list bias β; the running threshold as the engine has it; its filter program and FILTER_ARG;
the fresh visibility limit, one past the last fresh index visible; the slots counted as NaN; the first slot not yet read
for it, the number of slots below which the hub has accepted its records (R199), and whether the query has left the pass
(R168). -/
structure Served where
  cmd : Nat
  q : Nat
  table : Int × List (List Nat) := (0, [])
  beta : Nat := 0
  theta : Option Nat := none
  filter : Option (List Byte) := none
  arg : Nat := 0
  limit : Nat := 0
  nans : List Nat := []
  pos : Nat := 0
  top : Nat := 0
  left : Bool := false
  deriving DecidableEq, Repr

/-- An exclusion report of a segment (R198): the line, the list, the vector count and the mask of query slots it affects. -/
structure Report where
  line : Nat
  list : Nat
  vectors : Nat
  mask : Nat
  deriving DecidableEq, Repr

/-- A candidate record on the stack link (Table 6.8). -/
structure Record where
  score : Nat
  slot : Nat
  list : Nat
  version : Nat
  id : Nat
  tag : Nat
  qslot : Nat
  deriving DecidableEq, Repr

/-- One segment of a scan pass (R152, R174): its pass, what it reads, the stack and the engine (none while it waits for
one), the slot range, the first slot not read for every query and the first not read at all, the queries served by slot, the
lines it has excluded (R198), the engine failures it has met (R199) and its engine's busy time (R350). -/
structure Pass where
  id : Nat
  pass : Nat
  part : Nat
  coll : Nat
  what : Scanned
  stack : Nat
  engine : Option Nat
  first : Nat
  count : Nat
  cursor : Nat
  upto : Nat := 0
  served : List Served
  excls : List Report := []
  faults : Nat := 0
  busy : Nat := 0
  deriving DecidableEq, Repr

/-- An entry of an Aster register (Table 7.1): score, local index and vector ID. -/
structure AsterEntry where
  score : Nat
  index : Nat
  id : Nat
  deriving DecidableEq, Repr

/-- Scan-engine registers (Tables 6.12 to 6.19): `slots` holds SCH_SLOT_MAP, `read` and `emit` the STK_SCAN counters; the
running segments; and the selection each Aster unit holds of its last row (R203, R204), as its mode (wide or standard) and
the entries of its registers, one register a pass (R205). -/
structure Scan where
  seCtl : Word32 := 0
  satCtl : Word32 := 0x04000000
  satSel : Nat := 0
  slots : List Nat := List.replicate 12 0
  read : List Nat := List.replicate 12 0
  emit : List Nat := List.replicate 12 0
  passes : List Pass := []
  nextPass : Nat := 0
  aster : List (Nat × (Bool × List (List AsterEntry))) := []
  deriving DecidableEq, Repr

/-- One partition: the registers of Table 12.2, its state, its placement (logical tile l ↦ physical tile and group),
its bandwidth regulators, its areas and save images (R342), its semaphores and a PAUSE under way. -/
structure Partition where
  res : Word64 := 0
  cfg : Word32 := 1000
  mem : Word32 := 0
  state : PartState := .off
  err : Nat := 0
  placeAddr : Word64 := 0
  epoch : Nat := 0
  bw : List Regulator := List.replicate 6 {}
  place : List (Nat × Nat) := []
  old : List OldEpoch := []
  modelArea : List Extent := []
  workArea : List Extent := []
  saveArea : List Extent := []
  images : List SaveImage := []
  mergesSaved : List Nat := []
  sems : List (Nat × Sem) := []
  pauseCmd : Option (Nat × Bool) := none
  deriving DecidableEq, Repr

/-- One context: the registers of Table 12.4, its virtual time (R348), the ring fetched last, and a PAUSE under way
(its command and whether it is instruction-precise). -/
structure Context where
  cfg : Word32 := 1
  state : CtxState := .free
  err : Nat := 0
  engine : Nat := 0
  saves : Nat := 0
  yields : Nat := 0
  borrow : Nat := 0
  waits : List Nat := List.replicate 16 0
  v : Rat := 0
  candidate : Bool := false
  lastRing : Nat := 4095
  pauseCmd : Option Nat := none
  precise : Bool := false
  pauseAt : Nat := 0
  borrower : Option Nat := none
  deriving DecidableEq, Repr

/-- Partitions, contexts and the device-wide registers of Table 12.3. -/
structure Sch where
  partSel : Nat := 0
  ctxSel : Nat := 0
  parts : List (Nat × Partition) := []
  ctxs : List (Nat × Context) := []
  wdog : Word32 := 10000
  deriving DecidableEq, Repr

/-! ### Power and temperature (14_power_thermal.md) -/

/-- One rail (R404, R405): voltage, mean current of the last 100 windows in 0.1 A, the running sum and number of
windows, and the rail-current bubble fraction in 1/256. -/
structure Rail where
  mv : Nat := 0
  current : Nat := 0
  acc : Nat := 0
  n : Nat := 0
  bubble : Nat := 0
  deriving DecidableEq, Repr

/-- The speed rating of a tile or scan engine (R408, R409). -/
structure Rating where
  fused : Nat := 900
  age : Nat := 0
  worn : Bool := false
  deriving DecidableEq, Repr

/-- Power registers and telemetry. E(p,φ) is kept as FP32 bits at index 6p+φ (R413). -/
structure Pwr where
  ctl : Word32 := 0xB0000100
  cap : Word32 := 0x1E05DC
  phaseSel : Word32 := 0
  ramp : Word32 := 0x000A3210
  ringSel : Nat := 0
  modes : List (Nat × Word32) := []
  alert : Bool := false
  alertFrac : Nat := 0
  input : Word32 := 0
  u : Nat := 0
  overshoot : Nat := 0
  est : List (Nat × Word32) := []
  activeKey : List Nat := []
  capDyn : Nat := 0
  capFix : Nat := 0
  paceMiss : Bool := false
  thrTime : List Nat := List.replicate 7 0
  rails : List Rail := List.replicate 45 {}
  energyPart : List (Nat × Nat) := []
  energyUn : Nat := 0
  ratings : List (Nat × Rating) := []
  boost : List (Nat × Nat) := []
  parkQ : List Nat := []
  parked : List Nat := []
  unparkQ : List Nat := []
  deriving DecidableEq, Repr

/-- Temperatures in 0.25 °C, thermal fractions in 1/256 and the THM registers. -/
structure Thm where
  ctl : Word32 := 0x5F6400
  status : Word32 := 0
  tripLast : Bool := false
  hub : List Int := List.replicate 16 0
  hubMax : List Int := List.replicate 16 0
  base : List Int := List.replicate 12 0
  dram : List Int := List.replicate 12 0
  dramMax : List Int := List.replicate 12 0
  far : List Int := List.replicate 8 0
  nand : Int := 0
  inlet : Int := 0
  hubFrac : List Nat := List.replicate 16 0
  stkFrac : List Nat := List.replicate 12 0
  dramHot : List Nat := List.replicate 12 0
  deriving DecidableEq, Repr

/-! ### Events, units, test and lifetime (16_reliability_test.md) -/

/-- An event record (Table 16.2) with its sequence number. -/
structure Event where
  seq : Nat
  stamp : Nat
  prSec : Nat
  code : Nat
  sev : Nat
  kind : Nat
  unit : Nat
  d0 : Nat
  d1 : Nat
  deriving DecidableEq, Repr

/-- Table 16.4. -/
inductive UnitState where
  | active | spare | failed
  deriving DecidableEq, Repr

/-- A tested unit: its state, cause and stored failure record, the stamp at which its last complete passing pass began,
the start of the pass under way and the slices passed in it. -/
structure TestUnit where
  state : UnitState
  cause : Nat := 0
  record : Bool := false
  retest : Bool := false
  pass : Nat := 0
  begun : Nat := 0
  slices : Nat := 0
  overdue : Bool := false
  deriving DecidableEq, Repr

/-- Primrose: event records, PR_SEC, lifetime records, calendar and the MGT window registers; `platform` holds the records sent
as PlatformEventMessages (R489). -/
structure Mgt where
  ctl : Word32 := 1
  evtStatus : Word32 := 0
  events : List Event := []
  nextEvt : Nat := 1
  evtSel : Word64 := 0
  selGone : Bool := true
  lifeSel : Nat := 0
  prSec : Nat := 0
  prStored : Nat := 0
  life : List Nat := List.replicate 18 0
  hubMin : Int := 0
  stkMin : Int := 0
  powered30 : List Nat := []
  cal : List Nat := List.replicate 4 0
  pendingStart : List Event := []
  platform : List Event := []
  deriving DecidableEq, Repr

/-- In-service test: the TST registers and the units whose state differs from the start-up default
(`since` is the stamp of the start-up self-test, the last complete pass of a unit that has run none since). -/
structure Tst where
  ctl : Word32 := 0x803C0258
  passes : Nat := 0
  unitSel : Nat := 0
  since : Nat := 0
  units : List (Nat × TestUnit) := []
  deriving DecidableEq, Repr

/-! ### Module and power input (18_module_electrical.md) -/

/-- Why the module is latched off (R501). -/
inductive Latch where
  | none | thermal | breaker | rail
  deriving DecidableEq, Repr

/-- The module's power, clock and sideband state. Bank capacitance in µF, bank voltage in mV. -/
structure Module where
  standby : Bool := true
  primroseReady : Bool := true
  strapPins : Nat := 0
  straps : Nat := 0
  inputValid : Bool := true
  rails : Bool := true
  railFailed : Option Nat := none
  tripped : Bool := false
  latch : Latch := .none
  perstN : Bool := false
  refclk : Bool := true
  flushing : Bool := false
  holdupAtLoss : Bool := false
  capUF : Nat := 4000
  bankMV : Nat := 0
  holdupReady : Bool := false
  lastMeasure : Nat := 0
  eidSmbus : Nat := 0
  eidI3c : Nat := 0
  i3cAddr : Option Nat := none
  farVariant4 : Bool := false
  deriving DecidableEq, Repr

/-! ### Collections and their commands (04, 10, 15) -/

/-- A checkpoint of a collection's chain (R437): epoch, the JSEQ at which it was taken, and G. -/
structure Check where
  epoch : Nat
  jseq : Nat
  g : List Byte
  deriving DecidableEq, Repr

/-- Saturation and drift of a collection (R200, R201, R294): counts, flags, BASE_PPM and DRIFT_MEAN (FP32). -/
structure Drift where
  elems : Nat := 0
  hits : Nat := 0
  flag : Bool := false
  frozen : Bool := false
  basePpm : Nat := 0
  mean : Nat := 0
  deriving DecidableEq, Repr

/-- A collection: Table 4.7's fields that are not computed, its content as queries bind it (`data`) and as written in
memory (`phys`, R289), HOST_SEQ of its last applied record, chain G, checkpoints and drift. `nextFresh` is the first
logical fresh index not yet used (R290), and `probes` counts a list's probes since the last COMPACT (R154). -/
structure Coll where
  state : CollState := .free
  owner : Nat := 0
  busyOp : Nat := 0
  recovering : Bool := false
  data : CollData := {}
  phys : CollData := {}
  nextFresh : Nat := 0
  applied : Nat := 0
  hseq : Nat := 0
  g : List Byte := []
  checks : List Check := []
  drift : Drift := {}
  probes : List (Nat × Nat) := []
  deriving DecidableEq, Repr

/-- A mutation in flight: since when it is held or waits, its records once read, whether its lock request waits, whether
it holds its locks with its checks passed, the first of its JSEQs, and the status a teardown or partition reset gives it
(R273 to R277). -/
structure MutWork where
  since : Nat := 0
  bytes : List Byte := []
  waiting : Bool := false
  locked : Bool := false
  first : Option Nat := none
  abort : Option Nat := none
  deriving DecidableEq, Repr

/-! ### Journal store (10, 15) -/

/-- Where a frame is (R279 to R282). -/
inductive Place where
  | assigned | staging | buffer | nand
  deriving DecidableEq, Repr

/-- A frame: one descriptor's records with its JSEQs and HOST_SEQ, or a RESTORE marker, and the chain value G after it
once it is applied. -/
structure Frame where
  coll : Nat
  op : Nat
  first : Nat
  count : Nat
  hseq : Nat
  bytes : List Byte := []
  place : Place := .assigned
  persisted : Bool := false
  applied : Nat := 0
  chain : List Byte := []
  deriving DecidableEq, Repr

/-- One entry of the range-lock table (R285): ID or LIST kind, range, mode and holder. -/
structure Lock where
  coll : Nat
  list : Bool
  lo : Nat
  hi : Nat
  excl : Bool
  cmd : Nat
  deriving DecidableEq, Repr

/-- A part of an image in the journal store: one list's image, or the rest (`list` none), the image that wrote it, and its
bytes. Images share the list images that a rewrite did not touch (R299). -/
structure ImgPart where
  list : Option Nat
  img : Nat
  bytes : Nat
  deriving DecidableEq, Repr

/-- A collection's current image (R299): its epoch, mark, the content it stands for, and the JSEQ above which frames
are replayed on it (the mark, or the marker of a RESTORE), and the digest events absorbed since, each with the JSEQ it
follows. `wins` lists the replay windows (lo, hi] of a RESTORE that its catalog entry names (R306), `parts` what it holds
in the store, and `pub` the digest event of a COMPACT or TRAIN whose image is committed and whose epoch is not yet
published (R293, R301). -/
structure Image where
  epoch : Nat := 0
  mark : Nat := 0
  markHseq : Nat := 0
  after : Nat := 0
  owner : Nat := 0
  data : CollData := {}
  nextFresh : Nat := 0
  hseq : Nat := 0
  g : List Byte := []
  checks : List Check := []
  drift : Drift := {}
  events : List (Nat × List Byte) := []
  wins : List (Nat × Nat) := []
  parts : List ImgPart := []
  pub : Option (List Byte) := none
  deriving DecidableEq, Repr

/-- The work of a command that runs in several steps: the state bound (R293, R303), the content made, its mark (`dmark`
as the digest absorbs it), how many digest events of the image precede it, HOST_SEQ, chain and checkpoints, the state a RESTORE started from, fresh entries that move or
drop, a raise to X that waits, the snapshot read and whether it is to be deleted, the digest of a sample, UNITS_TOTAL,
whether its image is committed (R293 step 4), and the image a SNAPSHOT pins from its binding point on. -/
structure Job where
  bound : Option CollData := none
  result : Option CollData := none
  mark : Nat := 0
  dmark : Nat := 0
  events : Nat := 0
  nextFresh : Nat := 0
  hseq : Nat := 0
  g : List Byte := []
  checks : List Check := []
  drift : Drift := {}
  start : CollState := .free
  moved : List Nat := []
  raise : Bool := false
  snap : Nat := 0
  gone : Bool := false
  sample : List Byte := []
  total : Nat := 0
  committed : Bool := false
  img : Option Image := none
  deriving DecidableEq, Repr

/-- A decoder sequence (R324, R330, R337): its slot, context and SEQ, its state as the name the model's function gives it,
tokens held and generated, MAX_NEW, the seed pair, its last token, its pages, and STATE_BYTES of its model. -/
structure Seq where
  slot : Nat
  ctx : Nat
  seq : Nat
  state : Nat
  pos : Nat
  gen : Nat
  maxNew : Nat
  seed : Nat
  stream : Nat := 0
  last : Nat
  pages : Nat
  per : Nat
  deriving DecidableEq, Repr

/-- A snapshot (R303 to R305, R337): of a collection (`image`, whose content is the state at J_S) or of session state
(`seqs`, each with the MODEL_ID of its slot). -/
structure Snapshot where
  part : Nat := 0
  session : Bool := false
  object : Nat := 0
  label : Nat := 0
  epoch : Nat := 0
  image : Image := {}
  seqs : List (Nat × Seq) := []
  deriving DecidableEq, Repr

/-- SANITISE or FORMAT (R308 to R311): OP of Table 10.17, target, units, whether it runs and whether it is resumed,
and the command that runs it. -/
structure Maint where
  op : Nat := 0
  target : Nat := 0
  total : Nat := 0
  done : Nat := 0
  active : Bool := false
  resumed : Bool := false
  cmd : Option Nat := none
  deriving DecidableEq, Repr

/-- The transfer engine (R441 to R444): its registers, the image written or read, a pending ABORT, and what it took at
GO: the buffer, the half's bytes, the owner of an import, and the last JSEQ an export waits for. -/
structure Xfer where
  ctl : Word32 := 0
  addr : Word64 := 0
  start : Word64 := 0
  stop : Word64 := 0
  host : Nat := 0
  dev : Nat := 0
  total : Nat := 0
  err : Nat := 0
  state : Nat := 0
  op : Nat := 0
  image : List Byte := []
  abort : Bool := false
  base : Nat := 0
  half : Nat := 524288
  owner : Nat := 0
  last : Nat := 0
  deriving DecidableEq, Repr

/-- The journal store. `flushTo` is the last JSEQ that the drain of R283 covers, `nextImg` numbers images, and `kept` lists
parts of replaced images that RETAIN holds (R445). -/
structure Jrn where
  h : Nat := 0
  next : Nat := 1
  readOnly : Bool := false
  ready : Bool := false
  lp : Nat := 0
  lastUse : Nat := 0
  ctl : Word32 := 100
  frames : List Frame := []
  locks : List Lock := []
  peak : Nat := 0
  images : List (Nat × Image) := []
  snaps : List (Nat × Snapshot) := []
  recov : List Nat := []
  maint : Maint := {}
  collSel : Nat := 0
  snapSel : Nat := 0
  twin : Word32 := 0
  latched : List Byte := []
  xfer : Xfer := {}
  flush : Bool := false
  flushTo : Nat := 0
  programmed : Nat := 0
  nextImg : Nat := 1
  kept : List ImgPart := []
  deriving DecidableEq, Repr

/-! ### Memory system (13_memory_system.md) -/

/-- A stream of a tile program (R387 to R391): its descriptor, who issued it, whether it reserves a buffer of another tile
group (R360), is admitted, marked or halted, the first tag whose request is not issued, its tags landed beyond the frontier, the
frontier as a number of elements, the time of its last progress, and since when a regulator holds its next request. -/
structure Stream where
  id : Nat
  ctx : Nat := 0
  cmd : Nat := 0
  tile : Nat := 0
  desc : Desc := 0
  reserve : Bool := false
  admitted : Bool := false
  marked : Bool := false
  halted : Bool := false
  next : Nat := 0
  landed : List Nat := []
  frontier : Nat := 0
  since : Nat := 0
  bwWait : Option Nat := none
  deriving DecidableEq, Repr

/-- A stack (0 to 11) or far-tier channel (12 to 19): active, mapped-out and replaced channels as bit masks, out-of-service flag
and cause, usable units, repair counts, spare rows left by channel, correctable errors (in all, and by channel with the
start of the hour), rows with an error in this scrub period, rows repaired at level 1, failed replays, and a retrain or
an evacuation under way. -/
structure MemUnit where
  active : Nat := 0xFFFF
  out : Nat := 0
  failed : Nat := 0
  oos : Bool := false
  units : Nat := 192
  l1 : Nat := 0
  l2 : Nat := 0
  retired : Nat := 0
  l2Left : List (Nat × Nat) := []
  ce : Nat := 0
  hour : List (Nat × Nat) := []
  hourFrom : Nat := 0
  rows : List Nat := []
  rowsFrom : Nat := 0
  fixed : List Nat := []
  replays : Nat := 0
  retrain : Bool := false
  evac : Option (Nat × Nat) := none
  retest : Nat := 0
  deriving DecidableEq, Repr

/-- An ERR register pair (R403). -/
structure ErrReg where
  addr : Nat := 0
  valid : Bool := false
  overflow : Bool := false
  type : Nat := 0
  unit : Nat := 0
  channel : Nat := 0
  deriving DecidableEq, Repr

/-- A missing 2 MiB block (R396): whether it has a rebuild source, needs a free block, or is being rebuilt, and
the lines the host has written. -/
structure Missing where
  block : Nat
  source : Bool
  room : Bool
  running : Bool := false
  written : List Nat := []
  deriving DecidableEq, Repr

/-- The memory system. `dev` is the content of device memory outside device structures, `wcb` the write-combining
entries (line, byte mask) oldest first, `bad` the uncorrectable lines, `told` those recorded since the last COLD or
WARM (R398), `pages` the retired pages, `taken` the block that backs each block rebuilt elsewhere (R396), `marginOn` the targets of the margin tests under way
(R400). Pairs are (STK, FAR). -/
structure Mem where
  units : List (Nat × MemUnit) := []
  errs : List ErrReg := [{}, {}]
  scrub : List Word32 := [0x80000018, 0x80000018]
  margin : List Word32 := [0, 0]
  marginOn : List (Option Nat) := [none, none]
  marginRes : List (Nat × Nat) := [(0, 0), (0, 0)]
  farHost : Nat := 0
  farRefused : Bool := false
  randLines : Nat := 0
  wcb : List (Nat × Nat) := []
  streams : List Stream := []
  dev : List Host.Cell := []
  bad : List Nat := []
  told : List Nat := []
  pages : List Nat := []
  missing : List Missing := []
  taken : List (Nat × Nat) := []
  initing : Bool := false
  deriving DecidableEq, Repr

/-! ### Resident models (11_resident_models.md) -/

/-- Table 11.1. -/
inductive SlotState where
  | free | loading | ready
  deriving DecidableEq, Repr

/-- A tensor as loaded: its directory entry, its bytes with its scale table, its scale state (R246), and its shadow: mantissas,
exponents, and the CRC-32C of each 4 KiB (R245; log entry 135). -/
structure Tensor where
  entry : List Byte
  bytes : Nat
  fallback : Bool := false
  shadow : List Byte := []
  deriving DecidableEq, Repr

/-- A model slot: state, owner, image with its header, MODEL_ID, tensors, tier, whether it runs in place, and its blocks. -/
structure Slot where
  state : SlotState := .free
  owner : Nat := 0
  hdr : List Byte := []
  image : List Byte := []
  modelId : Nat := 0
  tensors : List Tensor := []
  far : Bool := false
  inPlace : Bool := false
  runs : List Extent := []
  deriving DecidableEq, Repr

/-- A working copy in a partition's model area, with the stamp of its last step (R323). -/
structure WorkCopy where
  slot : Nat
  part : Nat
  stepped : Nat
  deriving DecidableEq, Repr

/-- Model slots, decoder sequences, working copies, and the model active on each tile group (key 64 × partition +
group). -/
structure Models where
  slots : List (Nat × Slot) := []
  seqs : List Seq := []
  copies : List WorkCopy := []
  active : List (Nat × Nat) := []
  deriving DecidableEq, Repr

/-! ### Security and management (17_security_management.md) -/

/-- One bank of a firmware component (R479, R480): whether its payload, key and signature verify, SVN, COMMIT_SVN, root
slot and the SHA3-384 of its image as a number. -/
structure Bank where
  sound : Bool := true
  svn : Nat := 0
  commit : Bool := false
  root : Nat := 0
  image : Nat := 0
  deriving DecidableEq, Repr

/-- One firmware component: banks A and B, the active and the running bank (true for B), fallback, minimum SVN, whether
the inactive bank is staged, and whether activation is requested. -/
structure Comp where
  a : Bank := {}
  b : Bank := {}
  activeB : Bool := false
  runB : Bool := false
  failed : Bool := false
  fallback : Bool := false
  minSvn : Nat := 0
  staged : Bool := false
  activate : Bool := false
  deriving DecidableEq, Repr

/-- What Primrose answered last over a management transport. Values that standards or keys fix are not bytes here. -/
inductive Reply where
  /-- SPDM VERSION: the versions as major × 16 + minor. -/
  | version (vs : List Nat)
  /-- SPDM CAPABILITIES of slot 0, sessions and measurements. -/
  | capabilities
  /-- SPDM ALGORITHMS of Table 17.2. -/
  | algorithms
  /-- SPDM DIGESTS: the chain of the alias key of this generation. -/
  | digests (generation : Nat)
  /-- SPDM CERTIFICATE: the chain of slot 0, of this generation. -/
  | certificate (generation : Nat)
  /-- CHALLENGE_AUTH signed with this generation and AAK index. -/
  | challengeAuth (generation index : Nat)
  /-- MEASUREMENTS: the blocks asked for, and the AAK generation and index when signed. -/
  | measurements (blocks : List (Nat × List Byte)) (signed : Option (Nat × Nat))
  /-- MEASUREMENTS: how many blocks there are, and the AAK generation and index when signed. -/
  | measurementCount (n : Nat) (signed : Option (Nat × Nat))
  /-- KEY_EXCHANGE_RSP for a session, signed. -/
  | keyExchange (session generation index : Nat)
  | finish (session : Nat)
  | keyUpdate (session : Nat)
  | heartbeat (session : Nat)
  | endSession (session : Nat)
  /-- SPDM ERROR with its code. -/
  | error (code : Nat)
  /-- PLDM completion code. -/
  | pldm (code : Nat)
  /-- PLDM sensor reading. -/
  | sensor (value : Int)
  /-- PLDM FRU data: part WSM-16A, stepping, far-tier variant, serial number, lifetime records. -/
  | fru (stepping variant serial : Nat) (life : List Nat)
  deriving DecidableEq, Repr

/-- An SPDM session: transport, whether FINISH has established it, and how often its keys were updated. -/
structure Session where
  id : Nat
  transport : Nat
  up : Bool
  updates : Nat := 0
  deriving DecidableEq, Repr

/-- A signed request that waits for the new alias key (R476). -/
inductive Asked where
  | challenge
  | measurements (which : Nat)
  | keyExchange
  deriving DecidableEq, Repr

/-- A request of the device to the host that an IDE failure holds (R487): a write, or a message. -/
inductive HeldReq where
  | write (addr : Nat) (bytes : List Byte)
  | msg (vector : Nat)
  deriving DecidableEq, Repr

/-- Security and management state. `conns` holds each transport's SPDM progress (0 none, 1 version, 2 capabilities, 3
algorithms), over DOE, SMBus and I3C; `delayed` the requests answered with ResponseNotReady, by transport; `ide` is
SEC_IDE_STATUS and `ideSet` the key set that each stream uses (R486); `platform` the SEC_STATUS values sent as
PlatformEventMessages; `held` what a failed IDE stream holds back. The module leaves manufacture with its first alias key. -/
structure Sec where
  comps : List Comp := List.replicate 4 {}
  revoked : Nat := 0
  dikNext : Nat := 1
  aakNext : Nat := 0
  aakGen : Nat := 1
  aakBusy : Bool := false
  tokens : Nat := 1024
  tokenSec : Nat := 0
  fwuAddr : Word64 := 0
  fwuLen : Word32 := 0
  fwuState : Nat := 0
  fwuErr : Nat := 0
  fwuMib : Nat := 0
  fwuBase : Nat := 0
  fwuTotal : Nat := 0
  fwuOob : Bool := false
  conns : List Nat := [0, 0, 0]
  sessions : List Session := []
  nextSession : Nat := 1
  delayed : List (Nat × Asked) := []
  reply : Option Reply := none
  ide : Word32 := 0
  ideSet : List Nat := [0, 0, 0]
  ideHold : Bool := false
  held : List HeldReq := []
  platform : List Nat := []
  deriving DecidableEq, Repr

/-! ### Commands in flight -/

/-- A fetched command (R91, R100, R102, R366): its fetch number (the total order of R105), ring, context and
partition, descriptor, fetch stamp, QM_RING_QOS at fetch, placement epoch and
whether it has resumed on the current table, progress, SPEC values as they stand, delay by
invocation or pass and cause in 1/256 ns (R421), deferred-join wait, since when its invocations and passes wait for
regulator tokens (R352), the parameter block read at validation (R91), since when its range-lock request waits and whether it
waits for table entries (R286, R287), and the work of its class. -/
structure Cmd where
  seq : Nat
  ring : Nat
  ctx : Nat
  part : Nat
  desc : Desc
  stamp : Nat
  qos : Word32
  pEpoch : Nat
  resumed : Bool := false
  run : Run := .waiting
  spec0 : Nat := 0
  spec1 : Nat := 0
  delays : List (Nat × Nat) := []
  bwWaits : List (Nat × Nat) := []
  deferWait : Nat := 0
  heldFor : Nat := 0
  fallback : Bool := false
  query : Option QueryWork := none
  muta : Option MutWork := none
  block : List Byte := []
  lockFrom : Option Nat := none
  lockShort : Bool := false
  job : Option Job := none
  deriving DecidableEq, Repr

/-- A completed command whose record the host has not released (R102, R467). -/
structure Done where
  ring : Nat
  tag : Nat
  index : Nat
  seq : Nat
  spec0 : Nat
  spec1 : Nat
  deriving DecidableEq, Repr

/-- The queue manager: the window, the ring pairs, barrier instances (key 256 × partition + BARRIER_ID), commands in
fetch order and completed ones not released. -/
structure Qm where
  ringSel : Nat := 0
  rings : List (Nat × Ring) := []
  barriers : List (Nat × Barrier) := []
  cmds : List Cmd := []
  done : List Done := []
  nextSeq : Nat := 0
  deriving DecidableEq, Repr

/-- FMT registers (Tables 8.13 to 8.16). -/
structure FmtRegs where
  ctl : Word32 := 1
  fbLast : Word32 := 0
  sat : Nat := 0
  nan : Nat := 0
  deriving DecidableEq, Repr

/-- The machine. `hostMem` is the host's memory as the device reads and writes it; `hostBad` lists host ranges (base,
length) whose accesses fail; `freeCtr` is the model's own counter for free values (log entry 2); `pending` is the queue of commands. -/
structure State where
  module : Module := {}
  hif : Hif := {}
  qm : Qm := {}
  sch : Sch := {}
  pwr : Pwr := {}
  thm : Thm := {}
  mgt : Mgt := {}
  tst : Tst := {}
  scan : Scan := {}
  colls : List (Nat × Coll) := []
  jrn : Jrn := {}
  mem : Mem := {}
  models : Models := {}
  tiles : List (Nat × Tile) := []
  sec : Sec := {}
  fmt : FmtRegs := {}
  hostMem : List Host.Cell := []
  hostBad : List (Nat × Nat) := []
  freeCtr : Nat := 0
  pending : List Sys2Proof.Instr := []
  deriving DecidableEq, Repr

/-- The machine right after reset: the COLD level has just been applied and is in progress (R11, R72). -/
def State.reset : State := {}

end Sys2Proof.Machine
end

