-- ==== Sys2Proof/Machine/Operands.lean ====
section
/-!
DEFINITION. Operand forms: the fields of a descriptor (R90, R93, R96), the opcodes and their classes (Table 3.16), the
status codes (Table 3.23), the sizes the tables fix and the fields of a search (Table 3.17).
-/

namespace Sys2Proof.Machine

/-! ### Descriptor fields -/

/-- n bits at bit lo of the descriptor field at byte offset o. -/
def dfld (d : Desc) (o lo n : Nat) : Nat := fld d (8 * o + lo) n

/-- Header fields (Table 3.15). -/
def dOpcode (d : Desc) : Nat := dfld d 0 0 8
def dIrq (d : Desc) : Bool := dfld d 1 0 1 == 1
def dDevAddr (d : Desc) : Bool := dfld d 1 1 1 == 1
def dDedup (d : Desc) : Nat := dfld d 1 2 2
def dTag (d : Desc) : Nat := dfld d 2 0 16
def dObject (d : Desc) : Nat := dfld d 4 0 16
def dSubop (d : Desc) : Nat := dfld d 6 0 16

/-- A descriptor from its 64 bytes. -/
def descOfBytes (bs : List Byte) : Desc := BitVec.ofNat 512 (bytesNat bs)

/-! ### Opcodes (Table 3.16) -/

def opSearch : Nat := 0x01
def opSearchBatch : Nat := 0x02
def opInsert : Nat := 0x10
def opDelete : Nat := 0x11
def opUpsert : Nat := 0x12
def opAttrSet : Nat := 0x13
def opFilter : Nat := 0x14
def opTrain : Nat := 0x20
def opBuild : Nat := 0x21
def opCompact : Nat := 0x22
def opSnapshot : Nat := 0x23
def opRestore : Nat := 0x24
def opModelLoad : Nat := 0x30
def opModelStep : Nat := 0x31
def opAtomic : Nat := 0x40
def opFence : Nat := 0x41
def opBarrier : Nat := 0x42
def opDigest : Nat := 0x50
def opProgress : Nat := 0x51
def opSanitise : Nat := 0x60
def opFormat : Nat := 0x61
def opPause : Nat := 0x70
def opResume : Nat := 0x71

/-- The opcodes that exist. -/
def opcodes : List Nat :=
  [1, 2, 0x10, 0x11, 0x12, 0x13, 0x14, 0x20, 0x21, 0x22, 0x23, 0x24, 0x30, 0x31, 0x40, 0x41, 0x42, 0x50, 0x51, 0x60,
   0x61, 0x70, 0x71]

/-- SEARCH or SEARCH_BATCH. -/
def isSearch (op : Nat) : Bool := op == 1 || op == 2

/-- INSERT, DELETE, UPSERT, ATTR_SET. -/
def isMutation (op : Nat) : Bool := decide (0x10 ≤ op ∧ op ≤ 0x13)

/-- RESTORE, SANITISE, FORMAT. -/
def isAdmin (op : Nat) : Bool := op == 0x24 || op == 0x60 || op == 0x61

/-- PAUSE, RESUME. -/
def isControl (op : Nat) : Bool := op == 0x70 || op == 0x71

/-- Query-class and model-class opcodes (R107). -/
def readsMutations (op : Nat) : Bool := isSearch op || op == 0x50 || op == 0x51 || op == 0x31

/-! ### Status codes (Table 3.23) -/

def stOk : Nat := 0x0000
def stOkPartial : Nat := 0x0001
def stOkAbsent : Nat := 0x0002
def stOkDeferred : Nat := 0x0003
def stBadOpcode : Nat := 0x0100
def stBadDesc : Nat := 0x0101
def stNotPermitted : Nat := 0x0102
def stNoObject : Nat := 0x0103
def stBadParam : Nat := 0x0104
def stTooLarge : Nat := 0x0105
def stBadAddress : Nat := 0x0106
def stBadBuffer : Nat := 0x0107
def stNoSpace : Nat := 0x0200
def stBusy : Nat := 0x0201
def stBadContent : Nat := 0x0202
def stBarrierTimeout : Nat := 0x0300
def stBarrierMismatch : Nat := 0x0301
def stUncorrectable : Nat := 0x0400
def stHostMemFault : Nat := 0x0401
def stUnitFault : Nat := 0x0402
def stTransferFault : Nat := 0x0403
def stAbortDisable : Nat := 0x0500
def stAbortTeardown : Nat := 0x0501
def stAbortReset : Nat := 0x0502
def stJrnFail : Nat := 0x0600
def stInternal : Nat := 0x0F00

/-- The status class reports progress (R102, R113). -/
def progressClass (st : Nat) : Bool :=
  let c := st / 256
  c == 4 || c == 5 || c == 6 || c == 0x0F

/-! ### Register fields read everywhere -/

/-- QM_RING_CFG fields. -/
def cfgSqLog (c : Word32) : Nat := fld c 0 5
def cfgCqLog (c : Word32) : Nat := fld c 8 5
def cfgContext (c : Word32) : Nat := fld c 16 12
def cfgAdmin (c : Word32) : Bool := flag c 28

/-- Ring sizes (R76). -/
def Ring.sqSize (r : Ring) : Nat := 2 ^ cfgSqLog r.cfg
def Ring.cqSize (r : Ring) : Nat := 2 ^ cfgCqLog r.cfg

/-- QM_RING_QOS fields. -/
def qosBound (q : Word32) : Nat := fld q 0 16
def qosPartial (q : Word32) : Bool := flag q 16
def qosDedup (q : Word32) : Nat := fld q 17 2

/-- 2 MiB blocks per stack and the first far-tier block (R139; 48 GiB per stack). -/
def blocksPerStack : Nat := 24576
def farFirstBlock : Nat := 12 * blocksPerStack
def blockBytes : Nat := 2097152
def stackBytes : Nat := blocksPerStack * blockBytes
def farBase : Nat := 12 * stackBytes

/-! ### Descriptor fields of a search (Table 3.17) -/

def sBatch (c : Cmd) : Bool := dOpcode c.desc == opSearchBatch
def sCount (c : Cmd) : Nat := if sBatch c then dSubop c.desc % 4096 + 1 else 1
def sQueryAddr (c : Cmd) : Nat := dfld c.desc 0x08 0 64
def sResultAddr (c : Cmd) : Nat := dfld c.desc 0x10 0 64
def sResultSize (c : Cmd) : Nat := dfld c.desc 0x18 0 32
def sK (c : Cmd) : Nat := dfld c.desc 0x1C 0 16
def sNprobe (c : Cmd) : Nat := dfld c.desc 0x1E 0 16
def sRefineN (c : Cmd) : Nat := dfld c.desc 0x20 0 16
def sRefineFmt (c : Cmd) : Nat := dfld c.desc 0x22 0 4
def sEncode (c : Cmd) : Bool := dfld c.desc 0x22 4 1 == 1
def sRerank (c : Cmd) : Bool := dfld c.desc 0x22 5 1 == 1
def sRewrite (c : Cmd) : Bool := dfld c.desc 0x22 6 1 == 1
def sFilter (c : Cmd) : Nat := dfld c.desc 0x24 0 16
def sEncModel (c : Cmd) : Nat := dfld c.desc 0x26 0 16
def sRerankModel (c : Cmd) : Nat := dfld c.desc 0x28 0 16
def sRewriteModel (c : Cmd) : Nat := dfld c.desc 0x2A 0 16
def sQueryLen (c : Cmd) : Nat := dfld c.desc 0x2C 0 16
def sStride (c : Cmd) : Nat := dfld c.desc 0x2E 0 16
def sArg (c : Cmd) : Nat := dfld c.desc 0x30 0 64
def sSeed (c : Cmd) : Nat := dfld c.desc 0x38 0 32

end Sys2Proof.Machine
end

