-- ==== Sys2Proof/Machine/Tables.lean ====
section
/-!
DEFINITION. The outcome of a command, and the entries of the state's tables: rings, partitions, contexts, collections,
tiles and commands in flight.
-/

namespace Sys2Proof.Machine

/-- What exec and step answer. -/
abbrev Outcome := Host.Outcome State Fault Refusal

/-! ### Entries of tables -/

def State.ring (s : State) (p : Nat) : Ring := tget {} s.qm.rings p
def State.part (s : State) (p : Nat) : Partition := tget {} s.sch.parts p
def State.ctx (s : State) (c : Nat) : Context := tget {} s.sch.ctxs c
def State.coll (s : State) (c : Nat) : Coll := tget {} s.colls c
def State.tile (s : State) (t : Nat) : Tile := tget {} s.tiles t

/-- Change one ring pair. -/
def State.modRing (s : State) (p : Nat) (f : Ring → Ring) : State :=
  { s with qm := { s.qm with rings := tmod {} s.qm.rings p f } }

/-- Change one partition. -/
def State.modPart (s : State) (p : Nat) (f : Partition → Partition) : State :=
  { s with sch := { s.sch with parts := tmod {} s.sch.parts p f } }

/-- Change one context. -/
def State.modCtx (s : State) (c : Nat) (f : Context → Context) : State :=
  { s with sch := { s.sch with ctxs := tmod {} s.sch.ctxs c f } }

/-- Change one collection. -/
def State.modColl (s : State) (c : Nat) (f : Coll → Coll) : State := { s with colls := tmod {} s.colls c f }

/-- Change one tile. -/
def State.modTile (s : State) (t : Nat) (f : Tile → Tile) : State := { s with tiles := tmod {} s.tiles t f }

/-- Change the commands in flight. -/
def State.mapCmds (s : State) (f : Cmd → Cmd) : State := { s with qm := { s.qm with cmds := s.qm.cmds.map f } }

/-- Change one command in flight. -/
def State.modCmd (s : State) (n : Nat) (f : Cmd → Cmd) : State := s.mapCmds (fun c => if c.seq = n then f c else c)

/-- The command in flight with a fetch number. -/
def State.cmd? (s : State) (n : Nat) : Option Cmd := s.qm.cmds.find? (fun c => c.seq == n)

/-- Fetch order: the order of fetch stamps; equal stamps by partition, then by ring (R105, R349). -/
def Cmd.before (a b : Cmd) : Bool :=
  if a.stamp = b.stamp then
    decide (a.part < b.part ∨ (a.part = b.part ∧ (a.ring < b.ring ∨ (a.ring = b.ring ∧ a.seq < b.seq))))
  else decide (a.seq < b.seq)

/-- Take the next free value (log entry 2). -/
def State.free (s : State) : Nat × State := (Config.freeValue s.freeCtr, { s with freeCtr := s.freeCtr + 1 })

/-- The 16 partition numbers. -/
def allParts : List Nat := List.range 16

/-- The ring pairs of a partition that are listed (R341). -/
def State.ringsOfPart (s : State) (p : Nat) : List Nat :=
  (s.qm.rings.map Prod.fst).filter (fun r => bitsOf (s.part p).res.toNat (32 + r / 256) 1 == 1)

/-- The physical tiles of a partition's placement. -/
def Partition.tiles (p : Partition) : List Nat := p.place.map Prod.fst

/-- The tiles of a group. -/
def groupTiles (es : List (Nat × Nat)) (g : Nat) : List Nat := (es.filter (fun e => e.2 == g)).map Prod.fst

/-- The tiles of an old placement epoch. -/
def OldEpoch.tiles (o : OldEpoch) : List Nat := o.place.map Prod.fst

/-- The partition a context belongs to. -/
def Context.part (k : Context) : Nat := fld k.cfg 16 4

/-- The rings bound to a context and not FREE. -/
def State.ringsOfCtx (s : State) (c : Nat) : List Nat :=
  (s.qm.rings.filter (fun r => decide (r.2.state ≠ .free) && cfgContext r.2.cfg == c)).map Prod.fst

/-- The contexts of a partition that are listed and not FREE. -/
def State.ctxsOfPart (s : State) (p : Nat) : List Nat :=
  (s.sch.ctxs.filter (fun c => decide (c.2.state ≠ .free) && fld c.2.cfg 16 4 == p)).map Prod.fst

/-- The slot of a model slot number. -/
def State.slot (s : State) (o : Nat) : Slot := tget {} s.models.slots o

end Sys2Proof.Machine
end

