-- ==== Sys2Proof/Machine/StreamDesc.lean ====
section
/-!
DEFINITION. Stream descriptors (Table 13.7), the tiles a command is placed on (R366), and the buffers of streams between
tile groups (R360).
-/

namespace Sys2Proof.Machine

/-! ### Placement -/

/-- Bytes of a tile's scratchpad. -/
def scratchBytes : Nat := 2097152

/-- A command's placement, by logical tile as (physical tile, group): the table of its epoch; once it has resumed on the current
table, its logical tiles mapped through that (R366). -/
def State.placeOf (s : State) (c : Cmd) : List (Nat × Nat) :=
  let q := s.part c.part
  if c.pEpoch = q.epoch then q.place
  else match q.old.find? (fun o => o.epoch == c.pEpoch) with
    | some o => if c.resumed then List.zipWith (fun now own => (now.1, own.2)) q.place o.place else o.place
    | none => []

/-- The physical tiles of a command's placement, in logical order. -/
def State.placement (s : State) (c : Cmd) : List Nat := (s.placeOf c).map Prod.fst

/-! ### Stream descriptors (Table 13.7) -/

def dSrcSpace (d : Desc) : Nat := dfld d 0x00 62 2
def dSrc (d : Desc) : Nat := dfld d 0x00 0 62
def dDstSpace (d : Desc) : Nat := dfld d 0x08 62 2
def dDst (d : Desc) : Nat := dfld d 0x08 0 62
def dElem (d : Desc) : Nat := dfld d 0x10 0 32
def dCount (d : Desc) (i : Nat) : Nat := dfld d (0x14 + 2 * i) 0 16
def dSrcStride (d : Desc) (i : Nat) : Int := if i = 0 then dElem d else sext 32 (dfld d (0x20 + 4 * (i - 1)) 0 32)
def dDstStride (d : Desc) (i : Nat) : Int := if i = 0 then dElem d else sext 32 (dfld d (0x2C + 4 * (i - 1)) 0 32)
def dGroup (d : Desc) : Nat := dfld d 0x38 8 6
def dMcast (d : Desc) : Bool := dfld d 0x38 3 1 == 1
def dClass (d : Desc) : Nat := dfld d 0x38 0 2

/-- Elements of a stream, and the index of element e in dimension i. -/
def dElems (d : Desc) : Nat := dCount d 0 * dCount d 1 * dCount d 2 * dCount d 3
def dIndex (d : Desc) (e i : Nat) : Nat :=
  match i with
  | 0 => e % dCount d 0
  | 1 => e / dCount d 0 % dCount d 1
  | 2 => e / (dCount d 0 * dCount d 1) % dCount d 2
  | _ => e / (dCount d 0 * dCount d 1 * dCount d 2)

/-- Offset of element e from a base under strides. -/
def dOffset (d : Desc) (stride : Nat → Int) (e : Nat) : Int :=
  (List.range 4).foldl (fun (acc : Int) i => acc + dIndex d e i * stride i) 0

/-- A scratchpad address: logical tile and offset. -/
def spTile (a : Nat) : Nat := bitsOf a 44 8
def spOff (a : Nat) : Nat := bitsOf a 0 21

/-- The least and greatest offset of an element from its base: counts are ranges, so they lie at corners. -/
def dCorner (d : Desc) (stride : Nat → Int) (hi : Bool) : Int :=
  (List.range 4).foldl (fun (acc : Int) i =>
    let x : Int := ((dCount d i - 1 : Nat) : Int) * stride i
    acc + (if hi then max 0 x else min 0 x)) 0

/-- Every element of one side lies in the scratchpad. -/
def sideOk (d : Desc) (a : Nat) (stride : Nat → Int) : Bool :=
  decide (a = spTile a * 2 ^ 44 + spOff a ∧ 0 ≤ (spOff a : Int) + dCorner d stride false ∧
    (spOff a : Int) + dCorner d stride true + dElem d ≤ scratchBytes)

/-- The context fault a descriptor makes, if any: a broken range, SPACE 3, or a scratchpad overrun (row 7), a destination
outside the command's placement (row 4). `n` is the number of its logical tiles, `groups` their groups. -/
def streamFault (d : Desc) (n : Nat) (groups : List Nat) : Option Nat :=
  if dSrcSpace d = 3 ∨ dDstSpace d = 3 ∨ dElem d < 32 ∨ 4096 < dElem d ∨ dElem d % 32 ≠ 0 ∨
     !(List.range 4).all (fun i => decide (0 < dCount d i)) ∨ dClass d = 3 ∨ (dMcast d ∧ dDstSpace d ≠ 2) then some 7
  else if (dSrcSpace d = 2 ∧ (n ≤ spTile (dSrc d) ∨ !sideOk d (dSrc d) (dSrcStride d))) ∨
          (dDstSpace d = 2 ∧ !sideOk d (dDst d) (dDstStride d)) then some 7
  else if dDstSpace d = 2 ∧ (if dMcast d then !groups.contains (dGroup d) else decide (n ≤ spTile (dDst d))) then some 4
  else none

/-- The physical tiles a stream delivers to. -/
def State.streamTiles (s : State) (c : Cmd) (d : Desc) : List Nat :=
  let ps := s.placement c
  if dDstSpace d ≠ 2 then []
  else if dMcast d then groupTiles (s.placeOf c) (dGroup d)
  else (ps[spTile (dDst d)]?).toList

/-- The stream runs between tile groups, and so reserves its destination buffer (R360). -/
def State.betweenGroups (s : State) (c : Cmd) (d : Desc) (tile : Nat) : Bool :=
  let g := fun (t : Nat) => ((s.placeOf c).find? (fun e => e.1 == t)).map Prod.snd
  let src := if dSrcSpace d = 2 then ((s.placement c)[spTile (dSrc d)]?).getD tile else tile
  dSrcSpace d == 2 && (s.streamTiles c d).any (fun t => g t != g src)

/-! ### Buffers (R360) -/

/-- The destination bytes of a stream in each of its tiles. -/
def dRange (d : Desc) : Int × Int :=
  ((spOff (dDst d) : Int) + dCorner d (dDstStride d) false, (spOff (dDst d) : Int) + dCorner d (dDstStride d) true + dElem d)

/-- Two streams' buffers overlap in some tile. -/
def State.buffersClash (s : State) (a b : Stream) : Bool :=
  match s.cmd? a.cmd, s.cmd? b.cmd with
  | some c, some e =>
    (s.streamTiles c a.desc).any (fun t => (s.streamTiles e b.desc).contains t) &&
    decide ((dRange a.desc).1 < (dRange b.desc).2 ∧ (dRange b.desc).1 < (dRange a.desc).2)
  | _, _ => false

end Sys2Proof.Machine
end

