-- ==== Sys2Proof/Machine/Ops.lean ====
section
/-!
DEFINITION. The named operations every family shares: host and device memory, MSI-X messages, event records, interface error
flags, completion of a command with its record, what its end lets happen, and which commands may run.
-/

namespace Sys2Proof.Machine

/-! ### Memory -/

/-- A host range can be accessed: inside 64-bit space and touching no failing range. -/
def State.hostOk (s : State) (a n : Nat) : Bool :=
  decide (a + n ≤ 2 ^ 64) && !s.hostBad.any (fun r => decide (a < r.1 + r.2 ∧ r.1 < a + n))

/-- n bytes of host memory. -/
def State.hostRead (s : State) (a n : Nat) : List Byte := memBytes s.hostMem a n

/-- A request of the device to the host waits while an IDE failure holds them (R487). -/
def State.hold (s : State) (r : HeldReq) : State := { s with sec := { s.sec with held := s.sec.held ++ [r] } }

/-- Write host memory, or hold the write (R487). -/
def State.hostWrite (s : State) (a : Nat) (bs : List Byte) : State :=
  if s.sec.ideHold then s.hold (.write a bs) else { s with hostMem := memWrite s.hostMem a bs }

/-- n bytes of host memory with the device's own held writes in place, oldest first (R487). -/
def State.hostSeen (s : State) (a n : Nat) : List Byte :=
  memBytes (s.sec.held.foldl (fun m r => match r with | .write b bs => memWrite m b bs | .msg _ => m) s.hostMem) a n

/-- Stores the host makes before the command that carries them (log entry 1). -/
def State.hostStores (s : State) (cs : List Host.Cell) : State := { s with hostMem := memCells s.hostMem cs }

/-! ### MSI-X, events and error flags -/

/-- Send or pend one message of a vector (R54, R55). -/
def State.msixSend (s : State) (v : Nat) : State :=
  let e : MsixEntry := tget {} s.hif.msix v
  if e.mask || s.hif.msixFuncMask then
    { s with hif := { s.hif with msix := tset s.hif.msix v { e with pend := true } } }
  else if s.sec.ideHold then s.hold (.msg v)
  else { s with hif := { s.hif with msgs := s.hif.msgs ++ [v] } }

/-- Records Primrose keeps. -/
def evtKeep : Nat := 65536

/-- Append a record to Primrose's store, which keeps the newest 65,536 (R452), and send its PlatformEventMessage (R489, log
entry 109). -/
def State.pushEvent (s : State) (e : Event) : State :=
  let es := s.mgt.events ++ [{ e with seq := s.mgt.nextEvt }]
  { s with mgt := { s.mgt with events := lastN evtKeep es, nextEvt := s.mgt.nextEvt + 1,
                               platform := s.mgt.platform ++ [{ e with seq := s.mgt.nextEvt }] } }

/-- Raise an event: one record, and vector 0 by severity (R451, R453). -/
def State.event (s : State) (code sev kind unit d0 d1 : Nat) : State :=
  let s := s.pushEvent { seq := 0, stamp := s.hif.timer, prSec := s.mgt.prSec, code := code, sev := sev, kind := kind,
                         unit := unit, d0 := d0 % 2 ^ 32, d1 := d1 % 2 ^ 64 }
  if decide (fld s.mgt.ctl 0 3 ≤ sev) && flag s.hif.control 2 then s.msixSend 0 else s

/-! ### SEC_STATUS (R478, R489, Table 17.8) -/

/-- Both keys are used up (R478). -/
def Sec.exhausted (x : Sec) : Bool := decide (65536 ≤ x.dikNext ∧ 1024 ≤ x.aakNext)

/-- Bits of a list of flags, the first lowest. -/
def maskOf (l : List Bool) : Nat := l.foldr (fun b n => bit b + 2 * n) 0

/-- SEC_STATUS. -/
def Sec.status (x : Sec) : Nat :=
  bit (decide (65536 - x.dikNext ≤ 655)) + 2 * bit x.exhausted + 4 * bit x.aakBusy + 8 * bit (x.comps.any Comp.staged) +
    16 * maskOf (x.comps.map Comp.fallback) + 256 * maskOf (x.comps.map Comp.runB)

/-- A PlatformEventMessage for a change of SEC_STATUS from what it was in x (R489, log entry 109). -/
def Sec.noted (x y : Sec) : Sec := { y with platform := y.platform ++ if y.status = x.status then [] else [y.status] }

/-- Set an HIF_ERR_STATUS bit; HIF_ERR_MASK suppresses its event (Tables 2.12, 2.13). -/
def State.hifErr (s : State) (b : Nat) : State :=
  let s := { s with hif := { s.hif with errStatus := s.hif.errStatus ||| BitVec.ofNat 32 (2 ^ b) } }
  if flag s.hif.errMask b then s else s.event 0x0003 0 0 0 b 0

/-! ### Which units a command uses, and phases (R412) -/

/-- KIND of a model image's header (Table 11.2). -/
def hdrKind (h : List Byte) : Nat := getLE h 0x06 1

/-- Every probe of a dispatched query has delivered or been withdrawn. -/
def QState.scanned (q : QState) : Bool :=
  (q.probes.getD []).all (fun b => decide (b.state = .delivered ∨ b.state = .withdrawn))

/-- Phases of a search (Table 14.2): stage 1 before dispatch where it encodes, SCAN while a query routes, scans or merges, and
the phases of stages 6 to 8 of each query that has only them left (log entry 142). -/
def searchPhases (c : Cmd) : List Nat :=
  let qs := (c.query.getD {}).qs
  let due := qs.filter (fun q => !q.written)
  let last := (if 0 < sRefineN c then [1] else []) ++ (if sRerank c then [2] else []) ++ (if sRewrite c then [3] else [])
  if qs.isEmpty || qs.any (fun q => q.probes.isNone) then (if sEncode c then [2] else [0])
  else (if due.any (fun q => !q.scanned) || last.isEmpty then [0] else []) ++ (if due.any QState.scanned then last else [])

/-- The phases of Table 14.2 that a command's work belongs to as it stands; synchronisation, control and progress queries run no
invocation, pass or transfer of one. BUILD trains before it holds its placed lists. -/
def State.cmdPhases (s : State) (c : Cmd) : List Nat :=
  let op := dOpcode c.desc
  if isSearch op then searchPhases c
  else if op = opModelStep then [if hdrKind (s.slot (dObject c.desc)).hdr = 3 then 3 else 2]
  else if op = opTrain then [5]
  else if op = opBuild then [if c.job.isNone then 5 else 4]
  else if op = opFence ∨ op = opBarrier ∨ op = opPause ∨ op = opResume ∨ op = opProgress then []
  else [4]

/-- The work of a started command goes on: neither its partition nor its context is paused (14_power_thermal.md, Interactions). -/
def State.works (s : State) (c : Cmd) : Bool :=
  let k := (s.ctx c.ctx).state
  decide (c.run ≠ .waiting ∧ (s.part c.part).state ≠ .paused ∧ (k = .active ∨ k = .pausing ∨ k = .borrowed))

/-- Active phases as 6p + φ, rising (R412): of commands whose work goes on, and COMPACTION of a partition that is not OFF and
owns a collection in recovery. -/
def State.activePhases (s : State) : List Nat :=
  let run := (s.qm.cmds.filter s.works).flatMap (fun c => (s.cmdPhases c).map (fun f => 6 * c.part + f))
  let recov := (s.colls.filter (fun k => k.2.recovering && decide ((s.part k.2.owner).state ≠ .off))).map (fun k => 6 * k.2.owner + 4)
  (List.range 96).filter (fun k => run.contains k || recov.contains k)

/-! ### Completion (R98 to R104, R113, R422) -/

/-- The invocations and passes that delay is kept for: the command as a whole, its invocation on tile t, its part of scan
pass n. -/
def wholeInv : Nat := 0
def tileInv (t : Nat) : Nat := t + 1
def passInv (n : Nat) : Nat := 1024 + n

/-- Late causes 1 to 8 as whole ns of delay: the largest that a cause added to one invocation or pass (R421). -/
def delayNs (c : Cmd) (k : Nat) : Nat := maxL ((c.delays.filter (fun d => d.1 % 16 == k)).map Prod.snd) / 256

/-- Add n/256 ns of delay for a cause to an invocation or pass. -/
def addDelay256 (inv k n : Nat) (c : Cmd) : Cmd := { c with delays := tmod 0 c.delays (16 * inv + k) (fun d => d + n) }

/-- Add n ns of delay for a cause to an invocation or pass. -/
def addDelayOn (inv k n : Nat) (c : Cmd) : Cmd := addDelay256 inv k (256 * n) c

/-- Add n ns of delay for a cause to the command as a whole. -/
def addDelay (k n : Nat) (c : Cmd) : Cmd := addDelayOn wholeInv k n c

/-- The delay of an invocation or pass for a cause is at least n ns: waits that overlap count once. -/
def atLeastDelayOn (inv k n : Nat) (c : Cmd) : Cmd := { c with delays := tmod 0 c.delays (16 * inv + k) (fun d => max d (256 * n)) }

/-- The delay of the command as a whole for a cause is at least n ns. -/
def atLeastDelay (k n : Nat) (c : Cmd) : Cmd := atLeastDelayOn wholeInv k n c

/-- (slowed, LATE_CAUSE) of a command (R101, R422). -/
def lateOf (late : Nat) (c : Cmd) : Bool × Nat :=
  let ds := (List.range 9).map (delayNs c)
  let big := maxL (ds.drop 1)
  let slowed := decide (late * 1000 ≤ big ∧ 0 < big)
  if !slowed then (false, 0)
  else if decide (big < c.deferWait) then (true, 0)
  else (true, ((List.range 9).find? (fun k => decide (1 ≤ k) && lget 0 ds k == big)).getD 0)

/-- The 32-byte record (Table 3.19). -/
def recordBytes (tag st sqHead flags stamp spec0 spec1 elapsed : Nat) : List Byte :=
  natBytes 2 tag ++ natBytes 2 st ++ natBytes 2 sqHead ++ natBytes 2 flags ++ natBytes 8 stamp ++ natBytes 8 spec0 ++
  natBytes 4 spec1 ++ natBytes 4 elapsed

/-- The 64-byte CQ line at `line` with the record at address a in its half, the other record as it stands (R98). -/
def State.recordLine (s : State) (a : Nat) (r : List Byte) : List Byte :=
  let line := a / 64 * 64
  if a % 64 = 0 then r ++ s.hostSeen (line + 32) 32 else s.hostSeen line 32 ++ r

/-- Flags word at 0x06. -/
def recordFlags (cause : Nat) (progress trunc result fallback late phase : Bool) : Nat :=
  cause * 256 + bit progress * 32 + bit trunc * 16 + bit result * 8 + bit fallback * 4 + bit late * 2 + bit phase

/-- A record write of ring p failed: R83. -/
def State.recordLost (s : State) (p : Nat) : State :=
  let r := s.ring p
  let s := if r.state = .active then s.modRing p (fun r => { r with state := .error, errCause := 3 })
           else if r.errCause = 0 then s.modRing p (fun r => { r with errCause := 3 }) else s
  s.event 0x0010 2 6 p 3 0

/-- Records written and not signalled reach the message condition of COAL_COUNT (R104). -/
def Ring.countDue (r : Ring) (n : Nat) : Bool :=
  decide (fld r.irq 0 11 ≠ 0 ∧ 0 < n ∧ max 1 (fld r.irq 12 8) ≤ n)

/-- The message that covers every record ring p has written: sent at once, or on the cache path after the newest record
that still waits for global observation (R42, R104). -/
def State.signalAll (s : State) (p : Nat) : State :=
  let r := s.ring p
  let s1 := s.modRing p (fun r => { r with unsig := 0 })
  match r.goWait.reverse with
  | [] => s1.msixSend (fld r.irq 0 11)
  | _ :: b => s1.modRing p (fun r => { r with goWait := (true :: b).reverse })

/-- A record of ring p goes over CXL.cache (R42). -/
def State.cachePath (s : State) : Bool := s.hif.link.cacheMem && flag s.hif.control 1

/-- Lines the device cache holds: 1 MiB of 64 bytes (Table 2.1). -/
def cacheLines : Nat := 16384

/-- The line of a record written with ItoMWr is held by the device cache, the line held longest going first (R39, R42; log
entry 125). -/
def State.cacheFill (s : State) (line : Nat) : State :=
  if s.cachePath then { s with hif := { s.hif with cache := lastN cacheLines (s.hif.cache.filter (· != line) ++ [line]) } } else s

/-- Account a written record for messages (R42, R104). -/
def State.signal (s : State) (p : Nat) (irq : Bool) : State :=
  let r := s.ring p
  let vec := fld r.irq 0 11
  let oldest := if r.unsig = 0 then s.hif.timer else r.oldest
  let due := (decide (vec ≠ 0) && irq) || r.countDue (r.unsig + 1)
  let s := s.modRing p (fun r => { r with unsig := if due then 0 else r.unsig + 1, oldest := oldest })
  if s.cachePath then s.modRing p (fun r => { r with goWait := r.goWait ++ [due] })
  else if due then s.msixSend vec else s

/-- A ring pair that has drained becomes FREE (Table 3.12). Its indices stay for QM_RING_HEADS to show: only CREATE
sets them to 0 (R84). -/
def State.ringSettle (s : State) (p : Nat) : State :=
  let r := s.ring p
  if r.state = .draining ∧ r.inflight = 0 then
    s.modRing p (fun r => { r with state := .free, cover := [] })
  else s

/-- Old placement epochs with no command left are released (R367). -/
def State.epochSettle (s : State) (p : Nat) : State :=
  s.modPart p (fun q => { q with old := q.old.filter (fun o => s.qm.cmds.any (fun c => c.part == p && c.pEpoch == o.epoch)) })

/-- Lines served on the far tier's random path (R379). -/
def State.randServed (s : State) (n : Nat) : State :=
  { s with mem := { s.mem with randLines := satN 64 (s.mem.randLines + n) } }

/-- e engine-ns charged to a context: V rises by e / SHARE, where a share of 0 acts as 1 (R348, R350). -/
def Context.charge (e : Nat) (k : Context) : Context :=
  { k with engine := (k.engine + e) % 2 ^ 64, v := k.v + (e : Rat) / (max 1 (fld k.cfg 0 16) : Nat) }

/-- Engine time that context x has used. A holder that runs BORROWED uses its waiter's (R350, R362). -/
def State.chargeEngine (s : State) (x e : Nat) : State :=
  match (s.ctx x).borrower with
  | some w => (s.modCtx x (fun k => { k with borrow := (k.borrow + e) % 2 ^ 64 })).modCtx w (Context.charge e)
  | none => s.modCtx x (Context.charge e)

/-- A tile whose invocation has ended: its accumulators are not preserved (R251). -/
def Tile.release (now : Nat) (t : Tile) : Tile := { t with running := none, workSince := now, x := {}, y := {} }

/-- The tiles that run command n are free again. -/
def State.freeTiles (s : State) (n : Nat) : State :=
  { s with tiles := tmap (fun _ (t : Tile) => if t.running = some n then t.release s.hif.timer else t) s.tiles }

/-! ### Leaving scan passes (R168, R191, R350) -/

/-- The busy time of a segment's engine so far, divided equally among the queries it serves, the remainder to the lowest slot
(R350). -/
def State.chargeSegment (s : State) (a : Pass) : State :=
  let on := a.served.filter (fun v => !v.left)
  let n := on.length
  on.zipIdx.foldl (fun s v =>
    match s.cmd? v.1.cmd with
    | some c => s.chargeEngine c.ctx (a.busy / n + (if v.2 = 0 then a.busy % n else 0))
    | none => s) s

/-- A pass has ended: its probes have delivered, and a query with no pass or probe left on the stack, nor a pass there that it
has left and that has not yet ended, frees its threshold table entry (R191). -/
def State.passEnd (s : State) (pass st : Nat) : State :=
  let end1 : Probe → Probe := fun b =>
    { b with state := if b.state = .running pass then .delivered else b.state, left := if b.left = some pass then none else b.left }
  let live := fun (q : QState) => (q.probes.getD []).any (fun b => b.onStack == st && (b.left.isSome || (match b.state with
    | .pending => true | .running _ => true | _ => false)))
  let q1 : QState → QState := fun q =>
    let q := { q with probes := q.probes.map (fun l => l.map end1) }
    if live q then q else { q with thetaSlots := q.thetaSlots.filter (· != st) }
  s.mapCmds (fun c => { c with query := c.query.map (fun w => { w with qs := w.qs.map q1 }) })

/-- The queries that `gone` picks leave their segments. Their engines' time so far is charged, a segment that serves no query
is abandoned, and a pass without segments has ended. -/
def State.leavePasses (s : State) (gone : Pass → Served → Bool) : State :=
  let out := fun (a : Pass) (v : Served) => !v.left && gone a v
  let hit := s.scan.passes.filter (fun a => a.served.any (out a))
  let s := hit.foldl State.chargeSegment s
  let rest : Pass → Pass := fun a =>
    if a.served.any (out a) then { a with busy := 0, served := a.served.map (fun v => { v with left := v.left || gone a v }) } else a
  let ps := (s.scan.passes.map rest).filter (fun a => a.served.any (fun v => !v.left))
  let s := { s with scan := { s.scan with passes := ps } }
  (hit.filter (fun a => !ps.any (fun y => y.pass == a.pass))).foldl (fun s a => s.passEnd a.pass a.stack) s

/-- A deletion of a snapshot that waits for the RESTORE that reads it takes effect at that command's end (R305). -/
def State.dropGone (s : State) (n : Nat) : State :=
  match (s.cmd? n).bind Cmd.job with
  | some j => if j.gone then { s with jrn := { s.jrn with snaps := tdel s.jrn.snaps j.snap } } else s
  | none => s

/-- A command that ends while its context holds it has been held since the PAUSE began: delay of cause 0x5 (R421). -/
def State.heldAtEnd (s : State) (c : Cmd) : Cmd :=
  let k := s.ctx c.ctx
  if !isControl (dOpcode c.desc) ∧ (k.state = .yielded ∨ k.state = .saved ∨ (k.state = .pausing ∧ (k.precise ∨ c.run = .waiting))) then
    addDelay 5 (s.hif.timer - k.pauseAt) c
  else c

/-- End a command with a status and write its record, as one write of its line (R98); no other command changes. -/
def State.finish (s : State) (c : Cmd) (st spec0 spec1 : Nat) (result trunc : Bool) : State :=
  let c := s.heldAtEnd c
  let s := s.freeTiles c.seq
  let s := s.dropGone c.seq
  let s := { s with mem := { s.mem with streams := s.mem.streams.filter (fun t => t.cmd != c.seq) } }
  let s := { s with qm := { s.qm with cmds := s.qm.cmds.filter (fun x => x.seq != c.seq) } }
  let s := s.modRing c.ring (fun r => { r with inflight := r.inflight - 1 })
  let s :=
    if s.hif.viral then s
    else
      let r := s.ring c.ring
      let a := (r.cqBase.toNat / 4096) * 4096 + 32 * r.cqTail
      let elapsed := satN 32 (s.hif.timer - c.stamp)
      let lc := lateOf (fld s.pwr.ctl 8 8) c
      let late := lc.1 || decide (1000 * qosBound c.qos < s.hif.timer - c.stamp)
      let fl := recordFlags lc.2 (progressClass st) trunc result c.fallback late r.phase
      if s.hostOk (a / 64 * 64) 64 then
        let line := recordBytes (dTag c.desc) st r.sqHead fl s.hif.timer spec0 spec1 elapsed
        let s := (s.hostWrite (a / 64 * 64) (s.recordLine a line)).cacheFill (a / 64 * 64)
        let dn : Done := { ring := c.ring, tag := dTag c.desc, index := r.cqTail, seq := c.seq, spec0 := spec0,
                           spec1 := spec1 }
        let s := { s with qm := { s.qm with done := s.qm.done ++ [dn] } }
        let wrap := decide (r.cqTail + 1 = r.cqSize)
        let s := s.modRing c.ring (fun r => { r with cqTail := if wrap then 0 else r.cqTail + 1, phase := xor r.phase wrap })
        s.signal c.ring (dIrq c.desc)
      else s.recordLost c.ring
  (s.ringSettle c.ring).epochSettle c.part

/-! ### Invocations and holdings (R350, R359 to R363) -/

/-- The partition's device context, in which the stage invocations of searches run: it is none of the 4096 (R350). -/
def devCtx (p : Nat) : Nat := 4096 + p

/-- The context that a command's invocations on tiles run in. -/
def Cmd.invCtx (c : Cmd) : Nat := if isSearch (dOpcode c.desc) then devCtx c.part else c.ctx

/-- Tiles that run an invocation of context x. -/
def State.ctxTiles (s : State) (x : Nat) : List Nat :=
  (s.tiles.filter (fun t => match t.2.running with
    | some n => s.qm.cmds.any (fun c => c.seq == n && c.invCtx == x)
    | none => false)).map Prod.fst

/-- The context lets a started command go on. -/
def ctxRuns (k : Context) : Bool := decide (k.state = .active ∨ (k.state = .pausing ∧ !k.precise) ∨ k.state = .borrowed)

/-- Semaphores of partition p that context x holds. -/
def State.heldSems (s : State) (p x : Nat) : List Nat :=
  ((s.part p).sems.filter (fun m => m.2.holds.any (fun h => h.1 == x && decide (0 < h.2)))).map Prod.fst

/-- Admitted streams (reservations) of context x. -/
def State.heldStreams (s : State) (x : Nat) : List Nat :=
  ((s.mem.streams.filter (fun t => t.ctx == x && t.reserve && t.admitted))).map Stream.id

/-- The context holds a semaphore or a reservation (R361). -/
def State.holds (s : State) (x : Nat) : Bool :=
  !(s.heldSems (s.ctx x).part x).isEmpty || !(s.heldStreams x).isEmpty

/-- Its holdings are marked held-by-saved. -/
def State.marked (s : State) (x : Nat) : Bool :=
  (s.part (s.ctx x).part).sems.any (fun m => m.2.marked.contains x) || s.mem.streams.any (fun t => t.ctx == x && t.marked)

/-- SCH_CTX_STATE.HELD: semaphores and reservations marked. -/
def State.heldCount (s : State) (x : Nat) : Nat :=
  ((s.part (s.ctx x).part).sems.filter (fun m => m.2.marked.contains x)).length +
  (s.mem.streams.filter (fun t => t.ctx == x && t.marked)).length

/-- Mark every semaphore and reservation context x still holds (R361): who waits there waits on a held-by-saved holding. -/
def State.markHeld (s : State) (x : Nat) : State :=
  let p := (s.ctx x).part
  let mark : Nat → Sem → Sem := fun _ m =>
    if m.holds.any (fun h => h.1 == x && decide (0 < h.2)) && !m.marked.contains x then
      { m with marked := m.marked ++ [x], waiters := m.waiters.map (fun (w : SemWaiter) => { w with heldFrom := some (w.heldFrom.getD s.hif.timer) }) }
    else m
  let s := s.modPart p (fun q => { q with sems := tmap mark q.sems })
  { s with mem := { s.mem with streams := s.mem.streams.map (fun t =>
      if t.ctx == x && t.reserve && t.admitted then { t with marked := true } else t) } }

/-- A precise save of context x waits while it holds something and its PAUSE's deferral has not expired: its tiles run on
(R361). -/
def State.deferring (s : State) (x : Nat) : Bool :=
  let k := s.ctx x
  decide (k.state = .pausing) && k.precise && s.holds x && !s.marked x

/-- The invocation of command c on tile t may go on: its context runs, or defers its save and tile t runs the command already;
the device context stops only with its partition. -/
def State.invRuns (s : State) (c : Cmd) (t : Nat) : Bool :=
  if isSearch (dOpcode c.desc) then
    let q := s.part c.part
    !(decide (q.state = .paused) || (decide (q.state = .pausing) && q.pauseCmd.map Prod.snd == some true))
  else ctxRuns (s.ctx c.ctx) || (s.deferring c.ctx && (s.tile t).running == some c.seq)

/-- The invocations of other contexts that wait for a holding of context x that `mine` picks: waiters on its semaphores, then
streams whose buffers meet one it has reserved (R362). -/
def State.waitersOn (s : State) (x : Nat) (sem : Sem → Bool) (str : Stream → Bool) : List SemWaiter :=
  let bySem := ((s.part (s.ctx x).part).sems.filter (fun m => sem m.2)).flatMap (fun m => m.2.waiters)
  let mine := s.mem.streams.filter (fun t => t.ctx == x && str t)
  let byStream := (s.mem.streams.filter (fun y => y.reserve && !y.admitted && mine.any (fun t => s.buffersClash y t))).map
    (fun y => ({ ctx := y.ctx, cmd := y.cmd, tile := y.tile, amount := 0, since := y.since } : SemWaiter))
  (bySem ++ byStream).filter (fun w => w.ctx != x)

/-- Those that wait for a holding of x marked held-by-saved. -/
def State.waitersOf (s : State) (x : Nat) : List SemWaiter := s.waitersOn x (fun m => m.marked.contains x) Stream.marked

/-- Some invocation waits for something that context x holds, marked or taken since it runs BORROWED (R362). -/
def State.awaited (s : State) (x : Nat) : Bool :=
  !(s.waitersOn x (fun m => m.holds.any (fun h => h.1 == x && decide (0 < h.2))) (fun t => t.reserve && t.admitted)).isEmpty

/-- The tile that the current placement gives to an image's logical tile. -/
def Partition.imageTile (q : Partition) (i : SaveImage) : Nat := (lget (i.logical, 0) q.place i.logical).1

/-- Images go back onto the tiles that hold their logical tiles now; the streams and semaphore waits of their invocations follow
(R270, R357). -/
def State.putImages (s : State) (p : Nat) (sel : SaveImage → Bool) : State :=
  let q := s.part p
  let back := q.images.filter sel
  let at' := fun (n t : Nat) => match back.find? (fun i => i.cmd == n && i.phys == t) with
    | some i => q.imageTile i
    | none => t
  let s := back.foldl (fun s i => s.modTile (q.imageTile i)
    (fun _ => { i.tile with running := some i.cmd, lastPart := some p, workSince := s.hif.timer })) s
  let s := { s with mem := { s.mem with streams := s.mem.streams.map (fun (x : Stream) => { x with tile := at' x.cmd x.tile }) } }
  let s := s.mapCmds (fun c => if back.any (fun i => i.cmd == c.seq) then { c with resumed := true } else c)
  let move : Nat → Sem → Sem := fun _ m => { m with waiters := m.waiters.map (fun (w : SemWaiter) => { w with tile := at' w.cmd w.tile }) }
  s.modPart p (fun q => { q with images := q.images.filter (fun i => !sel i), sems := tmap move q.sems })

/-- An invocation saved under R363, whose context runs and is not about to be SAVED again, returns to its tiles when its wait is
granted and they are free. -/
def State.restoreFree (s : State) (p : Nat) : State :=
  let q := s.part p
  let ends := fun (x : Nat) => decide ((s.ctx x).state = .borrowed) && !s.awaited x
  let waits := fun (n : Nat) => q.sems.any (fun m => m.2.waiters.any (fun w => w.cmd == n)) ||
    s.mem.streams.any (fun x => x.cmd == n && x.reserve && !x.admitted)
  s.putImages p (fun i => ctxRuns (s.ctx i.ctx) && !ends i.ctx && !waits i.cmd &&
    (q.images.filter (fun y => y.cmd == i.cmd)).all (fun y => (s.tile (q.imageTile y)).running.isNone))

/-- No started, unfinished command of the context but control-class ones (R354). -/
def State.ctxQuiet (s : State) (x : Nat) : Bool :=
  !s.qm.cmds.any (fun c => c.ctx == x && decide (c.run ≠ .waiting) && !isControl (dOpcode c.desc))

/-- A yield whose context is quiet completes: the context is YIELDED and its PAUSE completes (R354). -/
def State.yieldSettle (s : State) (x : Nat) : State :=
  let k := s.ctx x
  if k.state = .pausing ∧ !k.precise ∧ s.ctxQuiet x then
    let s1 := s.modCtx x (fun k => { k with state := .yielded, yields := satN 32 (k.yields + 1), pauseCmd := none })
    match k.pauseCmd.bind s.cmd? with
    | some c => s1.finish c stOk 0 0 false false
    | none => s1
  else s

/-- A precise save whose tiles have all stopped: SAVED, and the PAUSE completes (R355). -/
def State.saveSettle (s : State) (x : Nat) : State :=
  let k := s.ctx x
  if k.state = .pausing ∧ k.precise ∧ (s.ctxTiles x).isEmpty then
    let s1 := s.modCtx x (fun k => { k with state := .saved, saves := satN 32 (k.saves + 1), pauseCmd := none })
    match k.pauseCmd.bind s.cmd? with
    | some c => s1.finish c stOk 0 0 false false
    | none => s1
  else s

/-- A BORROWED context with no invocation left on a tile, for which nothing waits or which has nothing left to run, is SAVED again,
its holdings marked again (R362). -/
def State.borrowSettle (s : State) (x : Nat) : State :=
  let k := s.ctx x
  if k.state = .borrowed ∧ (s.ctxTiles x).isEmpty ∧ (!s.awaited x ∨ s.ctxQuiet x) then
    (s.markHeld x).modCtx x (fun k => { k with state := .saved, saves := satN 32 (k.saves + 1), borrower := none })
  else s

/-- A partition whose contexts have all stopped is PAUSED and its PAUSE completes; an instruction-precise one also waits
for the running segments and the stage invocations of its searches, then saves its merge units (R354, R356). -/
def State.pauseSettle (s : State) (p : Nat) : State :=
  let q := s.part p
  let precise := q.pauseCmd.map Prod.snd == some true
  if q.state = .pausing ∧ !(s.ctxsOfPart p).any (fun x => decide ((s.ctx x).state = .pausing)) ∧
     !(precise && (s.scan.passes.any (fun a => a.part == p) || !(s.ctxTiles (devCtx p)).isEmpty)) then
    let ms := if precise then (List.range 16).filter (fun c => bitsOf q.res.toNat c 1 == 1) else []
    let s1 := s.modPart p (fun q => { q with state := .paused, pauseCmd := none, mergesSaved := ms })
    match (q.pauseCmd.map Prod.fst).bind s.cmd? with
    | some c => s1.finish c stOk 0 0 false false
    | none => s1
  else s

/-- A partition that reaches OFF gives its areas back and drops its placement (R345). -/
def partOff (q : Partition) : Partition :=
  { q with state := .off, modelArea := [], workArea := [], saveArea := [], place := [], epoch := 0, old := [],
           images := [], sems := [] }

/-- A DRAINING partition whose ring pairs are all FREE reaches OFF (R345). -/
def State.drainSettle (s : State) (p : Nat) : State :=
  let q := s.part p
  if q.state = .draining ∧ !(s.ringsOfPart p).any (fun r => decide ((s.ring r).state ≠ .free)) then
    let free1 : Nat → Context → Context := fun _ k => if fld k.cfg 16 4 = p then { k with state := .free } else k
    let s := { s with sch := { s.sch with ctxs := tmap free1 s.sch.ctxs } }
    let mine := (s.models.slots.filter (fun m => decide (m.2.state ≠ .free) && m.2.owner == p)).map Prod.fst
    let s := { s with models := { s.models with
        slots := s.models.slots.filter (fun m => !mine.contains m.1), seqs := s.models.seqs.filter (fun q => !mine.contains q.slot),
        copies := s.models.copies.filter (fun w => w.part != p), active := s.models.active.filter (fun a => a.1 / 64 != p) } }
    s.modPart p partOff
  else s

/-- Drift state after a reset: the counts and flags are register state, BASE_PPM and DRIFT_MEAN belong to the
collection (log entry 30). -/
def Drift.afterReset (d : Drift) : Drift := { d with elems := 0, hits := 0, flag := false, frozen := false }

/-- Searches and mutations of a collection are served (Table 4.6, R148). -/
def Coll.serves (k : Coll) : Bool :=
  decide (k.state = .ready) || (decide (k.state = .exclusive) && (k.busyOp == opCompact || k.busyOp == opTrain))

/-- Every earlier mutation of the same ring and collection has been applied: one still in flight has not (R107). -/
def State.mutsDone (s : State) (c : Cmd) : Bool :=
  !s.qm.cmds.any (fun x => x.before c && x.ring == c.ring && isMutation (dOpcode x.desc) && dObject x.desc == dObject c.desc)

/-- A search or a SNAPSHOT of a collection reaches its binding point (R147, R303). -/
def State.bindCmd (s : State) (c : Cmd) : State :=
  let op := dOpcode c.desc
  let k := s.coll (dObject c.desc)
  let q := c.query.getD {}
  if isSearch op ∧ !q.met ∧ s.mutsDone c then
    s.modCmd c.seq (fun c => { c with query := some { q with met := true, bound := if k.serves then some k.data else none } })
  else if op = opSnapshot ∧ dSubop c.desc = 0 ∧ c.job.isNone ∧ s.mutsDone c ∧ k.serves then
    let img : Image := tget {} s.jrn.images (dObject c.desc)
    let j : Job := { bound := some k.data, mark := k.applied, hseq := k.hseq, g := k.g, checks := k.checks, drift := k.drift,
                     nextFresh := k.nextFresh, img := some img }
    s.modCmd c.seq (fun c => { c with job := some j })
  else s

/-- Every command that can bind now does. -/
def State.bindAll (s : State) : State := s.qm.cmds.foldl State.bindCmd s

/-- What the end of a command or of an invocation lets happen: yields, saves and borrowed runs of context x end, invocations
return to tiles set free, and pauses and drains of partition p complete. -/
def State.settle (s : State) (x p : Nat) : State :=
  (((((s.yieldSettle x).saveSettle x).borrowSettle x).restoreFree p).pauseSettle p).drainSettle p

/-- Complete a command: its record, then what its end lets happen. -/
def State.complete (s : State) (c : Cmd) (st spec0 spec1 : Nat) (result trunc : Bool) : State :=
  let s1 := s.finish c st spec0 spec1 result trunc
  (if isMutation (dOpcode c.desc) then s1.bindAll else s1).settle c.ctx c.part

/-- Complete with the values the command shows as they stand (R102, R465); a search shows the blocks it has written
(R166). -/
def State.stop (s : State) (c : Cmd) (st : Nat) : State :=
  let w := c.query.getD {}
  s.complete c st c.spec0 c.spec1 (decide (0 < w.next)) w.anyTrunc

/-! ### Which commands may run (R105 to R112, R347, R354) -/

/-- An earlier command of the device in flight. -/
def State.earlier (s : State) (c : Cmd) (p : Cmd → Bool) : Bool :=
  s.qm.cmds.any (fun x => x.before c && p x)

/-- The tiles an old epoch's commands still hold (R367). -/
def State.heldTiles (s : State) (p epoch : Nat) : List Nat :=
  ((s.part p).old.filter (fun o => o.epoch != epoch)).flatMap OldEpoch.tiles

/-- A command that has not started may start now; those that a DRAINING partition has fetched still do (R85). -/
def State.canStart (s : State) (c : Cmd) : Bool :=
  let op := dOpcode c.desc
  if isControl op then !s.earlier c (fun x => isControl (dOpcode x.desc) && decide (x.run = .waiting))
  else
    decide ((s.ctx c.ctx).state = .active) && decide ((s.part c.part).state = .active ∨ (s.part c.part).state = .draining) &&
    !s.earlier c (fun x => x.ring == c.ring && (dOpcode x.desc == opFence || dOpcode x.desc == opBarrier)) &&
    !s.earlier c (fun x => isAdmin (dOpcode x.desc)) &&
    (!isAdmin op || !s.earlier c (fun _ => true)) &&
    !((s.heldTiles c.part c.pEpoch).any (fun t => (s.part c.part).tiles.contains t))

/-- The command may take its next step. -/
def State.mayRun (s : State) (c : Cmd) : Bool :=
  match c.run with
  | .waiting => s.canStart c
  | .running => isControl (dOpcode c.desc) || ctxRuns (s.ctx c.ctx)
  | .last => true

/-- The command n when it carries an opcode that satisfies p and may take its next step. -/
def State.ready? (s : State) (n : Nat) (p : Nat → Bool) : Option Cmd :=
  match s.cmd? n with
  | some c => if p (dOpcode c.desc) && s.mayRun c then some c else none
  | none => none

/-- A command as it now stands. -/
def State.again (s : State) (c : Cmd) : Cmd := (s.cmd? c.seq).getD c

/-- Mark a command as started. -/
def State.start (s : State) (n : Nat) : State := s.modCmd n (fun c => { c with run := if c.run = .waiting then .running else c.run })

/-- Count conversions in FMT_SAT_COUNT and FMT_NAN_COUNT, saturating (R249). -/
def State.fmtCount (s : State) (sat nan : Nat) : State :=
  { s with fmt := { s.fmt with sat := satN 64 (s.fmt.sat + sat), nan := satN 64 (s.fmt.nan + nan) } }

end Sys2Proof.Machine
end

