-- ==== Sys2Proof/Machine/Reduce.lean ====
section
/-!
DEFINITION. The one reduction order of the device (R31, R255, R256, R259): exact groups of 32 terms, one rounding per
group, and the level tree over the group sums.
-/

namespace Sys2Proof.Machine

/-- The least exponent among finite terms. -/
def minExp : List FV → Int → Int
  | [], e => e
  | .fin _ m x :: t, e => minExp t (if m = 0 then e else min x e)
  | _ :: t, e => minExp t e

/-- The exact integer sum of the finite terms at exponent e0. -/
def sumAt (e0 : Int) : List FV → Int
  | [] => 0
  | .fin n m e :: t => (if m = 0 then 0 else finAt n m e e0) + sumAt e0 t
  | _ :: t => sumAt e0 t

/-- The exact sum of a group's terms (R256). A NaN among the terms gives a NaN: positive where no operand of the group was NaN, so
that 0 × ∞ made it; else its sign is open (R220). `given` says that an operand was NaN. -/
def groupExactOf (given : Bool) (ts : List FV) : FV :=
  let hasP := ts.any (fun v => v == .inf false)
  let hasN := ts.any (fun v => v == .inf true)
  if ts.any FV.isNaN then (if given then nanOf ts.length 0 else .nan false)
  else if hasP && hasN then .nan false
  else if hasP then .inf false
  else if hasN then .inf true
  else
    let e0 := minExp ts 1024
    let s := sumAt e0 ts
    if s = 0 then .fin (ts.all (fun v => v.isZero && v.neg)) 0 0
    else .fin (decide (s < 0)) s.natAbs e0

/-- The exact sum of terms that are themselves the operands. -/
def groupExact (ts : List FV) : FV := groupExactOf true ts

/-- The group sum rounded once to F. -/
def groupSum (f : Fmt) (ts : List FV) : Nat := enc f (groupExact ts)

/-- Push a group sum through the levels, passing a full level's sum up (R255 step 3). -/
def pushLevels (f : Fmt) : List (Option Nat) → Nat → List (Option Nat)
  | [], v => [some v]
  | some x :: t, v => none :: pushLevels f t (fadd f x v)
  | none :: t, v => some v :: t

/-- Collapse the levels from the lowest (R255). -/
def collapseLevels (f : Fmt) : List (Option Nat) → Option Nat → Option Nat
  | [], v => v
  | none :: t, v => collapseLevels f t v
  | some x :: t, none => collapseLevels f t (some x)
  | some x :: t, some v => collapseLevels f t (some (fadd f x v))

/-- The nine empty levels L0 to L8. -/
def emptyLevels : List (Option Nat) := List.replicate 9 none

/-- Combine group sums in order. -/
def reduceGroups (f : Fmt) (gs : List Nat) : Option Nat :=
  collapseLevels f (gs.foldl (pushLevels f) emptyLevels) none

/-- Groups of 32 terms, the last one short. -/
def groupsOf (ts : List FV) : List (List FV) := piecesOf 32 (cdiv ts.length 32) ts

/-- The reduction of terms into an accumulator of format F; +0 for none (R262). -/
def reduceTerms (f : Fmt) (ts : List FV) : Nat :=
  (reduceGroups f ((groupsOf ts).map (groupSum f))).getD 0

/-- The combine operation's balanced tree over parts, absent parts passing the partner's value up (R259). -/
def combineTree (f : Fmt) : Nat → List (Option Nat) → Option Nat
  | 0, ps => ps.headD none
  | n + 1, ps =>
    let h := 2 ^ n
    match combineTree f n (ps.take h), combineTree f n (ps.drop h) with
    | some a, some b => some (fadd f a b)
    | some a, none => some a
    | none, b => b

/-- The term (a − b)² with the difference rounded once and the square exact (R124, R150). -/
def sqDiffTerm (f : Fmt) (a b : Nat) : FV :=
  let d := decode f (fsub f a b)
  mulV d d 0 0

/-- The exact product of two patterns of one format. -/
def prodTerm (f : Fmt) (a b : Nat) : FV := mulV (decode f a) (decode f b) a b

end Sys2Proof.Machine
end

