-- ==== Sys2Proof/Machine/Score.lean ====
section
/-!
DEFINITION. What a search computes from a bound collection: codes and geometry (04), routing, scoring and refinement
(05, 06, 08), and the order and reduction of candidates (07). Pure functions of the bound content; no device state.
-/

namespace Sys2Proof.Machine

/-! ### Geometry of a collection -/

/-- Code bytes of Table 4.3. -/
def codeBytes (c : CollCfg) : Nat :=
  match c.codeType with
  | 0 => c.pqM
  | 1 => c.pqM / 2
  | 2 => c.dim
  | 3 => c.dim / 2
  | _ => c.dim / 8

/-- The stride of a code (R121). -/
def stride (c : CollCfg) : Nat :=
  let b := codeBytes c
  if b ≤ 4 then 4 else if b ≤ 8 then 8 else if b ≤ 16 then 16 else if b ≤ 32 then 32 else roundUp b 64

/-- Code elements: subquantizers, or dimensions. -/
def codeElems (c : CollCfg) : Nat := if c.codeType ≤ 1 then c.pqM else c.dim

/-- Bytes of one residual element (Table 4.4). -/
def resElemBytes (f : Nat) : Nat :=
  match f with
  | 1 => 8 | 2 => 4 | 3 => 2 | 4 => 2 | 5 => 1 | 6 => 1 | _ => 0

/-- Residual record size (R123). -/
def recordSize (c : CollCfg) : Nat := roundUp (c.dim * resElemBytes c.resFmt) 64

/-- Slots of one fresh shard, and the shard slot of logical fresh index f (R138). -/
def shardSlots (c : CollCfg) : Nat := cdiv c.freshCap 12
def freshSlot (c : CollCfg) (f : Nat) : Nat := (f / 12) % shardSlots c

/-- Bytes of one source element row in SRC_FMT, and its format. -/
def srcFmtOf : Nat → Fmt
  | 1 => .bf16 | 2 => .fp16 | 3 => .fp64 | _ => .fp32

/-- Bytes of a vector in SRC_FMT. -/
def srcBytes (c : CollCfg) : Nat := if c.srcFmt = 4 then cdiv c.dim 8 else c.dim * (srcFmtOf c.srcFmt).bytes

/-- Distance-table bytes of one query (Table 6.2). -/
def tableBytes (c : CollCfg) : Nat :=
  match c.codeType with
  | 0 => c.pqM * 512
  | 1 => c.pqM * 32
  | 2 => c.dim * 512
  | 3 => c.dim * 32
  | _ => c.dim / 8

/-- Most queries one pass serves (R179). -/
def qmax (c : CollCfg) : Nat := min 32 (524288 / max 1 (tableBytes c))

/-- Similarity sense (Table 4.2): a larger score ranks first. -/
def similarity (c : CollCfg) : Bool := c.metric == 1 || c.metric == 2

/-! ### Vectors -/

/-- Elements of a vector in SRC_FMT as bit patterns of the format; packed bits as 0 and 1. -/
def srcElems (c : CollCfg) (bs : List Byte) : List Nat :=
  if c.srcFmt = 4 then (List.range c.dim).map (fun i => bitsOf (getLE bs (i / 8) 1) (i % 8) 1)
  else let w := (srcFmtOf c.srcFmt).bytes
       (List.range c.dim).map (fun i => getLE bs (i * w) w)

/-- One element in FP32 (R149). -/
def elemF32 (c : CollCfg) (x : Nat) : Nat := if c.srcFmt = 4 then f32Nat x else convert (srcFmtOf c.srcFmt) .fp32 x

/-- One element in FP64, widened exactly. -/
def elemF64 (c : CollCfg) (x : Nat) : Nat :=
  if c.srcFmt = 4 then enc .fp64 (.fin false x 0) else convert (srcFmtOf c.srcFmt) .fp64 x

/-- An element is non-finite in its format or becomes so in FP32 (R117, R149). -/
def elemBad (c : CollCfg) (x : Nat) : Bool :=
  if c.srcFmt = 4 then false
  else !(decode (srcFmtOf c.srcFmt) x).isFin || !(decode .fp32 (elemF32 c x)).isFin

/-- The Euclidean norm in a format: exact squares summed under R255, one square root (R119). -/
def norm (f : Fmt) (v : List Nat) : Nat := fsqrt f (reduceTerms f (v.map (fun x => prodTerm f x x)))

/-- Divide by the norm; a zero-norm vector becomes all zeros (R119). -/
def normalise (f : Fmt) (v : List Nat) : List Nat :=
  let n := norm f v
  if (decode f n).isZero then v.map (fun _ => 0) else v.map (fun x => fdiv f x n)

/-- A vector in FP32 as the device stores or scores it: converted, and normalised under COSINE. -/
def vecF32 (c : CollCfg) (els : List Nat) : List Nat :=
  let v := els.map (elemF32 c)
  if c.metric = 2 then normalise .fp32 v else v

/-- The same in FP64 (R119, R120, Table 5.3). -/
def vecF64 (c : CollCfg) (els : List Nat) : List Nat :=
  let v := els.map (elemF64 c)
  if c.metric = 2 then normalise .fp64 v else v

/-! ### Order (R206) -/

/-- The key of a score pattern of width w. -/
def orderKey (sim : Bool) (w s : Nat) : Nat :=
  let s := if s = 2 ^ (w - 1) then 0 else s
  let k := if bitsOf s (w - 1) 1 = 1 then 2 ^ w - 1 - s else s + 2 ^ (w - 1)
  if sim then 2 ^ w - 1 - k else k

/-- The pattern is NaN. -/
def isNaN (f : Fmt) (x : Nat) : Bool := (decode f x).isNaN

/-! ### Route (R150) and assignment (R124) -/

/-- Dot-product terms of two vectors. -/
def ipTerms (f : Fmt) (a b : List Nat) : List FV := List.zipWith (prodTerm f) a b

/-- The metric routes by L2SQ: L2SQ itself and HAMMING. -/
def routesL2 (c : CollCfg) : Bool := c.metric == 0 || c.metric == 3

/-- Route score of a query against a centroid: BF16 elements, FP32 sum in the order of R31. -/
def routeScore (c : CollCfg) (q cent : List Nat) : Nat :=
  let r := fun x => convert .bf16 .fp32 (convert .fp32 .bf16 x)
  let a := q.map r
  let b := cent.map r
  reduceTerms .fp32 (if routesL2 c then List.zipWith (sqDiffTerm .fp32) a b else ipTerms .fp32 a b)

/-- Assignment score of a vector against a centroid, in FP32 (R124). -/
def assignScore (c : CollCfg) (v cent : List Nat) : Nat :=
  reduceTerms .fp32 (if routesL2 c then List.zipWith (sqDiffTerm .fp32) v cent else ipTerms .fp32 v cent)

/-- Rank of a score among centroids: its key, NaN after everything. -/
def centKey (c : CollCfg) (s : Nat) : Nat := if isNaN .fp32 s then 2 ^ 32 else orderKey (similarity c) 32 s

/-- List indices and scores, best first, ties to the lower index. -/
def rankLists (c : CollCfg) (scores : List Nat) : List (Nat × Nat) :=
  sortBy (fun a b => decide (centKey c a.2 < centKey c b.2)) (scores.zipIdx.map (fun p => (p.2, p.1)))

/-- The lists a query probes (R150). -/
def probedLists (d : CollData) (q : List Nat) (nprobe : Nat) : List Nat :=
  let r := rankLists d.cfg (d.centroids.map (routeScore d.cfg q))
  ((if nprobe = 0 then r else r.take nprobe).map Prod.fst)

/-- The lists that store a vector: the primary first, then those within the spill margin (R124). The limits (1 + ρ) × s_p and
s_p − ρ × |s_p| are formed with one FP32 rounding for each operation: the rule does not say how they round (log entry 131). -/
def spillLists (d : CollData) (v : List Nat) : List Nat :=
  let c := d.cfg
  let r := rankLists c (d.centroids.map (assignScore c v))
  match r with
  | [] => []
  | (p, sp) :: t =>
    let lim := if routesL2 c then fmul .fp32 (fadd .fp32 f32One c.rho) sp
               else fsub .fp32 sp (fmul .fp32 c.rho (sp % 2 ^ 31))
    let ok := fun s => if routesL2 c then leV (decode .fp32 s) (decode .fp32 lim) else leV (decode .fp32 lim) (decode .fp32 s)
    p :: ((t.filter (fun x => ok x.2)).take (c.spillMax - 1)).map Prod.fst

/-! ### Encoding (R120 to R123, R228, R229) -/

/-- The residual r = x − c in FP32 or FP64. -/
def residual (f : Fmt) (v cent : List Nat) : List Nat := List.zipWith (fsub f) v cent

/-- Codeword w of subquantizer j (R122). -/
def codeword (c : CollCfg) (cb : List Nat) (j w : Nat) : List Nat :=
  let n := c.dim / max 1 c.pqM
  let lv := if c.codeType = 0 then 256 else 16
  (cb.drop ((j * lv + w) * n)).take n

/-- FP32 squared L2 distance of two short vectors. -/
def l2Dist (a b : List Nat) : Nat := reduceTerms .fp32 (List.zipWith (sqDiffTerm .fp32) a b)

/-- Index of the least distance, ties to the lower index, a NaN last. -/
def argMin (l : List Nat) : Nat :=
  (l.zipIdx.foldl (fun (acc : Nat × Nat) p =>
    let k := if isNaN .fp32 p.1 then 2 ^ 33 else orderKey false 32 p.1
    if k < acc.1 then (k, p.2) else acc) (2 ^ 34, 0)).2

/-- Pack nibbles, even element low (R221). -/
def packNibbles : List Nat → List Byte
  | a :: b :: t => BitVec.ofNat 8 (a + 16 * b) :: packNibbles t
  | [a] => [BitVec.ofNat 8 a]
  | [] => []

/-- Encoded bytes with FMT counts (saturations, NaNs) and saturated elements (R200). -/
structure Encoded where
  bytes : List Byte := []
  sat : Nat := 0
  nan : Nat := 0
  hits : Nat := 0
  deriving DecidableEq, Repr

/-- SQ8 element: FP32 quotient, nearest even, clamped to ±127 (R228, R229). -/
def sq8Elem (r s : Nat) : ICvt := toInt (-127) 127 (decode .fp32 (fdiv .fp32 r s))

/-- The code of a residual (or, for BIN, of the vector's bits). -/
def encodeCode (d : CollData) (r : List Nat) (bits : List Nat) : Encoded :=
  let c := d.cfg
  match c.codeType with
  | 0 | 1 =>
    let n := c.dim / max 1 c.pqM
    let lv := if c.codeType = 0 then 256 else 16
    let ix := (List.range c.pqM).map (fun j =>
      let sv := (r.drop (j * n)).take n
      argMin ((List.range lv).map (fun w => l2Dist sv (codeword c d.codebook j w))))
    { bytes := if c.codeType = 0 then ix.map (BitVec.ofNat 8) else packNibbles ix }
  | 2 =>
    let es := List.zipWith sq8Elem r d.codebook
    { bytes := es.map (fun e => BitVec.ofNat 8 (toBits 8 e.val)), sat := sumN (es.map ICvt.sat),
      nan := sumN (es.map ICvt.nan), hits := (es.filter (fun e => e.val == 127 || e.val == -127)).length }
  | 3 =>
    let es := List.zipWith (fun x s => q4bEnc (decode .fp32 (fdiv .fp32 x s))) r d.codebook
    { bytes := packNibbles (es.map Cvt.bits), sat := sumN (es.map Cvt.sat), nan := sumN (es.map Cvt.nan),
      hits := (es.filter (fun e => e.bits == 0 || e.bits == 15)).length }
  | _ => { bytes := (List.range (c.dim / 8)).map (fun b =>
             BitVec.ofNat 8 (sumN ((List.range 8).map (fun i => lget 0 bits (8 * b + i) * 2 ^ i)))) }

/-- Saturated elements of a stored code (R200). -/
def codeHits (c : CollCfg) (code : List Byte) : Nat :=
  match c.codeType with
  | 2 => (code.filter (fun b => b == 0x7F || b == 0x81)).length
  | 3 => sumN (code.map (fun b => bit (b.toNat % 16 = 0 || b.toNat % 16 = 15) + bit (b.toNat / 16 = 0 || b.toNat / 16 = 15)))
  | _ => 0

/-- The residual record of a residual in FP32, or in FP64 where R120 forms it so (R123, R228 to R230). -/
def encodeRes (d : CollData) (r : List Nat) (f : Fmt) : Encoded :=
  let c := d.cfg
  let put := fun (g : Fmt) => r.flatMap (fun x => natBytes g.bytes (convert f g x))
  match c.resFmt with
  | 1 => { bytes := put .fp64 }
  | 2 => { bytes := put .fp32 }
  | 3 => { bytes := put .bf16 }
  | 4 => { bytes := put .fp16 }
  | 5 =>
    let es := List.zipWith (fun x t => cvt .e4m3 (decode .fp32 (fdiv .fp32 (convert f .fp32 x) t))) r d.resScale
    { bytes := es.map (fun e => BitVec.ofNat 8 e.bits), sat := sumN (es.map Cvt.sat), nan := sumN (es.map Cvt.nan) }
  | 6 =>
    let es := List.zipWith (fun x t => sq8Elem (convert f .fp32 x) t) r d.resScale
    { bytes := es.map (fun e => BitVec.ofNat 8 (toBits 8 e.val)), sat := sumN (es.map ICvt.sat),
      nan := sumN (es.map ICvt.nan) }
  | _ => {}

/-- The residual is formed in FP64 (R120). -/
def res64 (c : CollCfg) : Bool := c.srcFmt == 3 && c.resFmt == 1

/-- A vector as the device encodes it: in FP32, in FP64 where R120 forms the residual so, and its bits for BIN. -/
structure VecForm where
  v32 : List Nat
  v64 : List Nat
  bits : List Nat
  deriving DecidableEq, Repr

/-- The forms of a vector given as source elements. -/
def vecForm (c : CollCfg) (els : List Nat) : VecForm :=
  { v32 := vecF32 c els, v64 := if res64 c then vecF64 c els else [], bits := els }

/-- Encode a vector for list l: the entry and its counts. One residual gives the code and the record: where R120 forms it in
FP64, the code is encoded from its FP32 value, the format of the code's arithmetic (R122, R228). -/
def encodeVec (d : CollData) (l id : Nat) (attr : List Byte) (v : VecForm) : Entry × Encoded :=
  let c := d.cfg
  let cent := d.centroids.getD l []
  let wide := res64 c
  let r := if wide then residual .fp64 v.v64 (cent.map (convert .fp32 .fp64)) else residual .fp32 v.v32 cent
  let code := encodeCode d (if wide then r.map (convert .fp64 .fp32) else r) v.bits
  let res := encodeRes d r (if wide then .fp64 else .fp32)
  ({ id := id, code := code.bytes, attr := attr, res := res.bytes },
   { sat := code.sat + res.sat, nan := code.nan + res.nan, hits := code.hits })

/-- Encode a vector, given as source elements, for list l. -/
def encodeEntry (d : CollData) (l id : Nat) (attr : List Byte) (els : List Nat) : Entry × Encoded :=
  encodeVec d l id attr (vecForm d.cfg els)

/-! ### Filter programs (R185) -/

/-- Two's complement comparison helper and the operations of Table 6.6. -/
def termOp (op w f o : Nat) : Bool :=
  match op with
  | 0 => f == o
  | 1 => f != o
  | 2 => decide (f < o)
  | 3 => decide (f ≤ o)
  | 4 => decide (o < f)
  | 5 => decide (o ≤ f)
  | 6 => decide (sext w f < sext w o)
  | 7 => decide (sext w f ≤ sext w o)
  | 8 => decide (sext w o < sext w f)
  | 9 => decide (sext w o ≤ sext w f)
  | 10 => (f &&& o) != 0
  | 11 => (f &&& o) == o
  | 12 => (f &&& o) == 0
  | _ => false

/-- Term t of a program applied to an attribute word and FILTER_ARG (Table 6.5). -/
def evalTerm (prog : List Byte) (attr arg t : Nat) : Bool :=
  let o := 0x20 + 16 * t
  let w := bitsOf (getLE prog (o + 3) 1) 0 7
  let f := bitsOf attr (bitsOf (getLE prog (o + 2) 1) 0 7) w
  let opnd := if getLE prog (o + 1) 1 % 2 = 1 then bitsOf arg (bitsOf (getLE prog (o + 4) 1) 0 6) w
              else bitsOf (getLE prog (o + 8) 8) 0 w
  termOp (getLE prog o 1) w f opnd

/-- The predicate: an OR of clauses, each an AND of its selected, possibly inverted, terms. -/
def evalFilter (prog : List Byte) (attr arg : Nat) : Bool :=
  (List.range (getLE prog 1 1)).any (fun c =>
    let v := getLE prog (0x10 + 4 * c) 4
    (List.range 16).all (fun t =>
      bitsOf v t 1 = 0 || xor (evalTerm prog attr arg t) (bitsOf v (16 + t) 1 = 1)))

/-- Every program content rule of R185 and Table 6.6 holds. -/
def filterOk (attrBytes : Nat) (prog : List Byte) : Bool :=
  let n := getLE prog 0 1
  let cl := getLE prog 1 1
  decide (1 ≤ n ∧ n ≤ 16 ∧ 1 ≤ cl ∧ cl ≤ 4 ∧ prog.length = 32 + 16 * n) &&
  getLE prog 2 14 == 0 &&
  (List.range 4).all (fun c =>
    let v := getLE prog (0x10 + 4 * c) 4
    let sel := v % 65536
    let inv := v / 65536
    if c < cl then decide (sel < 2 ^ n) && (inv &&& sel) == inv else v == 0) &&
  (List.range n).all (fun t =>
    let o := 0x20 + 16 * t
    let src := getLE prog (o + 1) 1
    let lsb := getLE prog (o + 2) 1
    let w := getLE prog (o + 3) 1
    let al := getLE prog (o + 4) 1
    decide (getLE prog o 1 ≤ 12) && decide (src ≤ 1) && decide (lsb < 128) && decide (1 ≤ w ∧ w ≤ 64) &&
    decide (lsb + w ≤ 8 * attrBytes) && decide (al < 64) && getLE prog (o + 5) 3 == 0 &&
    (if src = 1 then decide (al + w ≤ 64) else true) && decide (src = 1 ∨ getLE prog (o + 8) 8 < 2 ^ w))

/-! ### Distance tables (R177 to R180) -/

/-- The value d_w of code level w (R229), in FP32. -/
def levelF32 (c : CollCfg) (w : Nat) : Nat :=
  if c.codeType = 2 then enc .fp32 (ofInt (sext 8 w)) else enc .fp32 (q4bV w)

/-- Code levels per element. -/
def levels (c : CollCfg) : Nat := if c.codeType = 0 ∨ c.codeType = 2 then 256 else 16

/-- Entry (j, w) before scaling: Table 6.1, or Table 6.3 for a fresh shard under L2SQ. -/
def tableEntry (d : CollData) (q cent : List Nat) (fresh : Bool) (j w : Nat) : Nat :=
  let c := d.cfg
  if c.codeType ≤ 1 then
    let n := c.dim / max 1 c.pqM
    let cw := codeword c d.codebook j w
    let qs := (q.drop (j * n)).take n
    let cs := (cent.drop (j * n)).take n
    reduceTerms .fp32
      (if c.metric ≠ 0 then ipTerms .fp32 qs cw
       else if fresh then List.zipWith (fun x y =>
         decode .fp32 (fsub .fp32 (fmul .fp32 y y) (fmul .fp32 (fmul .fp32 0x40000000 x) y))) qs cw
       else List.zipWith (sqDiffTerm .fp32) (List.zipWith (fsub .fp32) qs cs) cw)
  else
    let x := fmul .fp32 (levelF32 c w) (lget 0 d.codebook j)
    let qj := lget 0 q j
    reduceTerms .fp32
      [if c.metric ≠ 0 then prodTerm .fp32 qj x
       else if fresh then decode .fp32 (fsub .fp32 (fmul .fp32 x x) (fmul .fp32 (fmul .fp32 0x40000000 qj) x))
       else sqDiffTerm .fp32 (fsub .fp32 qj (lget 0 cent j)) x]

/-- The exponent e of σ = 2^e (R178). -/
def scaleExp (vs : List Nat) : Int :=
  vs.foldl (fun (acc : Option Int) v =>
    match decode .fp32 v with
    | .fin _ m x =>
      if m = 0 then acc
      else
        let l : Int := Nat.log2 m
        let e := (if m = 2 ^ Nat.log2 m then l + x else l + x + 1) - 15
        match acc with
        | none => some e
        | some a => some (max a e)
    | _ => acc) none |>.getD 0

/-- A query's table: σ's exponent and the FP16 entries, element-major. -/
def buildTable (d : CollData) (q cent : List Nat) (fresh : Bool) : Int × List (List Nat) :=
  let c := d.cfg
  let raw := (List.range (codeElems c)).map (fun j => (List.range (levels c)).map (tableEntry d q cent fresh j))
  let e := scaleExp raw.flatten
  (e, raw.map (fun row => row.map (fun v =>
    match decode .fp32 v with
    | .fin n m x => enc .fp16 (.fin n m (x - e))
    | w => enc .fp16 w)))

/-- Code element j as a table index. -/
def codeIndex (c : CollCfg) (code : List Byte) (j : Nat) : Nat :=
  if c.codeType = 0 ∨ c.codeType = 2 then (code.getD j 0).toNat
  else bitsOf (code.getD (j / 2) 0).toNat (4 * (j % 2)) 4

/-- Group sums of four table values (R181 step 2). -/
def groupsOf4 : List Nat → List Nat
  | a :: b :: c :: d :: t => fadd .fp32 (fadd .fp32 a b) (fadd .fp32 c d) :: groupsOf4 t
  | _ => []

/-- Accumulate group sums in ascending order (R181 step 3). -/
def accumulate : List Nat → Nat
  | [] => 0
  | g :: gs => gs.foldl (fadd .fp32) g

/-- The code score from a table (R181); for BIN, the bits that differ. -/
def codeScore (c : CollCfg) (tab : Int × List (List Nat)) (bias : Nat) (qbits : List Byte) (code : List Byte) : Nat :=
  if c.codeType = 4 then
    f32Nat (sumN (List.zipWith (fun a b => sumN ((List.range 8).map (fun i => bitsOf (a ^^^ b).toNat i 1))) qbits code))
  else
    let ts := (List.range (codeElems c)).map (fun j =>
      convert .fp16 .fp32 (lget 0 (tab.2.getD j []) (codeIndex c code j)))
    let s := accumulate (groupsOf4 ts)
    let scaled := match decode .fp32 s with
      | .fin n m x => enc .fp32 (.fin n m (x + tab.1))
      | v => enc .fp32 v
    fadd .fp32 scaled bias

/-! ### Candidates, order and reduction (R206, R209, R212) -/

/-- a is newer than b under R128. -/
def newer (a b : Cand) : Bool := (a.fresh && !b.fresh) || (a.fresh == b.fresh && decide (b.version < a.version))

/-- The total order of R206 on scores of width w. -/
def ranksBefore (sim : Bool) (w : Nat) (a b : Cand) : Bool :=
  let ka := orderKey sim w a.score
  let kb := orderKey sim w b.score
  decide (ka < kb) || (ka == kb && (decide (a.id < b.id) ||
    (a.id == b.id && (newer a b || (!newer b a && decide (a.list < b.list))))))

/-- Of two copies of one ID, a is the one R212 keeps. -/
def keepsOver (sim : Bool) (w : Nat) (a b : Cand) : Bool := newer a b || (!newer b a && ranksBefore sim w a b)

/-- Reduce entries with one ID to a single entry (R212). -/
def dedupCands (sim : Bool) (w : Nat) (l : List Cand) : List Cand :=
  l.filter (fun a => !l.any (fun b => b.id == a.id && b != a && keepsOver sim w b a))

/-- The best n of a set, reduced first when DEDUP is in effect. -/
def bestOf (sim : Bool) (w : Nat) (dedup : Bool) (n : Nat) (l : List Cand) : List Cand :=
  (sortBy (ranksBefore sim w) (if dedup then dedupCands sim w l else l)).take n

/-- Retention need N_s (R215): entries ranking at or better than the D-th of P_s. -/
def retention (sim : Bool) (dedup : Bool) (d : Nat) (l : List Cand) : Nat :=
  let p := bestOf sim 32 dedup d l
  if p.length < d then l.length
  else match p.getLast? with
    | none => 0
    | some z => (l.filter (fun a => !ranksBefore sim 32 z a)).length

/-! ### Refinement (R161, Table 5.3) -/

/-- Decode residual element j to FP32 or, for the FP64 path, widened exactly to FP64 (R234; log entry 13). -/
def resElem (d : CollData) (f : Fmt) (res : List Byte) (j : Nat) : Nat :=
  let b := resElemBytes d.cfg.resFmt
  let raw := getLE res (j * b) b
  match d.cfg.resFmt with
  | 1 => convert .fp64 f raw
  | 2 => convert .fp32 f raw
  | 3 => convert .bf16 f raw
  | 4 => convert .fp16 f raw
  | 5 => convert .fp32 f (fmul .fp32 (convert .e4m3 .fp32 raw) (lget 0 d.resScale j))
  | _ => convert .fp32 f (fmul .fp32 (enc .fp32 (ofInt (sext 8 raw))) (lget 0 d.resScale j))

/-- x̃ of a stored entry in format F. -/
def approxVec (d : CollData) (f : Fmt) (l : Nat) (res : List Byte) : List Nat :=
  let cent := d.centroids.getD l []
  (List.range d.cfg.dim).map (fun j => fadd f (convert .fp32 f (lget 0 cent j)) (resElem d f res j))

/-- The refined score of an entry: an FP64 pattern for REFINE_FMT 1, else FP32. q32 and q64 are the query in each. -/
def refineScore (d : CollData) (rf : Nat) (q32 q64 : List Nat) (l : Nat) (res : List Byte) : Nat :=
  let f : Fmt := if rf = 1 then .fp64 else .fp32
  let r := fun x => if rf = 2 then convert .bf16 .fp32 (convert .fp32 .bf16 x) else x
  let q := (if rf = 1 then q64 else q32).map r
  let x := (approxVec d f l res).map r
  let term := fun a b =>
    if d.cfg.metric = 0 then
      let e := fsub f a b
      if rf = 2 then prodTerm f e e else decode f (fmul f e e)
    else if rf = 2 then prodTerm f a b else decode f (fmul f a b)
  reduceTerms f (List.zipWith term q x)

end Sys2Proof.Machine
end

