-- ==== Sys2Proof/Machine/Alloc.lean ====
section
/-!
DEFINITION. Device memory as blocks: tiers and their usable ranges (R373, R395), which blocks hold structures (R139,
R375), free capacity, runs of free blocks, and the space of a collection (Table 4.8).
-/

namespace Sys2Proof.Machine

/-! ### Memory units and tiers -/

/-- A unit as built: a stack with 16 of 17 channels active, or a far-tier channel in service. -/
def memUnitDefault (u : Nat) : MemUnit := if u < 12 then {} else { active := 1, units := 0 }

/-- Stack u, or far-tier channel u − 12. -/
def State.memUnit (s : State) (u : Nat) : MemUnit := tget (memUnitDefault u) s.mem.units u

/-- Change one unit. -/
def State.modUnit (s : State) (u : Nat) (f : MemUnit → MemUnit) : State :=
  { s with mem := { s.mem with units := tset s.mem.units u (f (s.memUnit u)) } }

/-- 256 MiB units one far-tier channel backs (R395). -/
def State.farStep (s : State) : Nat := if s.module.farVariant4 then 2048 else 1024

/-- HIF_FAR_SIZE.UNITS. -/
def State.farUnits (s : State) : Nat :=
  s.farStep * ((List.range 8).filter (fun c => (s.memUnit (12 + c)).active == 1)).length

/-- HIF_STK_SIZE[n].UNITS. -/
def State.stkUnits (s : State) (n : Nat) : Nat := if (s.memUnit n).oos then 0 else (s.memUnit n).units

/-- The end of DVSEC Range 2 in bytes (R48). -/
def State.dpaEnd (s : State) : Nat := farBase + 8 * s.farStep * 2 ^ 28

/-- The tier of a block: stack 0 to 11, or 12 for the far tier. -/
def tierOf (block : Nat) : Nat := min 12 (block / blocksPerStack)

/-- First and end block of a tier's device pool (Table 13.1). -/
def State.poolRange (s : State) (t : Nat) : Nat × Nat :=
  if t < 12 then (t * blocksPerStack + 8, t * blocksPerStack + 128 * s.stkUnits t)
  else (farFirstBlock + 128 * s.mem.farHost, farFirstBlock + 128 * s.farUnits)

/-- A device physical address lies in usable memory. -/
def State.usable (s : State) (a : Nat) : Bool :=
  if a < farBase then decide (a % stackBytes < 2 ^ 28 * s.stkUnits (a / stackBytes))
  else decide (a < farBase + 2 ^ 28 * s.farUnits)

/-- n bytes from a lie in usable memory: every 2 MiB block they touch does. -/
def State.usableSpan (s : State) (a n : Nat) : Bool :=
  s.usable a && (n == 0 || s.usable (a + n - 1)) &&
  (List.range (if n = 0 then 0 else (a + n - 1) / (2 ^ 28) - a / (2 ^ 28))).all (fun i => s.usable ((a / (2 ^ 28) + i + 1) * 2 ^ 28))

/-- n bytes from a lie in the host region (R375). -/
def State.inHostRegion (s : State) (a n : Nat) : Bool :=
  decide (farBase ≤ a ∧ a + n ≤ farBase + 2 ^ 28 * min s.mem.farHost s.farUnits)

/-! ### Blocks in use -/

/-- The runs of a collection's content. -/
def CollData.runs (d : CollData) : List Extent :=
  d.lists.flatMap (fun l => l.runs ++ l.repRuns) ++ d.homeRuns ++ d.farRuns ++ d.filterRuns.map Prod.snd

/-- Every run that a structure holds: collections, what queries and commands still hold of older epochs (R291), model
slots and partition areas. -/
def State.usedRuns (s : State) : List Extent :=
  s.colls.flatMap (fun c => c.2.data.runs) ++
  s.qm.cmds.flatMap (fun c =>
    (match c.query.bind QueryWork.bound with | some d => d.runs | none => []) ++
    (match c.job.bind Job.result with | some d => d.runs | none => [])) ++
  s.models.slots.flatMap (fun m => m.2.runs) ++
  s.sch.parts.flatMap (fun p => p.2.modelArea ++ p.2.workArea ++ p.2.saveArea)

/-- A block lies in a run. -/
def Extent.has (e : Extent) (b : Nat) : Bool := decide (e.first ≤ b ∧ b < e.first + e.count)

/-- Some structure holds block b, or it is a metadata region. -/
def State.blockHeld (s : State) (b : Nat) : Bool :=
  (decide (b < farFirstBlock) && decide (b % blocksPerStack < 8)) || s.usedRuns.any (fun e => e.has b)

/-- Blocks that back a rebuilt block (R396). -/
def State.takenRuns (s : State) : List Extent :=
  (s.mem.taken.filter (fun p => s.blockHeld p.1)).map (fun p => { first := p.2, count := 1 })

/-- Blocks that may not be allocated though no structure holds them: those with a retired page, and those that back a
rebuilt block (R394, R396). -/
def State.barredRuns (s : State) : List Extent :=
  s.mem.pages.map (fun a => { first := a / blockBytes, count := 1 }) ++ s.takenRuns

/-- Free runs of lo..hi−1 given the runs in use. -/
def freeRuns (used : List Extent) (lo hi : Nat) : List Extent :=
  let us := sortBy (fun (a b : Extent) => decide (a.first < b.first)) (used.filter (fun e => decide (0 < e.count ∧ e.first < hi ∧ lo < e.first + e.count)))
  let r := us.foldl (fun (acc : Nat × List Extent) e =>
    if acc.1 < e.first then (max acc.1 (e.first + e.count), acc.2 ++ [{ first := acc.1, count := e.first - acc.1 }])
    else (max acc.1 (e.first + e.count), acc.2)) (lo, [])
  if r.1 < hi then r.2 ++ [{ first := r.1, count := hi - r.1 }] else r.2

/-- Free runs of tier t. -/
def State.tierFree (s : State) (t : Nat) : List Extent :=
  let r := s.poolRange t
  freeRuns (s.usedRuns ++ s.barredRuns) r.1 r.2

/-- Free blocks of tier t. -/
def State.freeBlocks (s : State) (t : Nat) : Nat := sumN ((s.tierFree t).map Extent.count)

/-- A run of n blocks: in the far tier the highest that fits (R375); in a stack the k-th place that fits, k a choice the
spec leaves to the device (log entry 20). -/
def pickRun (free : List Extent) (far : Bool) (k n : Nat) : Option Nat :=
  let fit := free.filter (fun e => decide (n ≤ e.count))
  if far then (fit.getLast?).map (fun e => e.first + e.count - n)
  else
    let tot := sumN (fit.map (fun e => e.count - n + 1))
    if tot = 0 then none
    else (fit.foldl (fun (acc : Nat × Option Nat) e =>
      match acc.2 with
      | some _ => acc
      | none => let m := e.count - n + 1
                if acc.1 < m then (0, some (e.first + acc.1)) else (acc.1 - m, none)) (k % tot, none)).2

/-- Reserve n blocks of tier t: the run, or none when no free run holds them. -/
def State.reserve (s : State) (t n : Nat) : Option Extent × State :=
  let f := s.free
  match pickRun (s.tierFree t) (t == 12) f.1 n with
  | none => (none, f.2)
  | some b =>
    let e : Extent := { first := b, count := n }
    (some e, { f.2 with mem := { f.2.mem with missing := f.2.mem.missing.filter (fun m => !e.has m.block) } })

/-! ### Space of a collection (R143, Table 4.8) -/

/-- Bytes rounded up to whole 4 KiB pages. -/
def pages4K (n : Nat) : Nat := roundUp n 4096

/-- Bytes of the columns of n slots in the list's stack, without IDs. -/
def codeColBytes (c : CollCfg) (n : Nat) : Nat := pages4K (n * stride c)
def tombColBytes (n : Nat) : Nat := pages4K (cdiv n 8)
def attrColBytes (c : CollCfg) (n : Nat) : Nat := pages4K (n * c.attrBytes)
def idColBytes (n : Nat) : Nat := pages4K (8 * n)
def resColBytes (c : CollCfg) (n : Nat) : Nat := pages4K (n * recordSize c)

/-- Stack bytes of a list of n slots, and those of its replica. -/
def replicaBytes (c : CollCfg) (n : Nat) : Nat := codeColBytes c n + tombColBytes n + attrColBytes c n
def listStackBytes (c : CollCfg) (n : Nat) : Nat := replicaBytes c n + (if c.idInStack then idColBytes n else 0)

/-- Far-tier bytes of a list of n slots. -/
def listFarBytes (c : CollCfg) (n : Nat) : Nat := resColBytes c n + (if c.idInStack then 0 else idColBytes n)

/-- Stack and far bytes of one fresh shard. -/
def shardStackBytes (c : CollCfg) : Nat := listStackBytes { c with idInStack := true } (shardSlots c)
def shardFarBytes (c : CollCfg) : Nat := resColBytes c (shardSlots c)

/-- ID-map bytes. -/
def idMapBytes (c : CollCfg) : Nat := cdiv c.maxEntries 7 * 64

/-- Codebook or scale-table bytes. -/
def codebookBytes (c : CollCfg) : Nat :=
  match c.codeType with
  | 0 => 256 * c.dim * 4
  | 1 => 16 * c.dim * 4
  | 4 => 0
  | _ => c.dim * 4

def dirBytes (c : CollCfg) : Nat := pages4K (64 * c.listCount)
def centBytes (c : CollCfg) : Nat := pages4K (4 * c.listCount * c.dim)
def resScaleBytes (c : CollCfg) : Nat := if c.resFmt = 5 ∨ c.resFmt = 6 then 4 * c.dim else 0

/-- Home-stack bytes. -/
def homeBytes (c : CollCfg) : Nat := dirBytes c + centBytes c + pages4K (codebookBytes c) + pages4K (resScaleBytes c)

/-- The rows of Table 4.8 for e entries: stacks, home stack, far tier (R117). -/
def spaceRows (c : CollCfg) (e : Nat) : Nat × Nat × Nat :=
  (e * stride c + cdiv e 8 + e * c.attrBytes + (if c.idInStack then 8 * e else 0) +
     c.freshCap * (stride c + 8 + c.attrBytes) + c.freshCap / 8,
   4 * c.listCount * c.dim + codebookBytes c + 64 * c.listCount,
   (if c.idInStack then 0 else 8 * e) + e * recordSize c + idMapBytes c + c.freshCap * recordSize c)

/-- Bytes of a list image, and of the rest of an image (R299, R300; log entry 21). -/
def listImageBytes (c : CollCfg) (n : Nat) : Nat := n * stride c + cdiv n 8 + n * c.attrBytes + 8 * n + n * recordSize c
def restImageBytes (c : CollCfg) : Nat := let r := spaceRows c 0; r.1 + r.2.1 + r.2.2

/-- The parts of an image with number i: those of the lists `mine` names are new, other list images are the old image's. -/
def imageParts (d : CollData) (i : Nat) (mine : Nat → Bool) (old : List ImgPart) : List ImgPart :=
  { list := none, img := i, bytes := restImageBytes d.cfg } ::
  d.lists.zipIdx.map (fun l =>
    match (if mine l.2 then none else old.find? (fun p => p.list == some l.2)) with
    | some p => p
    | none => { list := some l.2, img := i, bytes := listImageBytes d.cfg l.1.slots.length })

/-- Bytes of parts. -/
def partBytes (ps : List ImgPart) : Nat := sumN (ps.map ImgPart.bytes)

/-- Bytes a whole image of a content holds. -/
def imageBytes (d : CollData) : Nat := partBytes (imageParts d 0 (fun _ => true) [])

/-- The stack with the most free usable capacity, lowest number on a tie, given free bytes per stack. -/
def mostFree (free : List Nat) : Nat := (findIdx (· == maxL free) free 0).getD 0

/-- Free bytes of every stack. -/
def State.stackFree (s : State) : List Nat := (List.range 12).map (fun t => blockBytes * s.freeBlocks t)

end Sys2Proof.Machine
end

