-- ==== Sys2Proof/Machine/DevMem.lean ====
section
/-!
DEFINITION. What device memory holds: the collection table, directories, columns and parameters at the addresses the
layout gives them (R134 to R138), other memory as stored; lines a read cannot serve; buffers that commands read and
write (R92, R375); the memory events and the repair ladder (R392 to R398, R403).
-/

namespace Sys2Proof.Machine

/-! ### Layout (R134 to R138) -/

/-- Distinct live IDs, slots in use and fresh entries in use. -/
def CollData.entries (d : CollData) : List Entry := d.lists.flatMap IList.slots ++ d.fresh.map Fresh.entry
def CollData.liveIds (d : CollData) : List Nat := dedupBy id ((d.entries.filter (fun e => !e.dead)).map Entry.id) []
def CollData.used (d : CollData) : Nat := d.entries.length

/-- Fresh entries in use: those of the current version and those that older bound queries still hold (R142). -/
def State.freshUsed (s : State) (c : Nat) : Nat :=
  let held := s.qm.cmds.flatMap (fun x => if dObject x.desc = c ∧ isSearch (dOpcode x.desc) then
    (match x.query.bind QueryWork.bound with | some d => d.fresh.map Fresh.index | none => []) else [])
  (dedupBy id ((s.coll c).data.fresh.map Fresh.index ++ held) []).length

/-- Entries that a COMPACT or TRAIN has placed beyond those of the state it bound: they count from their placement (R142; log
entry 129). -/
def State.placedExtra (s : State) (c : Nat) : Nat :=
  sumN (s.qm.cmds.map (fun x => if dObject x.desc = c ∧ (dOpcode x.desc = opCompact ∨ dOpcode x.desc = opTrain) then
    (match x.job.bind Job.bound, x.job.bind Job.result with
     | some b, some r => r.used - b.used
     | _, _ => 0) else 0))

/-- STATE of Table 4.6 as its code. -/
def collStateCode : CollState → Nat
  | .free => 0 | .building => 1 | .ready => 2 | .exclusive => 3 | .failed => 4

/-- Entry c of the collection table (Table 4.7); a collection that awaits recovery shows R302's fields. -/
def State.tableEntry (s : State) (c : Nat) : List Byte :=
  let k := s.coll c
  let d := k.data
  if k.recovering then
    natBytes 1 0 ++ natBytes 1 k.owner ++ natBytes 1 0x24 ++ natBytes 125 0 ++ padTo 0 128 d.cfg.raw
  else if k.state = .free then natBytes 256 0
  else
    natBytes 1 (collStateCode k.state) ++ natBytes 1 k.owner ++ natBytes 1 k.busyOp ++ natBytes 1 d.home ++
    natBytes 4 d.epoch ++ natBytes 8 d.liveIds.length ++ natBytes 8 (d.used + s.placedExtra c) ++ natBytes 4 (s.freshUsed c) ++ natBytes 4 0 ++
    natBytes 8 k.applied ++ natBytes 8 d.dir ++ natBytes 8 d.centDpa ++ natBytes 8 d.cbDpa ++ natBytes 8 d.resScaleDpa ++
    natBytes 56 0 ++ padTo 0 128 d.cfg.raw

/-- Directory entry of a list (Table 4.9). -/
def dirEntry (l : IList) : List Byte :=
  natBytes 8 l.cols.code ++ natBytes 4 l.slots.length ++ natBytes 4 l.capacity ++ natBytes 8 l.cols.tomb ++
  natBytes 8 l.cols.attr ++ natBytes 8 l.cols.id ++ natBytes 8 l.cols.res ++ natBytes 4 l.epoch ++
  natBytes 4 (l.stack + 16 * l.replica.getD 0 + 256 * bit l.replica.isSome) ++
  natBytes 4 (l.slots.filter (fun e => !e.dead)).length ++ natBytes 4 0

/-- Byte o of element i of a column of n elements of w bytes. -/
def colByte (w o : Nat) (els : List (List Byte)) : Byte := (els.getD (o / max 1 w) []).getD (o % max 1 w) 0

/-- A region of memory: base, length and content by offset. -/
structure Region where
  base : Nat
  len : Nat
  bytes : List Byte
  deriving DecidableEq, Repr

/-- Tombstone bitmap of the dead flags of slots 0 … . -/
def tombBytes (dead : List Bool) : List Byte :=
  (List.range (cdiv dead.length 8)).map (fun i =>
    BitVec.ofNat 8 (sumN ((List.range 8).map (fun k => bit (dead.getD (8 * i + k) false) * 2 ^ k))))

/-- The regions of one column set over slots. -/
def colRegions (c : CollCfg) (k : Cols) (slots : List Entry) : List Region :=
  let put := fun base (bs : List Byte) => ({ base := base, len := bs.length, bytes := bs } : Region)
  [put k.code (slots.flatMap (fun e => padTo 0 (stride c) e.code)), put k.tomb (tombBytes (slots.map Entry.dead)),
   put k.attr (slots.flatMap (fun e => padTo 0 c.attrBytes e.attr))]

/-- ID column and residual records. -/
def idRegions (c : CollCfg) (k : Cols) (slots : List Entry) : List Region :=
  let put := fun base (bs : List Byte) => ({ base := base, len := bs.length, bytes := bs } : Region)
  [put k.id (slots.flatMap (fun e => natBytes 8 e.id)), put k.res (slots.flatMap (fun e => padTo 0 (recordSize c) e.res))]

/-- What a shard slot below the last entry holds when its entry has moved or was dropped: a tombstone (R293 step 6). -/
def noEntry : Entry := { id := 0, code := [], attr := [], dead := true, res := [] }

/-- The slots of fresh shard h up to its last entry. -/
def shardEntries (d : CollData) (h : Nat) : List Entry :=
  let fs := d.fresh.filter (fun f => f.index % 12 == h)
  let n := maxL (fs.map (fun f => freshSlot d.cfg f.index + 1))
  (List.range n).map (fun i => ((fs.find? (fun f => freshSlot d.cfg f.index == i)).map Fresh.entry).getD noEntry)

/-- Every region of a collection's structures whose layout is part of the interface. -/
def CollData.regions (d : CollData) : List Region :=
  let put := fun base (bs : List Byte) => ({ base := base, len := bs.length, bytes := bs } : Region)
  [put d.dir (d.lists.flatMap dirEntry), put d.centDpa (d.centroids.flatten.flatMap (natBytes 4)),
   put d.cbDpa (d.codebook.flatMap (natBytes 4)), put d.resScaleDpa (d.resScale.flatMap (natBytes 4))] ++
  d.lists.flatMap (fun l => colRegions d.cfg l.cols l.slots ++ idRegions d.cfg l.cols l.slots ++
    (if l.replica.isSome then colRegions d.cfg l.repCols l.slots else [])) ++
  d.freshCols.zipIdx.flatMap (fun k => colRegions d.cfg k.1 (shardEntries d k.2) ++ idRegions d.cfg k.1 (shardEntries d k.2))

/-- The region that holds address a. -/
def Region.has (r : Region) (a : Nat) : Bool := decide (r.base ≤ a ∧ a < r.base + r.len ∧ r.base ≠ 0)

/-- One byte of device memory: structures as written (R289), then stored bytes, then internal structures. -/
def State.devByte (s : State) (regs : List Region) (a : Nat) : Byte :=
  if a < farBase ∧ a % stackBytes < 262144 then (s.tableEntry (a % stackBytes / 256)).getD (a % 256) 0
  else match regs.find? (fun r => r.has a) with
    | some r => r.bytes.getD (a - r.base) 0
    | none => if s.blockHeld (a / blockBytes) then BitVec.ofNat 8 (Config.innerByte a s.freeCtr) else memGet s.mem.dev a

/-- n bytes of device memory. -/
def State.devRead (s : State) (a n : Nat) : List Byte :=
  let regs := s.colls.flatMap (fun c => c.2.phys.regions)
  (List.range n).map (fun i => s.devByte regs (a + i))

/-! ### Lines that cannot be served -/

/-- A line is missing with its block, or lies above the usable top. -/
def State.lineGone (s : State) (line : Nat) : Bool :=
  s.mem.missing.any (fun m => m.block == line / blockBytes) || !s.usable line

/-- A missing block whose rebuild may start: it has a source, and a free block of its tier when it needs one. -/
def State.canRebuild (s : State) (m : Missing) : Bool :=
  m.source && !m.running && (!m.room || decide (0 < s.freeBlocks (tierOf m.block)))

/-- A read of a line fails: uncorrectable, missing or above the top (R141, R395, R396). -/
def State.lineBad (s : State) (line : Nat) : Bool := s.mem.bad.contains line || s.lineGone line

/-- Bad lines among n bytes from a. -/
def State.badLines (s : State) (a n : Nat) : List Nat :=
  if n = 0 then [] else
  ((List.range ((a + n - 1) / 64 - a / 64 + 1)).map (fun i => (a / 64 + i) * 64)).filter s.lineBad

/-- The bad lines of a collection's table entry: a line is lost only where every copy of it is (R134, R141). -/
def State.tableLinesBad (s : State) (o : Nat) : List Nat :=
  (List.range 4).flatMap (fun i =>
    let ls := (List.range 12).map (fun t => t * stackBytes + 256 * o + 64 * i)
    if ls.all s.lineBad then ls else [])

/-- The bad lines of the structures that routing, assignment and encoding need: centroids, codebook or scale table, residual
scales (R141). -/
def routeLinesBad (s : State) (d : CollData) : List Nat :=
  s.badLines d.centDpa (4 * d.cfg.dim * d.cfg.listCount) ++
  (if d.cfg.codeType = 4 then [] else s.badLines d.cbDpa (4 * d.codebook.length))
def encodeLinesBad (s : State) (d : CollData) : List Nat :=
  routeLinesBad s d ++ (if d.cfg.resFmt = 5 ∨ d.cfg.resFmt = 6 then s.badLines d.resScaleDpa (4 * d.cfg.dim) else [])

/-- The bad directory lines of lists. -/
def dirLinesBad (s : State) (d : CollData) (lists : List Nat) : List Nat :=
  lists.flatMap (fun l => s.badLines (d.dir + 64 * l) 64)

/-! ### Memory events and repair (R394 to R398, R403) -/

/-- The n channels of a range of n × 4 KiB, in the order in which its 4 KiB units lie in them (R374). -/
def channelOrder (range n : Nat) : List Nat :=
  sortBy (fun a b => decide (Config.channelKey range a < Config.channelKey range b)) (List.range n)

/-- The channel that a line's 4 KiB unit lies in with every channel active: each 64 KiB of a stack and each 32 KiB of the far tier
has one unit in each. -/
def lineChannel (line : Nat) : Nat :=
  let n := if line < farBase then 16 else 8
  lget 0 (channelOrder (line / (4096 * n)) n) (line / 4096 % n)

/-- One of the channels left that backs a line of a lost one (R395). -/
def survivor (line : Nat) (left : List Nat) : Nat := lget 0 left (Config.survivorOf line % left.length)

/-- The memory unit of a line: its stack, or its far-tier channel, or one that survives where that is mapped out. -/
def State.unitOfLine (s : State) (line : Nat) : Nat :=
  if line < farBase then line / stackBytes
  else
    let u := 12 + lineChannel line
    if (s.memUnit u).out = 0 then u
    else survivor line (((List.range 8).map (12 + ·)).filter (fun v => decide ((s.memUnit v).out = 0)))

/-- The channel of a line in its unit: its own, the spare that took it, or a surviving one. -/
def State.chanOfLine (s : State) (line : Nat) : Nat :=
  if farBase ≤ line then 0
  else
    let m := s.memUnit (line / stackBytes)
    let k := lineChannel line
    if bitsOf m.active k 1 = 1 then k
    else if bitsOf m.failed k 1 = 1 ∧ bitsOf m.active 16 1 = 1 then 16
    else survivor line ((List.range 17).filter (fun c => bitsOf m.active c 1 == 1))

/-- Event unit kind and number of a memory unit (Table 16.2). -/
def unitKind (u : Nat) : Nat := if u < 12 then 4 else 5
def unitNum (u : Nat) : Nat := if u < 12 then u else u - 12

/-- UNITS as the registers report them for a memory unit. -/
def State.unitsOf (s : State) (u : Nat) : Nat := if u < 12 then s.stkUnits u else s.farUnits

/-- Log an event in the ERR pair of its tier (R403). -/
def State.errLog (s : State) (u type ch addr : Nat) : State :=
  let log := fun (e : ErrReg) => if e.valid then { e with overflow := true }
    else { e with addr := addr, valid := true, type := type, unit := unitNum u, channel := if u < 12 then ch else 0 }
  { s with mem := { s.mem with errs := lmod s.mem.errs (if u < 12 then 0 else 1) log } }

/-- Add to a lifetime record (R470). -/
def State.life (s : State) (i n : Nat) : State :=
  { s with mgt := { s.mgt with life := lmod s.mgt.life i (· + n) } }

/-- A block of content with a rebuild source (Table 13.12): collection structures, collection table copies, and working
copies of far-tier models. -/
def State.rebuildable (s : State) (b : Nat) : Bool :=
  (decide (b < farFirstBlock) && b % blocksPerStack == 0) ||
  s.colls.any (fun c => c.2.data.runs.any (fun e => e.has b) && s.jrn.images.any (fun i => i.1 == c.1)) ||
  s.sch.parts.any (fun p => p.2.modelArea.any (fun e => e.has b))

/-- Block b becomes missing (R394 to R396); `room` says its backing was discarded. Free blocks hold nothing to lose. -/
def State.missBlock (s : State) (room : Bool) (b : Nat) : State :=
  if s.mem.missing.any (fun m => m.block == b) || !(s.blockHeld b || s.inHostRegion (b * blockBytes) blockBytes) then s
  else
    let src := s.rebuildable b
    let wait := room && s.freeBlocks (tierOf b) == 0
    let s1 := { s with mem := { s.mem with missing := s.mem.missing ++ [{ block := b, source := src, room := room }] } }
    let u := s.unitOfLine (b * blockBytes)
    if !src then s1.event 0x0025 3 (unitKind u) (unitNum u) 0 (b * blockBytes)
    else if wait then s1.event 0x0025 3 (unitKind u) (unitNum u) 1 (b * blockBytes) else s1

/-- Blocks of tier t from `lo` up that a structure or the host region holds. -/
def State.heldIn (s : State) (lo hi : Nat) : List Nat :=
  let rs := s.usedRuns ++ [{ first := farFirstBlock, count := 128 * s.mem.farHost }] ++
    (List.range 12).map (fun t => { first := t * blocksPerStack, count := 8 })
  sortBy (fun a b => decide (a < b)) (dedupBy id (rs.flatMap (fun e =>
    ((List.range e.count).map (· + e.first)).filter (fun b => decide (lo ≤ b ∧ b < hi)))) [])

/-- A stack goes out of service: nothing of it can be read (R395). -/
def State.stackOut (s : State) (u cause : Nat) : State :=
  let s := s.modUnit u (fun m => { m with oos := true, evac := none })
  (s.errLog u 8 0 0).event 0x0024 3 4 u cause 0

/-- CHANNEL_MAP_OUT (R395): usable capacity falls from the top, blocks with lines of the channel become missing. -/
def State.mapOut (s : State) (u ch : Nat) : State :=
  let m := s.memUnit u
  let top0 := if u < 12 then u * blocksPerStack + 128 * m.units else farFirstBlock + 128 * s.farUnits
  let s := if u < 12 then s.modUnit u (fun m => { m with active := m.active &&& (2 ^ 17 - 1 - 2 ^ ch), out := m.out ||| 2 ^ ch, units := m.units - 12 })
           else s.modUnit u (fun m => { m with active := 0, out := 1 })
  let top := if u < 12 then u * blocksPerStack + 128 * (s.memUnit u).units else farFirstBlock + 128 * s.farUnits
  let lo := if u < 12 then u * blocksPerStack else farFirstBlock
  let s := (s.heldIn lo top).foldl (State.missBlock · false) s
  let s := (s.heldIn top top0).foldl (State.missBlock · true) s
  let s := { s with mem := { s.mem with dev := s.mem.dev.filter (fun c => !decide (top * blockBytes ≤ c.1 ∧ c.1 < top0 * blockBytes)),
                                        farHost := min s.mem.farHost s.farUnits } }
  let s := s.life 14 1
  let s := (s.errLog u 7 ch 0).event 0x0023 2 (unitKind u) (unitNum u) ch (s.unitsOf u)
  let s := s.event 0x0011 2 (unitKind u) (unitNum u) (s.unitsOf u) 0
  let left := ((List.range 17).filter (fun c => bitsOf (s.memUnit u).active c 1 == 1)).length
  if u < 12 ∧ left < 8 then s.stackOut u 2 else s

/-- A failing channel: a stack's free spare takes it and a still-readable channel is evacuated; else it is mapped out
(R394). -/
def State.channelFail (s : State) (u ch : Nat) : State :=
  let m := s.memUnit u
  let spare := (List.range 17).find? (fun c => bitsOf (m.active ||| m.out ||| m.failed) c 1 == 0)
  match (if u < 12 ∧ m.evac = none then spare else none) with
  | some sp =>
    let s := s.modUnit u (fun m => { m with active := (m.active &&& (2 ^ 17 - 1 - 2 ^ ch)) ||| 2 ^ sp,
                                            failed := m.failed ||| 2 ^ ch, evac := some (ch, sp) })
    let s := s.life 14 1
    (s.errLog u 6 ch 0).event 0x0022 1 4 u ch sp
  | none => s.mapOut u ch

/-- Level-2 spares a channel has left. -/
def MemUnit.l2At (m : MemUnit) (u ch : Nat) : Nat := tget (if u < 12 then 512 else 4096) m.l2Left ch

/-- ROW_REPAIR of the row of a line (R394): level 1, level 2, or retirement of its page. -/
def State.rowRepair (s : State) (line : Nat) : State :=
  let u := s.unitOfLine line
  let ch := s.chanOfLine line
  let row := Config.rowOf line
  let m := s.memUnit u
  let moved : State → State := fun s => { s with mem := { s.mem with told := s.mem.told.filter (fun l => Config.rowOf l != row) } }
  let bank := (m.fixed.filter (fun r => Config.bankOf r == Config.bankOf row)).length
  if !m.fixed.contains row ∧ bank < (if u < 12 then 4 else 1) then
    let s := s.modUnit u (fun m => { m with l1 := satN 16 (m.l1 + 1), fixed := m.fixed ++ [row] })
    ((moved s).life 12 1).errLog u 3 ch line
  else if 0 < m.l2At u ch then
    let s := s.modUnit u (fun m => { m with l2 := satN 16 (m.l2 + 1), l2Left := tset m.l2Left ch (m.l2At u ch - 1) })
    let s := ((moved s).life 12 1).errLog u 4 ch line
    if u < 12 ∧ (s.memUnit u).l2At u ch = 0 then s.channelFail u ch else s
  else
    let page := line / 4096 * 4096
    let s := s.modUnit u (fun m => { m with retired := satN 16 (m.retired + 1) })
    let s := { s with mem := { s.mem with pages := s.mem.pages ++ [page] } }
    let s := ((s.life 13 1).errLog u 5 ch page).event 0x0021 2 (unitKind u) (unitNum u) ch page
    s.missBlock false (page / blockBytes)

/-- A read finds an uncorrectable line (R394, R398): logged, recorded once, and its row repaired once; that repair re-arms
the records of the row's other lines, which it moves, not of the line it follows (log entry 24). -/
def State.meetBad (s : State) (line : Nat) : State :=
  let u := s.unitOfLine line
  let ch := s.chanOfLine line
  let s := { s with mem := { s.mem with bad := if s.mem.bad.contains line then s.mem.bad else s.mem.bad ++ [line] } }
  let s := s.errLog u 1 ch line
  if s.mem.told.contains line then s
  else
    let s := (s.event 0x0020 2 (unitKind u) (unitNum u) ch line).rowRepair line
    { s with mem := { s.mem with told := s.mem.told ++ [line] } }

/-- ns in an hour. -/
def hourNs : Nat := 3600000000000

/-- A read corrects an error of a line (R394): counted, repaired at its second error in the scrub period, and the
channel fails past 4,096 in an hour of Primrose's counter. -/
def State.meetCorrected (s : State) (line : Nat) : State :=
  let u := s.unitOfLine line
  let ch := s.chanOfLine line
  let row := Config.rowOf line
  let hour := s.mgt.prSec / 3600
  let period := hourNs * max 1 (fld (lget 0 s.mem.scrub (if u < 12 then 0 else 1)) 0 8)
  let m := s.memUnit u
  let m := if m.hourFrom = hour then m else { m with hourFrom := hour, hour := [] }
  let m := if s.hif.timer < m.rowsFrom + period then m else { m with rowsFrom := s.hif.timer, rows := [] }
  let again := m.rows.contains row || m.fixed.contains row
  let n := tget 0 m.hour ch + 1
  let s := s.modUnit u (fun _ => { m with ce := satN 64 (m.ce + 1), hour := tset m.hour ch n, rows := if again then m.rows else m.rows ++ [row] })
  let s := s.errLog u 0 ch line
  let s := if again then s.rowRepair line else s
  if n = 4097 then s.channelFail u ch else s

/-- A full-line write gives a line valid check bits (R398). -/
def State.lineWritten (s : State) (line : Nat) : State :=
  { s with mem := { s.mem with bad := s.mem.bad.filter (· != line), told := s.mem.told.filter (· != line) } }

/-- A read of any kind meets lines: those that are uncorrectable are logged and recorded (R398). -/
def State.meetRead (s : State) (lines : List Nat) : State := (lines.filter s.mem.bad.contains).foldl State.meetBad s

/-! ### Buffers of commands (R92, R375) -/

/-- Read n bytes of a command's buffer, or the status its failure gives. -/
def State.bufRead (s : State) (dev : Bool) (a n : Nat) : Except Nat (List Byte) :=
  if dev then (if (s.badLines a n).isEmpty then .ok (s.devRead a n) else .error stUncorrectable)
  else if s.hostOk a n then .ok (s.hostRead a n) else .error stHostMemFault

/-- A failed read of a buffer meets its uncorrectable lines. -/
def State.bufMet (s : State) (dev : Bool) (a n : Nat) : State := if dev then s.meetRead (s.badLines a n) else s

/-! ### The write-combining buffer (R384, R385) -/

/-- Entries of the buffer. -/
def wcbEntries : Nat := 65536

/-- A device write to the bytes `mask` of a line: a full line replaces its entry, other writes merge into it; a full mask,
and the least recently written entry of a full buffer, go to memory. -/
def State.wcbPut (s : State) (line mask : Nat) : State :=
  let old := match s.mem.wcb.find? (fun e => e.1 == line) with | some e => e.2 | none => 0
  let rest := s.mem.wcb.filter (fun e => e.1 != line)
  let m := old ||| mask
  let es := if m = 2 ^ 64 - 1 then rest else rest ++ [(line, m)]
  { s with mem := { s.mem with wcb := lastN wcbEntries es } }

/-- A device write of n bytes at a. -/
def State.wcbWrite (s : State) (a n : Nat) : State :=
  if n = 0 then s
  else ((List.range ((a + n - 1) / 64 - a / 64 + 1)).map (fun i => (a / 64 + i) * 64)).foldl (fun s line =>
    let lo := max a line - line
    let hi := min (a + n) (line + 64) - line
    s.wcbPut line (2 ^ hi - 2 ^ lo)) s

/-- The entries of lines from a up to a + n are written to memory. -/
def State.wcbDrop (s : State) (a n : Nat) : State :=
  { s with mem := { s.mem with wcb := s.mem.wcb.filter (fun e => !decide (a / 64 * 64 ≤ e.1 ∧ e.1 < a + n)) } }

/-- Put bytes into device memory outside structures; full lines get valid check bits. -/
def State.devMemPut (s : State) (a : Nat) (bs : List Byte) : State :=
  let full := ((List.range (bs.length / 64 + 1)).map (fun i => (cdiv a 64 + i) * 64)).filter (fun l => decide (l + 64 ≤ a + bs.length))
  full.foldl State.lineWritten { s with mem := { s.mem with dev := memWrite s.mem.dev a bs } }

/-- A device write outside structures passes the write-combining buffer. -/
def State.devWrite (s : State) (a : Nat) (bs : List Byte) : State := (s.wcbWrite a bs.length).devMemPut a bs

/-- Write a command's buffer: none when the host access fails. -/
def State.bufWrite (s : State) (dev : Bool) (a : Nat) (bs : List Byte) : Option State :=
  if dev then some (s.devWrite a bs) else if s.hostOk a bs.length then some (s.hostWrite a bs) else none

end Sys2Proof.Machine
end

