-- ==== Sys2Proof/Machine/Layout.lean ====
section
/-!
DEFINITION. Where a collection's structures go: the home stack's structures, the fresh shards, and lists placed under
R140 or as the host says, packed in 4 KiB pages into runs of 2 MiB blocks (R138 to R140, R143, R154; log entry 20).
-/

namespace Sys2Proof.Machine

/-- A run of n blocks of tier t beside those already taken, or none. -/
def State.allocRun (s : State) (taken : List Extent) (t n : Nat) : Option (Extent × State) :=
  if n = 0 then some ({ first := 0, count := 0 }, s)
  else
    let r := s.poolRange t
    let f := s.free
    match pickRun (freeRuns (s.usedRuns ++ s.barredRuns ++ taken) r.1 r.2) (t == 12) f.1 n with
    | none => none
    | some b =>
      let e : Extent := { first := b, count := n }
      some (e, { f.2 with mem := { f.2.mem with missing := f.2.mem.missing.filter (fun m => !e.has m.block) } })

/-- The blocks that n bytes from a touch. -/
def spanOf (a n : Nat) : Extent :=
  if n = 0 then { first := 0, count := 0 } else { first := a / blockBytes, count := (a + n - 1) / blockBytes - a / blockBytes + 1 }

/-- Pieces laid one after another where they fit first among runs: the bytes taken of each run, and each piece's run and
offset. -/
def fitPieces (runs : List Extent) (ps : List Nat) : Option (List Nat × List (Nat × Nat)) :=
  ps.foldl (fun (acc : Option (List Nat × List (Nat × Nat))) n =>
    match acc with
    | none => none
    | some (fills, out) =>
      match findIdx (fun (x : Extent × Nat) => decide (x.2 + n ≤ x.1.count * blockBytes)) (runs.zip fills) 0 with
      | some i => some (lmod fills i (· + n), out ++ [(i, lget 0 fills i)])
      | none => if n = 0 then some (fills, out ++ [(0, 0)]) else none) (some (runs.map (fun _ => 0), []))

/-- Offsets of pieces laid one after another. -/
def offsets : Nat → List Nat → List Nat
  | _, [] => []
  | a, n :: t => a :: offsets (a + n) t

/-- Lay pieces, each in one stretch, on tier t beside what is taken: in one run where one holds them all, else over
several. Their addresses, the runs they take, or none. -/
def State.fit (s : State) (taken : List Extent) (t : Nat) (ps : List Nat) : Option (List Nat × List Extent × State) :=
  match s.allocRun taken t (cdiv (sumN ps) blockBytes) with
  | some (e, s) => some (offsets (e.first * blockBytes) ps, [e], s)
  | none =>
    let r := s.poolRange t
    let free := freeRuns (s.usedRuns ++ s.barredRuns ++ taken) r.1 r.2
    let runs := if t = 12 then free.reverse else free
    match fitPieces runs ps with
    | none => none
    | some (fills, places) =>
      let es := List.zipWith (fun (e : Extent) n =>
        let m := cdiv n blockBytes
        ({ first := if t = 12 then e.first + e.count - m else e.first, count := m } : Extent)) runs fills
      some (places.map (fun p => (es.getD p.1 { first := 0, count := 0 }).first * blockBytes + p.2),
            es.filter (fun e => decide (0 < e.count)),
            { s with mem := { s.mem with missing := s.mem.missing.filter (fun m => !es.any (fun e => e.has m.block)) } })

/-- The column sizes of n slots in a stack (code, tombstones, attributes, IDs) and in the far tier (records, IDs). -/
def stackPieces (c : CollCfg) (idStack : Bool) (n : Nat) : List Nat :=
  [codeColBytes c n, tombColBytes n, attrColBytes c n, if idStack then idColBytes n else 0]
def farPieces (c : CollCfg) (idStack : Bool) (n : Nat) : List Nat := [resColBytes c n, if idStack then 0 else idColBytes n]

/-- Columns at the addresses of their pieces; `idStack` says where the ID column lies. -/
def colsAt (c : CollCfg) (idStack : Bool) (a far : List Nat) : Cols :=
  { code := lget 0 a 0, tomb := lget 0 a 1, attr := if c.attrBytes = 0 then 0 else lget 0 a 2,
    id := if idStack then lget 0 a 3 else lget 0 far 1, res := if c.resFmt = 0 then 0 else lget 0 far 0 }

/-- The block runs of pieces at addresses. -/
def pieceRuns (at' ps : List Nat) : List Extent := (List.zipWith spanOf at' ps).filter (fun e => decide (0 < e.count))

/-- Slots that the pages of every column hold. -/
def slotsIn (c : CollCfg) (n : Nat) : Nat :=
  let least := fun (m bytes w : Nat) => if w = 0 then m else min m (bytes / w)
  least (least (min (codeColBytes c n / stride c) (min (8 * tombColBytes n) (idColBytes n / 8))) (attrColBytes c n) c.attrBytes)
    (resColBytes c n) (recordSize c)

/-- Lists ordered for placement: decreasing code-column size, then index. -/
def placeOrder (c : CollCfg) (sizes : List (Nat × Nat)) : List (Nat × Nat) :=
  sortBy (fun a b => decide (b.2 * stride c < a.2 * stride c)) (sortBy (fun a b => decide (a.1 < b.1)) sizes)

/-- Place lists (index, slots) by R140, or on the stack `want` names; none when a stack cannot hold its list. -/
def placeLists (c : CollCfg) (want : Nat → Option Nat) (free : List Nat) (sizes : List (Nat × Nat)) : Option (List (Nat × Nat)) :=
  ((placeOrder c sizes).foldl (fun (acc : Option (List Nat × List (Nat × Nat))) x =>
    match acc with
    | none => none
    | some (fr, out) =>
      let t := (want x.1).getD (mostFree fr)
      let b := listStackBytes c x.2
      if b ≤ lget 0 fr t then some (lmod fr t (· - b), out ++ [(x.1, t)]) else none) (some (free, []))).map Prod.snd

/-- A list to lay out: index, slots, epoch, stack. -/
structure ListPlan where
  idx : Nat
  slots : List Entry
  epoch : Nat
  stack : Nat
  deriving DecidableEq, Repr

/-- Free bytes of each stack beside what is taken. -/
def State.freeBeside (s : State) (taken : List Extent) : List Nat :=
  (List.range 12).map (fun t =>
    let r := s.poolRange t
    blockBytes * sumN ((freeRuns (s.usedRuns ++ s.barredRuns ++ taken) r.1 r.2).map Extent.count))

/-- Lay the lists of one stack, their far columns at the addresses `farAt` gives. -/
def State.layStack (s : State) (c : CollCfg) (taken : List Extent) (farAt : Nat → List Nat) (ps : List ListPlan) (t : Nat) :
    Option (List (Nat × IList) × List Extent × State) :=
  let mine := ps.filter (fun p => p.stack == t)
  match s.fit taken t (mine.flatMap (fun p => stackPieces c c.idInStack p.slots.length)) with
  | none => none
  | some (at', es, s) =>
    let ls := (mine.zip (piecesOf 4 mine.length at')).map (fun p =>
      let n := p.1.slots.length
      let far := farAt p.1.idx
      let il : IList := if n = 0 then { epoch := p.1.epoch, stack := t }
        else { slots := p.1.slots, epoch := p.1.epoch, stack := t, capacity := slotsIn c n, cols := colsAt c c.idInStack p.2 far,
               runs := pieceRuns p.2 (stackPieces c c.idInStack n) ++ pieceRuns far (farPieces c c.idInStack n) }
      (p.1.idx, il))
    some (ls, taken ++ es, s)

/-- Lay out every planned list, the far columns first. -/
def State.layLists (s : State) (c : CollCfg) (taken : List Extent) (ps : List ListPlan) :
    Option (List (Nat × IList) × List Extent × State) :=
  match s.fit taken 12 (ps.flatMap (fun p => farPieces c c.idInStack p.slots.length)) with
  | none => none
  | some (fs, es, s) =>
    let at' := (ps.map ListPlan.idx).zip (piecesOf 2 ps.length fs)
    let farAt := fun i => ((at'.find? (fun x => x.1 == i)).map Prod.snd).getD []
    (List.range 12).foldl (fun (acc : Option (List (Nat × IList) × List Extent × State)) t =>
      match acc with
      | none => none
      | some (ls, tk, s) => match s.layStack c tk farAt ps t with
        | none => none
        | some (l2, tk, s) => some (ls ++ l2, tk, s)) (some ([], taken ++ es, s))

/-- The home stack's structures, the fresh shards and the ID map: addresses put into the content. Shard h lies on stack h
whatever its state (R138), so nothing is laid out while a stack has no room for its shard: the spec gives no other place
for the shard of a stack that is out of service (log entry 128). -/
def State.layHome (s : State) (d : CollData) : Option (CollData × List Extent × State) :=
  let c := d.cfg
  let home := mostFree s.stackFree
  match s.fit [] home [dirBytes c, centBytes c, pages4K (codebookBytes c), pages4K (resScaleBytes c)] with
  | none => none
  | some (h, hs, s) =>
    match s.fit hs 12 ((List.range 12).map (fun _ => shardFarBytes c) ++ [idMapBytes c]) with
    | none => none
    | some (f, fs, s) =>
      let sizes := stackPieces c true (shardSlots c)
      let shards := (List.range 12).foldl (fun (acc : Option (List Cols × List Extent × State)) t =>
        match acc with
        | none => none
        | some (ks, tk, s) => match s.fit tk t sizes with
          | none => none
          | some (a, es, s) => some (ks ++ [colsAt c true a [lget 0 f t]], tk ++ es, s))
        (some ([], hs ++ fs, s))
      match shards with
      | none => none
      | some (ks, tk, s) =>
        some ({ d with home := home, dir := lget 0 h 0, centDpa := lget 0 h 1, cbDpa := if c.codeType = 4 then 0 else lget 0 h 2,
                       resScaleDpa := if c.resFmt = 5 ∨ c.resFmt = 6 then lget 0 h 3 else 0, freshCols := ks,
                       homeRuns := tk.filter (fun e => decide (e.first < farFirstBlock ∧ 0 < e.count)), farRuns := fs }, tk, s)

/-- A list's replica under R154: on the stack with the most free capacity other than its own, when it has at least twice
the columns' size. -/
def State.layReplica (s : State) (c : CollCfg) (taken : List Extent) (l : IList) : Option (IList × List Extent × State) :=
  let n := l.slots.length
  let free := lmod (s.freeBeside taken) l.stack (fun _ => 0)
  let t := mostFree free
  if n = 0 ∨ lget 0 free t < 2 * replicaBytes c n then none
  else match s.fit taken t (stackPieces c false n) with
    | none => none
    | some (a, es, s) =>
      let k := colsAt c false a []
      some ({ l with replica := some t, repCols := { code := k.code, tomb := k.tomb, attr := k.attr },
                     repRuns := pieceRuns a (stackPieces c false n) }, taken ++ es, s)

/-- Replicas of every collection dropped, for a command that would otherwise find no space (R154). -/
def State.dropReplicas (s : State) : State :=
  let bare := fun (l : IList) => { l with replica := none, repCols := {}, repRuns := [] }
  let onData := fun (d : CollData) => { d with lists := d.lists.map bare }
  let f : Nat → Coll → Coll := fun _ k => { k with data := onData k.data, phys := onData k.phys }
  { s with colls := tmap f s.colls }

/-- Try an allocation, and once more with every replica dropped. -/
def State.orDropReplicas {α : Type} (s : State) (f : State → Option (α × State)) : Option (α × State) :=
  match f s with
  | some r => some r
  | none => f s.dropReplicas

end Sys2Proof.Machine
end

