-- ==== Sys2Proof/Machine/Hash.lean ====
section
/-!
DEFINITION. CRC-32C (R239) and SHAKE256 (the published standard that R436 to R439 and R318 name).
-/

namespace Sys2Proof.Machine

/-- One bit step of the reflected CRC-32C. -/
def crcBits : Nat → Nat → Nat
  | 0, c => c
  | n + 1, c => crcBits n (if c % 2 = 1 then (c >>> 1) ^^^ 0x82F63B78 else c >>> 1)

/-- CRC-32C of a byte string: polynomial 0x1EDC6F41 reflected, initial value and final XOR all ones. -/
def crc32c (bs : List Byte) : Nat :=
  (bs.foldl (fun c b => crcBits 8 (c ^^^ b.toNat)) 0xFFFFFFFF) ^^^ 0xFFFFFFFF

/-! ### Keccak-f[1600]; lane (x, y) is element x + 5y -/

/-- 64-bit rotation. -/
def rotl64 (v n : Nat) : Nat := ((v <<< n) ||| (v >>> (64 - n))) % 2 ^ 64

/-- A list turned left by k places. -/
def turn (k : Nat) (l : List Nat) : List Nat := l.drop k ++ l.take k

/-- θ on the five planes: every lane takes the parities of the two columns beside it. -/
def kTheta (p : List (List Nat)) : List (List Nat) :=
  let par := p.foldl (List.zipWith (· ^^^ ·)) (List.replicate 5 0)
  p.map (List.zipWith (· ^^^ ·) (List.zipWith (fun u v => u ^^^ rotl64 v 1) (turn 4 par) (turn 1 par)))

/-- Where π takes lane (x, y): to (y, 2x + 3y). -/
def kNext (i : Nat) : Nat := i / 5 + 5 * ((2 * (i % 5) + 3 * (i / 5)) % 5)

/-- ρ and π in one: from lane (1, 0) on, step t takes the lane to its place under π, rotated by (t + 1)(t + 2) / 2. `a` are the lanes
before, the last argument those moved so far. -/
def kMove (a : List Nat) : Nat → Nat → Nat → List Nat → List Nat
  | 0, _, _, b => b
  | n + 1, i, t, b => kMove a n (kNext i) (t + 1) (lmod b (kNext i) (fun _ => rotl64 (lget 0 a i) ((t + 1) * (t + 2) / 2 % 64)))

/-- χ on one plane. -/
def kChi (p : List Nat) : List Nat :=
  List.zipWith (· ^^^ ·) p (List.zipWith (fun u v => (2 ^ 64 - 1 - u) &&& v) (turn 1 p) (turn 2 p))

/-- The register behind ι: times X modulo X⁸ + X⁶ + X⁵ + X⁴ + 1. -/
def kReg (r : Nat) : Nat := if r < 128 then 2 * r else (2 * r) ^^^ 0x171

/-- The constant of a round, whose bits 2^j − 1 are the register's next seven low bits, and the register after it. -/
def kIota (r : Nat) : Nat × Nat :=
  (List.range 7).foldl (fun (w : Nat × Nat) j => (w.1 + w.2 % 2 * 2 ^ (2 ^ j - 1), kReg w.2)) (0, r)

/-- n rounds on 25 lanes, from register r on. -/
def kRounds : Nat → Nat → List Nat → List Nat
  | 0, _, a => a
  | n + 1, r, a =>
    let t := (kTheta (chunksOf 5 a)).flatten
    let c := (chunksOf 5 (kMove t 24 1 0 t)).flatMap kChi
    let w := kIota r
    kRounds n w.2 (lmod c 0 (· ^^^ w.1))

/-- The permutation: 24 rounds. -/
def keccakF (a : List Nat) : List Nat := kRounds 24 1 a

/-- XOR a rate block of 136 bytes into the state and permute. -/
def kAbsorb (a : List Nat) (blk : List Byte) : List Nat :=
  keccakF ((List.range 25).map (fun i => lget 0 a i ^^^ (if i < 17 then getLE blk (8 * i) 8 else 0)))

/-- The padded message: suffix 1111 and pad10*1 for SHAKE. -/
def shakePad (m : List Byte) : List Byte :=
  let r := 136 - m.length % 136
  if r = 1 then m ++ [0x9F] else m ++ [0x1F] ++ List.replicate (r - 2) 0 ++ [0x80]

/-- Squeeze n blocks of 136 bytes. -/
def kSqueeze : Nat → List Nat → List Byte
  | 0, _ => []
  | n + 1, a => (a.take 17).flatMap (natBytes 8) ++ kSqueeze n (keccakF a)

/-- SHAKE256 with n bytes of output. -/
def shake256 (m : List Byte) (n : Nat) : List Byte :=
  let st := (chunksOf 136 (shakePad m)).foldl kAbsorb (List.replicate 25 0)
  (kSqueeze (cdiv n 136) st).take n

end Sys2Proof.Machine
end

