-- ==== Sys2Proof/Machine/SearchCore.lean ====
section
/-!
DEFINITION. One query from what its stacks have delivered to its ranked entries: the lines of a slot, the per-stack sets
P_s, the final merge and refinement (R158 to R161, R196, R197, R209 to R216), and result blocks.
-/

namespace Sys2Proof.Machine

/-- The 64-byte line of an address. -/
def lineOf (a : Nat) : Nat := a / 64 * 64

/-- The lines that n ≥ 1 bytes from a touch. -/
def linesOf (a n : Nat) : List Nat := (List.range ((a + n - 1) / 64 - a / 64 + 1)).map (fun i => (a / 64 + i) * 64)

/-- The lines of slot s in the code and tombstone columns. -/
def codeLines (c : CollCfg) (k : Cols) (s : Nat) : List Nat := linesOf (k.code + s * stride c) (stride c) ++ [lineOf (k.tomb + s / 8)]

/-- The lines of slot s in the attribute column. -/
def attrLines (c : CollCfg) (k : Cols) (s : Nat) : List Nat :=
  if c.attrBytes = 0 then [] else linesOf (k.attr + s * c.attrBytes) c.attrBytes

/-- The line of slot s in an ID column. -/
def idLine (k : Cols) (s : Nat) : Nat := lineOf (k.id + 8 * s)

/-- The lines that exclude slot s for a query (R196, R197): bad lines of code and tombstone, and of attributes when it filters; and
every line of the column set that lies above the usable top, which counts as a code line. `ids` says that the IDs lie in the
stack. -/
def slotBad (bad gone : Nat → Bool) (c : CollCfg) (k : Cols) (ids filtered : Bool) (s : Nat) : List Nat :=
  (codeLines c k s).filter bad ++ (attrLines c k s).filter (fun ln => gone ln || (filtered && bad ln)) ++
  (if ids then [idLine k s].filter gone else [])

/-- One query's parameters for the scan. -/
structure QParams where
  q32 : List Nat
  q64 : List Nat
  qbits : List Byte
  k : Nat
  refineN : Nat
  refineFmt : Nat
  dedup : Bool
  filter : Option (List Byte)
  arg : Nat
  deriving DecidableEq, Repr

/-- The merge depth D (R157). -/
def QParams.depth (p : QParams) : Nat := if p.refineN = 0 then p.k else p.refineN + 64

/-- The fresh-segment list index in records and exclusions. -/
def freshList : Nat := 0xFFFFFFFF

/-- A query's merged outcome before refinement. -/
structure Merged where
  cands : List Cand := []
  nans : Nat := 0
  excls : List Excl := []
  cover : Nat := 0
  deriving DecidableEq, Repr

/-- Combine the covered stacks: P_s of each from what it has delivered, loss by retention (R215), final best D (R213). θ withholds
only candidates that P_s does not need, so what a stack has delivered stands for C_s (R157, R189). -/
def mergeStacks (d : CollData) (p : QParams) (q : QState) (cover : Nat) : Merged :=
  let sim := similarity d.cfg
  let held := fun (s : Nat) => q.held.filter (fun x => x.stack == s)
  let kept := (List.range 12).filter (fun s => bitsOf cover s 1 == 1 && decide (retention sim p.dedup p.depth (held s) ≤ 2 ^ 24))
  { cands := bestOf sim 32 p.dedup p.depth (kept.flatMap (fun s => bestOf sim 32 p.dedup p.depth (held s))),
    nans := sumN (kept.map (tget 0 q.nans)),
    excls := dedupBy (fun (x : Excl) => 2 ^ 32 * x.line + x.list) ((q.excls.filter (fun x => kept.contains x.1)).map Prod.snd) [],
    cover := sumN (kept.map (fun s => 2 ^ s)) }

/-- The stored entry behind a candidate, and the list whose centroid it was encoded with. -/
def candEntry (d : CollData) (a : Cand) : Option (Entry × Nat) :=
  if a.fresh then (d.fresh.find? (fun f => f.index % 12 == a.stack && freshSlot d.cfg f.index == a.slot)).map (fun f => (f.entry, f.list))
  else ((d.lists.getD a.list {}).slots[a.slot]?).map (fun e => (e, a.list))

/-- Bad lines of a candidate's residual record. -/
def resBad (bad : Nat → Bool) (d : CollData) (a : Cand) : List Nat :=
  let base := if a.fresh then (d.freshCols.getD a.stack {}).res else (d.lists.getD a.list {}).cols.res
  (linesOf (base + a.slot * recordSize d.cfg) (max 1 (d.cfg.dim * resElemBytes d.cfg.resFmt))).filter bad

/-- Refine in rank order until n are refined; a candidate with a bad record is excluded and the next takes its place.
Answers refined candidates, exclusions and the number excluded (R161). -/
def refineWalk (bad : Nat → Bool) (d : CollData) (p : QParams) : List Cand → Nat → List Cand × List Excl × Nat
  | [], _ => ([], [], 0)
  | _ :: _, 0 => ([], [], 0)
  | a :: t, n + 1 =>
    match resBad bad d a with
    | [] =>
      let r := refineWalk bad d p t n
      match candEntry d a with
      | some e => ({ a with score := refineScore d p.refineFmt p.q32 p.q64 e.2 e.1.res } :: r.1, r.2.1, r.2.2)
      | none => r
    | ls =>
      let r := refineWalk bad d p t (n + 1)
      (r.1, ls.map (fun ln => { line := ln, list := a.list, vectors := 1 }) ++ r.2.1, r.2.2 + 1)

/-- A query's ranked result. `stop` says more than 64 candidates were excluded in refinement, `reads` how many residual
records it read (R161). -/
structure Ranked where
  cands : List Cand := []
  wide : Bool := false
  nans : Nat := 0
  excls : List Excl := []
  cover : Nat := 0
  stop : Bool := false
  reads : Nat := 0
  deriving DecidableEq, Repr

/-- Stage 6 after stage 5, or the first K when REFINE_N = 0 (R16, R161, R208, R209). -/
def rankQuery (bad : Nat → Bool) (d : CollData) (p : QParams) (q : QState) (cover : Nat) : Ranked :=
  let m := mergeStacks d p q cover
  if p.refineN = 0 then { cands := m.cands.take p.k, nans := m.nans, excls := m.excls, cover := m.cover }
  else
    let r := refineWalk bad d p m.cands p.refineN
    let w := if p.refineFmt = 1 then Fmt.fp64 else Fmt.fp32
    let ok := r.1.filter (fun a => !isNaN w a.score)
    { cands := (sortBy (ranksBefore (similarity d.cfg) w.width) ok).take p.k, wide := p.refineFmt == 1,
      nans := m.nans + (r.1.length - ok.length), excls := m.excls ++ r.2.1, cover := m.cover,
      stop := decide (64 < r.2.2), reads := r.1.length + r.2.2 }

/-! ### Result blocks (R103, R164, R210, R211) -/

/-- A score as FP64, widened exactly (Table 3.22). -/
def scoreF64 (wide : Bool) (s : Nat) : Nat := if wide then s else convert .fp32 .fp64 s

/-- The padding score (Table 4.2; −∞ under RERANK). -/
def padScore (sim : Bool) : Nat := if sim then 0xFFF0000000000000 else 0x7FF0000000000000

/-- One result entry of 16 bytes. -/
def resultEntry (id score : Nat) : List Byte := natBytes 8 id ++ natBytes 8 score

/-- Exclusion entries, ascending and one per line and list. -/
def sortExcls (es : List Excl) : List Excl :=
  sortBy (fun a b => decide (a.line < b.line)) es

/-- A query's block up to its last exclusion entry; `valid` is VALID (R210). -/
def resultBlock (k : Nat) (sim : Bool) (status epoch cover valid invalid : Nat) (entries : List (Nat × Nat))
    (excls : List Excl) (outOff outBytes : Nat) : List Byte :=
  let xs := (sortExcls excls).take 64
  natBytes 2 valid ++ natBytes 2 k ++ natBytes 2 status ++ natBytes 2 xs.length ++ natBytes 8 invalid ++
  natBytes 4 epoch ++ natBytes 2 cover ++ natBytes 2 (bit (decide (64 < excls.length))) ++
  natBytes 4 outOff ++ natBytes 4 outBytes ++ natBytes 32 0 ++
  (entries.take k).flatMap (fun e => resultEntry e.1 e.2) ++
  (List.replicate (k - entries.length) (resultEntry 0xFFFFFFFFFFFFFFFF (padScore sim))).flatten ++
  xs.flatMap (fun e => natBytes 8 e.line ++ natBytes 4 e.list ++ natBytes 4 e.vectors)

end Sys2Proof.Machine
end

