-- ==== Sys2Proof/Machine/Records.lean ====
section
/-!
DEFINITION. Mutation records and their effect on a collection's content (R272 to R276, R290, R294), and the chain value
they advance (R436). The same operation applies a frame at its apply point and at recovery (R300).
-/

namespace Sys2Proof.Machine

/-! ### Records (Table 10.1) -/

/-- Bytes of one record of an opcode. -/
def recSize (c : CollCfg) (op : Nat) : Nat :=
  if op = opDelete then 8
  else if op = opAttrSet then 8 + 2 * c.attrBytes
  else roundUp (8 + c.attrBytes + srcBytes c) 8

/-- The records of a descriptor. -/
def splitRecs (c : CollCfg) (op : Nat) (bs : List Byte) : List (List Byte) := chunksOf (recSize c op) bs

/-- A record's ID, attribute word and elements. -/
def recId (r : List Byte) : Nat := getLE r 0 8
def recAttr (c : CollCfg) (r : List Byte) : List Byte := (r.drop 8).take c.attrBytes
def recEls (c : CollCfg) (r : List Byte) : List Nat := srcElems c (r.drop (8 + c.attrBytes))

/-- The opcode adds a fresh entry per record. -/
def addsFresh (op : Nat) : Bool := op == opInsert || op == opUpsert

/-- The reserved ID (R126). -/
def padId : Nat := 0xFFFFFFFFFFFFFFFF

/-- An ID is live. -/
def CollData.live (d : CollData) (id : Nat) : Bool := d.entries.any (fun e => !e.dead && e.id == id)

/-- Step 3 of R273 fails. -/
def badRecords (d : CollData) (op : Nat) (rs : List (List Byte)) : Bool :=
  let ids := rs.map recId
  ids.contains padId ||
  (addsFresh op && rs.any (fun r => (recEls d.cfg r).any (elemBad d.cfg))) ||
  (op == opInsert && (ids.any d.live || decide ((dedupBy id ids []).length < ids.length)))

/-! ### Effects (Table 10.2) -/

/-- The version keys of list l, of fresh shard h, and of that shard's tombstones and attribute words (R288, R290). -/
def listKey (l : Nat) : Nat := l
def shardKey (h : Nat) : Nat := 65536 + h
def marksKey (h : Nat) : Nat := 65552 + h

/-- New versions of lists and shards (R288). -/
def CollData.newVersions (d : CollData) (ks : List Nat) : CollData :=
  { d with vers := ks.foldl (fun t k => tmod 0 t k (· + 1)) d.vers }

/-- The keys of the lists and shards that hold a live entry of an ID. -/
def CollData.keysOf (d : CollData) (id : Nat) : List Nat :=
  let hit := fun (e : Entry) => !e.dead && e.id == id
  (d.lists.zipIdx.filter (fun l => l.1.slots.any hit)).map (fun l => listKey l.2) ++
  ((List.range 12).filter (fun h => d.fresh.any (fun f => f.index % 12 == h && hit f.entry))).flatMap (fun h => [shardKey h, marksKey h])

/-- Change every live entry of an ID: a new version of each list and shard that holds one, even where no bit changes. -/
def CollData.onId (d : CollData) (id : Nat) (f : Entry → Entry) : CollData :=
  let g := fun (e : Entry) => if !e.dead && e.id == id then f e else e
  { d with lists := d.lists.map (fun l => { l with slots := l.slots.map g }),
           fresh := d.fresh.map (fun x => { x with entry := g x.entry }),
           vers := (d.newVersions (d.keysOf id)).vers }

/-- The least logical index from f on whose shard slot is free (R138, R142). The fuel bounds the search. -/
def freeIndex (c : CollCfg) (busy : List Nat) : Nat → Nat → Nat
  | 0, f => f
  | n + 1, f => if busy.any (fun b => b % 12 == f % 12 && freshSlot c b == freshSlot c f) then freeIndex c busy n (f + 1) else f

/-- What applying one record or frame gives: the content, the next logical index, an absent ID, and the counts of R294
and R249. -/
structure Applied where
  data : CollData
  next : Nat
  absent : Bool := false
  elems : Nat := 0
  hits : Nat := 0
  sat : Nat := 0
  nan : Nat := 0
  deriving DecidableEq, Repr

/-- FP32 4.0. -/
def f32Four : Nat := 0x40800000

/-- Squared L2 distance of a vector from a centroid, in FP32 (R294). -/
def driftDist (v cent : List Nat) : Nat := reduceTerms .fp32 (List.zipWith (sqDiffTerm .fp32) v cent)

/-- Drift counts of an entry encoded by INSERT or UPSERT (R294): none for SQ collections. -/
def driftOf (c : CollCfg) (mean : Nat) (v cent : List Nat) : Nat × Nat :=
  if c.codeType = 2 ∨ c.codeType = 3 then (0, 0)
  else (c.dim, if ltV (decode .fp32 (fmul .fp32 f32Four mean)) (decode .fp32 (driftDist v cent)) then c.dim else 0)

/-- Apply one record (R274). `held` lists the logical indices that older bound queries still hold (R142). -/
def applyRec (held : List Nat) (mean op jseq : Nat) (a : Applied) (r : List Byte) : Applied :=
  let d := a.data
  let i := recId r
  if op = opDelete then
    if d.live i then { a with data := d.onId i (fun e => { e with dead := true }) } else { a with absent := true }
  else if op = opAttrSet then
    let n := d.cfg.attrBytes
    let v := (r.drop 8).take n
    let m := (r.drop (8 + n)).take n
    let upd := fun (e : Entry) =>
      { e with attr := (List.range n).map (fun k => (e.attr.getD k 0 &&& ~~~(m.getD k 0)) ||| (v.getD k 0 &&& m.getD k 0)) }
    if d.live i then { a with data := d.onId i upd } else { a with absent := true }
  else
    let d := d.onId i (fun e => { e with dead := true })
    let els := recEls d.cfg r
    let v := vecF32 d.cfg els
    let p := (spillLists d v).headD 0
    let en := encodeEntry d p i (recAttr d.cfg r) els
    let f := freeIndex d.cfg (d.fresh.map Fresh.index ++ held) (d.cfg.freshCap + 12) a.next
    let dr := driftOf d.cfg mean v (d.centroids.getD p [])
    let d := d.newVersions [shardKey (f % 12)]
    { a with data := { d with fresh := d.fresh ++ [{ index := f, entry := en.1, list := p, jseq := jseq, vec := els }] },
             next := f + 1, elems := a.elems + dr.1, hits := a.hits + dr.2, sat := a.sat + en.2.sat, nan := a.nan + en.2.nan }

/-- Apply records in order from a JSEQ. -/
def applyRecs (held : List Nat) (mean op : Nat) : Nat → Applied → List (List Byte) → Applied
  | _, a, [] => a
  | j, a, r :: t => applyRecs held mean op (j + 1) (applyRec held mean op j a r) t

/-! ### Chain value (R436) -/

/-- SHAKE256-512. -/
def shake512 (m : List Byte) : List Byte := shake256 m 64

/-- Absorb an event. -/
def absorb (g ev : List Byte) : List Byte := shake512 (g ++ ev)

/-- Absorb the records of a descriptor, in order (Table 15.2). -/
def absorbRecs (op hseq : Nat) (g : List Byte) (rs : List (List Byte)) : List Byte :=
  rs.zipIdx.foldl (fun g r => absorb g (natBytes 1 op ++ natBytes 8 hseq ++ natBytes 2 r.2 ++ r.1)) g

/-- The chain after a frame; a RESTORE marker absorbs nothing (R437). -/
def frameChain (c : CollCfg) (g : List Byte) (f : Frame) : List Byte :=
  if f.op = opRestore then g else absorbRecs f.op f.hseq g (splitRecs c f.op f.bytes)

/-- Chain and HOST_SEQ after digest events and frames, each event before the first frame above its JSEQ. -/
def replayChain (c : CollCfg) : Nat → Nat × List Byte → List (Nat × List Byte) → List Frame → Nat × List Byte
  | 0, a, _, _ => a
  | _ + 1, a, [], [] => a
  | n + 1, a, e :: es, [] => replayChain c n (a.1, absorb a.2 e.2) es []
  | n + 1, a, [], f :: fs => replayChain c n (f.hseq, frameChain c a.2 f) [] fs
  | n + 1, a, e :: es, f :: fs =>
    if e.1 < f.first then replayChain c n (a.1, absorb a.2 e.2) es (f :: fs)
    else replayChain c n (f.hseq, frameChain c a.2 f) (e :: es) fs

/-! ### Frames -/

/-- A frame's last JSEQ. -/
def Frame.last (f : Frame) : Nat := f.first + f.count - 1

/-- Apply a frame to a collection: content, APPLIED_JSEQ, HOST_SEQ and chain. -/
def Coll.applyFrame (k : Coll) (held : List Nat) (f : Frame) : Coll × Applied :=
  let rs := if f.op = opRestore then [] else splitRecs k.data.cfg f.op f.bytes
  let a := applyRecs held k.drift.mean f.op f.first { data := k.data, next := k.nextFresh } rs
  ({ k with data := a.data, nextFresh := a.next, applied := f.last, hseq := f.hseq, g := frameChain k.data.cfg k.g f }, a)

/-- A collection's frames with JSEQ above a mark, in JSEQ order. -/
def Jrn.framesAbove (j : Jrn) (c mark : Nat) : List Frame := j.frames.filter (fun f => f.coll == c && decide (mark < f.first))

end Sys2Proof.Machine
end

