-- ==== Sys2Proof/Machine/Power.lean ====
section
/-!
DEFINITION. Rails, cap controller, power modes, thermal fractions, throttle reasons and ramps
(14_power_thermal.md). The thermal trip and the reports that cause it stand in Reset.lean.
-/

namespace Sys2Proof.Machine

/-! ### Register fields -/

def capLimit (c : Word32) : Nat := fld c 0 12
def capGuard (c : Word32) : Nat := fld c 16 8
def pwrLearn (c : Word32) : Nat := fld c 28 3
def pwrCapEn (c : Word32) : Bool := flag c 31
def pwrThrEvt (c : Word32) : Bool := flag c 27

/-- PWR_PART_MODE at reset: dynamic, boost allowed, pace 800. -/
def modeReset : Word32 := 0x40000320

/-- A partition's PWR_PART_MODE. -/
def State.mode (s : State) (p : Nat) : Word32 := tget modeReset s.pwr.modes p
def modeFixed (m : Word32) : Bool := flag m 31
def modeBoost (m : Word32) : Bool := flag m 30
def modePace (m : Word32) : Nat := fld m 0 10

/-! ### Unit facts -/

/-- A unit's start-up default: T(17c+16), SE16 and SE17 are spares (R455). -/
def unitDefault (n : Nat) : TestUnit :=
  { state := if n < 272 then (if n % 17 = 16 then .spare else .active)
             else if n < 488 then (if 16 ≤ (n - 272) % 18 then .spare else .active) else .active }

/-- Unit n of the test and fault index. -/
def State.unit (s : State) (n : Nat) : TestUnit := tget { unitDefault n with pass := s.tst.since } s.tst.units n

/-- A cluster's tiles that are active. -/
def State.clusterTiles (s : State) (c : Nat) : List Nat :=
  ((List.range 17).map (fun i => 17 * c + i)).filter (fun t => decide ((s.unit t).state = .active))

/-- The clusters of a partition. -/
def Partition.clusters (p : Partition) : List Nat := (List.range 16).filter (fun c => bitsOf p.res.toNat c 1 == 1)

/-- The active tiles of a partition. -/
def State.partTiles (s : State) (p : Nat) : List Nat := (s.part p).clusters.flatMap s.clusterTiles

/-- The partition, not OFF, that owns a cluster. -/
def State.clusterPart (s : State) (c : Nat) : Option Nat :=
  allParts.find? (fun p => decide ((s.part p).state ≠ .off) && (s.part p).clusters.contains c)

/-- A rating; CEIL_MV = FUSED_MV − 5 × AGE_STEPS (R408, R409). -/
def State.rating (s : State) (n : Nat) : Rating := tget {} s.pwr.ratings n
def Rating.ceil (r : Rating) : Nat := r.fused - 5 * r.age

/-! ### Rails (R404, R405) -/

/-- Current limits of Table 14.1 in 0.1 A. -/
def railLimit (r : Nat) : Nat :=
  if r < 16 then 600 else if r = 16 then 1200 else if r = 17 then 800 else if r < 30 then 250 else if r < 42 then 200
  else if r = 42 then 140 else if r = 43 then 40 else 80

/-- A 1 µs window's report: telemetry, and the rail-current fraction by R405. -/
def railWindow (lim current mv : Nat) (r : Rail) : Rail :=
  let b := if lim < current then min 224 (r.bubble + 16) else if 10 * current < 9 * lim then r.bubble - 4 else r.bubble
  let full := decide (r.n + 1 = 100)
  { mv := mv, bubble := b, acc := if full then 0 else r.acc + current, n := if full then 0 else r.n + 1,
    current := if full then (r.acc + current) / 100 else r.current }

/-- Rail fraction of a cluster's units: its VCORE and the scratchpads' VSRAM. -/
def State.railFrac (s : State) (c : Nat) : Nat := max (lget {} s.pwr.rails c).bubble (lget {} s.pwr.rails 17).bubble

/-- Rail fraction of base die d: VBASE, and VDRAM acting on it (R405). -/
def State.baseRailFrac (s : State) (d : Nat) : Nat :=
  max (lget {} s.pwr.rails (18 + d)).bubble (lget {} s.pwr.rails (30 + d)).bubble

/-! ### Boost (R410) -/

/-- Some throttle reason is active on cluster c. -/
def State.throttled (s : State) (c : Nat) : Bool :=
  decide (0 < s.railFrac c ∨ 0 < s.pwr.alertFrac ∨ 0 < lget 0 s.thm.hubFrac c ∨ 0 < s.pwr.capDyn) ||
  s.pwr.unparkQ.any (fun t => t / 17 == c)

/-- The dynamic partition whose units cluster c holds. -/
def State.dynPart (s : State) (c : Nat) : Option Nat := (s.clusterPart c).filter (fun p => !modeFixed (s.mode p))

/-- A cluster's rail returns to 0.750 V at once when a throttle reason becomes active on it, and in fixed-rate mode. -/
def State.boostDrop (s : State) : State :=
  { s with pwr := { s.pwr with boost := s.pwr.boost.filter (fun e => (s.dynPart e.1).isSome && !s.throttled e.1) } }

/-- RAIL_CURRENT_REPORT. -/
def railCurrentReport (rail current mv : Nat) (s : State) : State :=
  if s.module.rails then
    ({ s with pwr := { s.pwr with rails := lmod s.pwr.rails rail (railWindow (railLimit rail) current mv) } } : State).boostDrop
  else s

def execRailCurrentReport (rail : Fin 45) (current mv : BitVec 16) (s : State) : Outcome :=
  .next (railCurrentReport rail.val current.toNat mv.toNat s)

/-! ### Cap controller (R413, R414) -/

/-- A finite FP32 pattern as an exact rational; other patterns count 0. -/
def f32Rat (x : Nat) : Rat :=
  match decode .fp32 x with
  | .fin n m e => (if n then -1 else 1) * (m : Rat) * (if 0 ≤ e then ((2 ^ e.toNat : Nat) : Rat) else 1 / ((2 ^ (-e).toNat : Nat) : Rat))
  | _ => 0

/-- Seeds of Table 14.2 in 0.1 W per active tile. -/
def phaseSeed (ph : Nat) : Nat := lget 0 [34, 12, 28, 26, 10, 20] ph

/-- The seed of (p, φ) as FP32: seed × active tiles. -/
def State.seedEst (s : State) (p ph : Nat) : Word32 :=
  BitVec.ofNat 32 (fdiv .fp32 (f32Nat (phaseSeed ph * (s.partTiles p).length)) (f32Nat 10))

/-- E(p, φ): the seeds are stored at ENABLE; a reset level leaves no partition a tile, so it leaves 0. -/
def State.est (s : State) (k : Nat) : Word32 := tget 0 s.pwr.est k

/-- Every phase of partition p set to its seed. -/
def State.seedPhases (s : State) (p : Nat) : State :=
  let es := (List.range 6).foldl (fun (e : List (Nat × Word32)) ph => tset e (6 * p + ph) (s.seedEst p ph)) s.pwr.est
  { s with pwr := { s.pwr with est := es } }

/-- The pace of a partition as a rational: PACE/1000. -/
def State.paceRat (s : State) (p : Nat) : Rat := (modePace (s.mode p) : Rat) / 1000

/-- Σ E × PACE over fixed-rate pairs and Σ E over dynamic pairs among active phases. -/
def State.demand (s : State) (keys : List Nat) : Rat × Rat :=
  keys.foldl (fun acc k =>
    let e := f32Rat (s.est k).toNat
    if modeFixed (s.mode (k / 6)) then (acc.1 + e * s.paceRat (k / 6), acc.2) else (acc.1, acc.2 + e)) (0, 0)

/-- Available power A = LIMIT_W − GUARD_W − U. -/
def State.available (s : State) : Rat := (capLimit s.pwr.cap : Rat) - capGuard s.pwr.cap - (s.pwr.u : Rat) / 10

/-- A fraction rounded up to 1/256 and held at most 224/256. -/
def capRound (b : Rat) : Nat := if b ≤ 0 then 0 else min 224 (b * 256).ceil.toNat

/-- (dynamic, fixed-rate) cap fractions in 1/256 (R414). -/
def State.capFractions (s : State) (keys : List Nat) : Nat × Nat :=
  let d := s.demand keys
  let a := s.available
  let t := d.1 + d.2
  let excess : Rat := if t = 0 then 0 else (s.pwr.overshoot : Rat) / 10 / t
  if !pwrCapEn s.pwr.ctl ∨ t = 0 then (0, 0)
  else if t ≤ a then (capRound excess, capRound excess)
  else if d.1 ≤ a then (capRound (1 - (a - d.1) / d.2 + excess), 0)
  else (capRound (1 - a / t + excess), capRound (1 - a / t + excess))

/-- Recompute the cap fractions for the phases active now. -/
def State.capUpdate (s : State) : State :=
  let keys := s.activePhases
  let b := s.capFractions keys
  ({ s with pwr := { s.pwr with activeKey := keys, capDyn := b.1, capFix := b.2 } } : State).boostDrop

/-- Recompute only when a phase has become active or inactive. -/
def State.capRefresh (s : State) : State := if s.activePhases = s.pwr.activeKey then s else s.capUpdate

/-- E + (M − E) × 2^−LEARN in FP32, M scaled back to full rate (R413). -/
def State.learn (s : State) (p ph m : Nat) : Word32 :=
  let b := if modeFixed (s.mode p) then s.pwr.capFix else s.pwr.capDyn
  let m0 := fdiv .fp32 (f32Nat m) (f32Nat 10)
  let m1 := fdiv .fp32 m0 (fdiv .fp32 (f32Nat (256 - b)) (f32Nat 256))
  let m2 := if modeFixed (s.mode p) then fdiv .fp32 m1 (fdiv .fp32 (f32Nat (modePace (s.mode p))) (f32Nat 1000)) else m1
  let e := (s.est (6 * p + ph)).toNat
  let w := enc .fp32 (.fin false 1 (-(pwrLearn s.pwr.ctl : Int)))
  BitVec.ofNat 32 (fadd .fp32 e (fmul .fp32 (fsub .fp32 m2 e) w))

/-! ### Temperatures and throttle reasons (R416, R417, R419, R420) -/

/-- Thermal fraction at Δ quarter degrees above a threshold. -/
def heatFrac (delta : Int) : Nat := if delta ≤ 0 then 0 else min 224 (4 * delta.toNat)

def thmHubThrot (c : Word32) : Nat := fld c 8 8
def thmStkThrot (c : Word32) : Nat := fld c 16 8

/-- Thermal fraction of base die d: the larger of its own and its DRAM's (R417). -/
def State.stackHeat (s : State) (d : Nat) : Nat := max (lget 0 s.thm.stkFrac d) (lget 0 s.thm.dramHot d)

/-- Reason c of Table 14.4 is active. Rails 43 and 44 feed no unit that a fraction slows (R405). -/
def State.reasonActive (s : State) (c : Nat) : Bool :=
  match c with
  | 0 => decide (0 < s.pwr.capDyn ∨ 0 < s.pwr.capFix)
  | 1 => (s.pwr.rails.take 43).any (fun r => decide (0 < r.bubble))
  | 2 => decide (0 < s.pwr.alertFrac)
  | 3 => s.thm.hubFrac.any (fun b => decide (0 < b)) || s.thm.stkFrac.any (fun b => decide (0 < b))
  | 4 => s.thm.dramHot.any (fun b => decide (0 < b))
  | 5 => !s.pwr.unparkQ.isEmpty
  | 6 => s.pwr.paceMiss
  | _ => false

/-- PWR_STATUS.ACTIVE. -/
def State.reasonBits (s : State) : Nat := sumN ((List.range 7).map (fun c => bit (s.reasonActive c) * 2 ^ c))

/-- Fractions of reasons 0 to 4 for work of partition p on the clusters cl and the base dies st. -/
def State.workFracs (s : State) (p : Nat) (cl st : List Nat) : List Nat :=
  [if modeFixed (s.mode p) then s.pwr.capFix else s.pwr.capDyn,
   max (maxL (cl.map s.railFrac)) (maxL (st.map s.baseRailFrac)),
   s.pwr.alertFrac,
   max (maxL (cl.map (lget 0 s.thm.hubFrac))) (maxL (st.map (lget 0 s.thm.stkFrac))),
   maxL (st.map (lget 0 s.thm.dramHot))]

/-- Tile t has an admitted stream that moves far-tier elements: their requests are held for VFAR's fraction (R405). -/
def State.farStream (s : State) (t : Nat) : Bool :=
  s.mem.streams.any (fun x => x.tile == t && x.admitted && !x.halted &&
    decide ((dSrcSpace x.desc = 0 ∧ farBase ≤ dSrc x.desc) ∨ (dDstSpace x.desc = 0 ∧ farBase ≤ dDst x.desc)))

/-- Fractions of an invocation on tile t (R405, R420): its cluster's, with VFAR's among the rails where it streams to or from the
far tier. -/
def State.tileFracs (s : State) (p t : Nat) : List Nat :=
  lmod (s.workFracs p [t / 17] []) 1 (fun b => if s.farStream t then max b (lget {} s.pwr.rails 42).bubble else b)

/-- LATE_CAUSE of a throttle reason (Table 14.4). -/
def reasonCause (c : Nat) : Nat := lget 0 [1, 1, 3, 2, 2, 1, 0] c

/-- Delay of t ns charged to the reason with the largest fraction, ties to the lower, for one invocation or pass (R420, R421). -/
def chargeDelay (inv : Nat) (fr : List Nat) (t : Nat) (c : Cmd) : Cmd :=
  let b := maxL fr
  let k := (findIdx (· == b) fr 0).getD 0
  if b = 0 then c else addDelay256 inv (reasonCause k) (t * b) c

/-- What dt ns of work are charged to a command: each invocation of it on a tile by the tile's cluster, each segment that
serves it by its base die, and its own work, where it runs on no tile and is no search, by its partition's clusters. -/
def State.chargeWork (s : State) (dt : Nat) (c : Cmd) : Cmd :=
  let ts := (s.tiles.filter (fun t => t.2.running == some c.seq)).map Prod.fst
  let ps := s.scan.passes.filter (fun a => a.engine.isSome && a.served.any (fun v => v.cmd == c.seq))
  let c1 := ts.foldl (fun c t => chargeDelay (tileInv t) (s.tileFracs c.part t) dt c) c
  let c1 := ps.foldl (fun c a => chargeDelay (passInv a.pass) (s.workFracs c.part [] [a.stack]) dt c) c1
  if ts.isEmpty && !isSearch (dOpcode c.desc) then chargeDelay wholeInv (s.workFracs c.part (s.part c.part).clusters []) dt c1 else c1

/-! ### Input reports (R404, R410, R413, R414, R423) -/

/-- No cluster rail exceeds the lowest CEIL_MV of its active tiles (R408). -/
def State.boostClip (s : State) : State :=
  { s with pwr := { s.pwr with boost := s.pwr.boost.map (fun e =>
    (e.1, min e.2 (minL ((s.clusterTiles e.1).map (fun n => (s.rating n).ceil)) - 750))) } }

/-- Boost of cluster c after a report (R410): ±10 mV, 0 under any reason on the cluster, never above the lowest CEIL_MV of
its active tiles (R408). -/
def State.boostNext (s : State) (c : Nat) : Nat :=
  let cur := tget 0 s.pwr.boost c
  let d := s.demand s.activePhases
  let t := d.1 + d.2
  let ceil := minL ((s.clusterTiles c).map (fun n => (s.rating n).ceil))
  match s.dynPart c with
  | none => 0
  | some p =>
    if s.throttled c then 0
    else if modeBoost (s.mode p) ∧ t * 21 / 20 ≤ s.available ∧
        lget 0 s.thm.hub c + 20 ≤ 4 * (thmHubThrot s.thm.ctl : Int) then min (cur + 10) (ceil - 750)
    else min (cur - 10) (ceil - 750)

/-- INPUT_POWER_REPORT: input telemetry, estimates of the pairs measured over the whole window, cap, boost, energy. -/
def inputPowerReport (power vin u : Nat) (meas energy : List (Nat × Nat × Nat)) (unassigned : Nat) (paceMiss : Bool)
    (s : State) : State :=
  let lim := 10 * (capLimit s.pwr.cap - capGuard s.pwr.cap)
  let s := { s with pwr := { s.pwr with
    input := BitVec.ofNat 32 (satN 16 vin * 65536 + satN 16 power), u := u, overshoot := u - lim, paceMiss := paceMiss,
    est := meas.foldl (fun (e : List (Nat × Word32)) (m : Nat × Nat × Nat) => tset e (6 * m.1 + m.2.1) (s.learn m.1 m.2.1 m.2.2)) s.pwr.est,
    energyPart := energy.foldl (fun (e : List (Nat × Nat)) (x : Nat × Nat × Nat) => tset e x.1 ((tget 0 e x.1 + x.2.2) % 2 ^ 64)) s.pwr.energyPart,
    energyUn := (s.pwr.energyUn + unassigned) % 2 ^ 64 } }
  let s := energy.foldl (fun s x => s.modRing x.2.1 (fun r => { r with energy := (r.energy + x.2.2) % 2 ^ 64 })) s
  let s := s.capUpdate
  { s with pwr := { s.pwr with boost := (List.range 16).map (fun c => (c, s.boostNext c)) } }

def execInputPowerReport (power vin u : Nat) (meas energy : List (Nat × Nat × Nat)) (unassigned : Nat)
    (paceMiss : Bool) (s : State) : Outcome :=
  .next (inputPowerReport power vin u meas energy unassigned paceMiss s)

/-! ### Alert wire (R406) and ramps (R424, R426) -/

/-- VR_ALERT_N asserted: fraction 224/256 everywhere, cluster rails back to 0.750 V. -/
def vrAlertAssert (s : State) : State :=
  let s := { s with pwr := { s.pwr with alert := true, alertFrac := 224, boost := [] } }
  if pwrThrEvt s.pwr.ctl then s.event 0x0061 2 0 0 0 0 else s

def execVrAlertAssert (s : State) : Outcome := .next (vrAlertAssert s)

/-- The tiles that run an invocation. -/
def State.busyTiles (s : State) : List Nat := (s.tiles.filter (fun t => t.2.running.isSome)).map Prod.fst

/-- VR_ALERT_N deasserted: the fraction ends and busy tiles leave through the ramp. -/
def vrAlertDeassert (s : State) : State :=
  if s.pwr.alert then
    { s with pwr := { s.pwr with alert := false, alertFrac := 0, unparkQ := dedupBy id (s.pwr.unparkQ ++ s.busyTiles) [],
                                 parked := dedupBy id (s.pwr.parked ++ s.busyTiles) [] } }
  else s

def execVrAlertDeassert (s : State) : Outcome := .next (vrAlertDeassert s)

def rampHold (r : Word32) : Bool := flag r 31
def rampIdle (r : Word32) : Nat := fld r 16 8
def rampGroup (r : Word32) : Nat := fld r 0 8

/-- PARK_QUEUE_JOIN: an active tile idle for IDLE_PARK_US joins the park queue, unless HOLD. -/
def parkQueueJoin (t : Nat) (s : State) : State :=
  let x := s.tile t
  if rampHold s.pwr.ramp ∨ x.running.isSome ∨ (s.unit t).state ≠ .active ∨ s.pwr.parkQ.contains t ∨
     s.pwr.parked.contains t ∨ s.hif.timer < x.workSince + 1000 * rampIdle s.pwr.ramp then s
  else { s with pwr := { s.pwr with parkQ := s.pwr.parkQ ++ [t] } }

def execParkQueueJoin (tile : Fin 272) (s : State) : Outcome := .next (parkQueueJoin tile.val s)

/-- RAMP_STEP: park the first GROUP of the park queue and unpark the first GROUP of the unpark queue, ascending. -/
def rampStep (s : State) : State :=
  let g := rampGroup s.pwr.ramp
  let lt := fun (a b : Nat) => decide (a < b)
  let pq := sortBy lt s.pwr.parkQ
  let uq := sortBy lt s.pwr.unparkQ
  let pk := (s.pwr.parked ++ pq.take g).filter (fun t => !(uq.take g).contains t)
  { s with pwr := { s.pwr with parkQ := pq.drop g, unparkQ := uq.drop g, parked := pk } }

def execRampStep (s : State) : Outcome := .next (rampStep s)

/-- Work for tile t: a queued tile takes it at once; a parked tile joins the unpark queue, and the work waits. -/
def State.wakeTile (s : State) (t : Nat) : State × Bool :=
  if s.pwr.parked.contains t then
    let q := if s.pwr.unparkQ.contains t then s.pwr.unparkQ else s.pwr.unparkQ ++ [t]
    (({ s with pwr := { s.pwr with unparkQ := q } } : State).boostDrop, false)
  else ({ s with pwr := { s.pwr with parkQ := s.pwr.parkQ.filter (· != t) } }, true)

/-- What dt ns of time add: throttle-reason durations and each running command's delay (R419, R421). -/
def State.powerTime (s : State) (dt : Nat) : State :=
  let tt := s.pwr.thrTime.zipIdx.map (fun x => if s.reasonActive x.2 then (x.1 + dt) % 2 ^ 64 else x.1)
  ({ s with pwr := { s.pwr with thrTime := tt } } : State).mapCmds (fun c => if c.run = .waiting then c else s.chargeWork dt c)

end Sys2Proof.Machine
end

