-- ==== Sys2Proof/Machine/Rings.lean ====
section
/-!
DEFINITION. Ring pairs, doorbells, messages, FENCE and BARRIER (03_rings_and_commands.md), and which contexts are
candidates for a fetch (R348). DESTROY_FORCE stands in Stop.lean and fetching in Fetch.lean, which need other families.
-/

namespace Sys2Proof.Machine

/-- While a reset level is in progress, BAR0 and doorbell writes are discarded (R70). -/
def State.bar0Off (s : State) : Bool := s.hif.inReset.isSome

/-- Entry to ERROR with its event (R83). -/
def State.ringError (s : State) (p cause : Nat) : State :=
  (s.modRing p (fun r => { r with state := .error, errCause := cause })).event 0x0010 2 6 p cause 0

/-- The indices from a up to, not including, b on a ring of n entries. -/
def ringSpan (n a b : Nat) : List Nat := (List.range ((b + n - a) % n)).map (fun i => (a + i) % n)

/-- Arrival times of the entries a doorbell makes available: first coverage stays (R351). -/
def coverAfter (r : Ring) (tail now : Nat) : List (Nat × Nat) :=
  (ringSpan r.sqSize r.sqHead tail).map (fun i => (i, tget now r.cover i))

/-! ### Candidates (R78, R348) -/

/-- CQ slots neither reserved nor held by an unreleased record (R78). -/
def Ring.freeSlots (r : Ring) : Nat := r.cqSize - 1 - (r.cqTail + r.cqSize - r.cqHead) % r.cqSize - r.inflight

/-- A ring pair from which a descriptor can be fetched. -/
def Ring.fetchable (r : Ring) : Bool := decide (r.state = .active ∧ r.sqHead ≠ r.sqTail ∧ 0 < r.freeSlots)

/-- The ring pairs of context x that can be fetched from, in ascending number. -/
def State.fetchRings (s : State) (x : Nat) : List Nat :=
  (s.qm.rings.filter (fun r => cfgContext r.2.cfg == x && r.2.fetchable)).map Prod.fst

/-- Context x is a candidate. -/
def State.isCandidate (s : State) (x : Nat) : Bool := decide ((s.ctx x).state = .active) && !(s.fetchRings x).isEmpty

/-- The least of a list of virtual times. -/
def leastV (l : List Rat) : Option Rat := l.foldl (fun m v => some (match m with | some w => min w v | none => v)) none

/-- Context x becomes a candidate: V is raised to the least V of the partition's other candidates. -/
def State.candRaise (s : State) (p x : Nat) : State :=
  if s.isCandidate x && !(s.ctx x).candidate then
    let others := (s.ctxsOfPart p).filter (fun y => y != x && s.isCandidate y)
    let low := leastV (others.map (fun y => (s.ctx y).v))
    s.modCtx x (fun k => { k with candidate := true, v := match low with | some v => max k.v v | none => k.v })
  else s

/-- Bring the candidates of partition p up to date. -/
def State.candRefresh (s : State) (p : Nat) : State :=
  let drop : Nat → Context → Context := fun x k => if k.candidate && !s.isCandidate x then { k with candidate := false } else k
  let s := { s with sch := { s.sch with ctxs := tmap drop s.sch.ctxs } }
  (s.ctxsOfPart p).foldl (fun s x => s.candRaise p x) s

/-- The partition of the context that ring pair r is bound to. -/
def State.partOfRing (s : State) (r : Nat) : Nat := fld (s.ctx (cfgContext (s.ring r).cfg)).cfg 16 4

/-! ### Doorbells -/

/-- SQ_TAIL: R86, R87, R89. `stores` are host writes made visible before the doorbell. -/
def sqTail (stores : List Host.Cell) (page value : Nat) (s : State) : State :=
  let s := s.hostStores stores
  let v := value % 65536
  let r := s.ring page
  if s.bar0Off || decide (r.state ≠ .active) then s
  else if r.sqSize ≤ v then s.ringError page 1
  else (s.modRing page (fun r => { r with sqTail := v, cover := coverAfter r v s.hif.timer })).candRefresh (s.partOfRing page)

def execSqTail (stores : List Host.Cell) (page : BitVec 12) (value : Word32) (s : State) : Outcome :=
  .next (sqTail stores page.toNat value.toNat s)

/-- CQ_HEAD: R88, R89. -/
def cqHead (page value : Nat) (s : State) : State :=
  let v := value % 65536
  let r := s.ring page
  let n := r.cqSize
  if s.bar0Off || decide (r.state ≠ .active) then s
  else if n ≤ v ∨ (r.cqTail + n - r.cqHead) % n < (v + n - r.cqHead) % n then s.ringError page 7
  else
    let rel := ringSpan n r.cqHead v
    let s := { s with qm := { s.qm with done := s.qm.done.filter (fun d => !(d.ring == page && rel.contains d.index)) } }
    (s.modRing page (fun r => { r with cqHead := v })).candRefresh (s.partOfRing page)

def execCqHead (page : BitVec 12) (value : Word32) (s : State) : Outcome := .next (cqHead page.toNat value.toNat s)

/-- The context exists for the ring pair: not FREE, in the partition that owns the queue group (R341). -/
def State.ctxFits (s : State) (p x : Nat) : Bool :=
  let k := s.ctx x
  decide (k.state ≠ .free) && bitsOf (s.part (fld k.cfg 16 4)).res.toNat (32 + p / 256) 1 == 1 &&
    decide ((s.part (fld k.cfg 16 4)).state ≠ .off)

/-- The pair's indices and message state as CREATE leaves them (R84, R99, R423). -/
def ringFresh (r : Ring) : Ring :=
  { r with state := .active, errCause := 0, sqHead := 0, sqTail := 0, cqHead := 0, cqTail := 0, phase := true,
           inflight := 0, unsig := 0, oldest := 0, goWait := [], cover := [], energy := 0 }

/-- CREATE of pair p (R84, R85). Where the size and the context are both bad, the spec gives no order between causes 0x04
and 0x05; the model sets 0x04 (log entry 126). VECTOR is a field of 11 bits, so it never exceeds 2047. -/
def ringCreate (p : Nat) (s : State) : State :=
  let r := s.ring p
  let okLog := fun n => decide (4 ≤ n ∧ n ≤ 16)
  if s.bar0Off then s
  else if r.state ≠ .free then s.modRing p (fun r => { r with refused := true })
  else if !(okLog (cfgSqLog r.cfg) && okLog (cfgCqLog r.cfg)) then s.modRing p (fun r => { r with errCause := 4 })
  else if !s.ctxFits p (cfgContext r.cfg) then s.modRing p (fun r => { r with errCause := 5 })
  else s.modRing p ringFresh

def execRingCreate (s : State) : Outcome := .next (ringCreate s.qm.ringSel s)

/-- Withdraw a command from the barrier instance it waits at (R85, R110). -/
def State.barrierWithdraw (s : State) (n : Nat) : State :=
  let bs := s.qm.barriers.map (fun b => (b.1, { b.2 with arrived := b.2.arrived.filter (· != n) }))
  { s with qm := { s.qm with barriers := bs.filter (fun b => !b.2.arrived.isEmpty) } }

/-- A BARRIER that waits at its instance. -/
def State.waitsAtBarrier (s : State) (n : Nat) : Bool := s.qm.barriers.any (fun b => b.2.arrived.contains n)

/-- Withdraw and end the waiting BARRIERs of ring p. -/
def State.endBarriers (s : State) (p : Nat) : State :=
  (s.qm.cmds.filter (fun c => c.ring == p && s.waitsAtBarrier c.seq)).foldl
    (fun s c => (s.barrierWithdraw c.seq).stop c stAbortDisable) s

/-- DESTROY of pair p (R85, Table 3.12). -/
def ringDestroy (p : Nat) (s : State) : State :=
  let r := s.ring p
  if s.bar0Off then s
  else if r.state = .free ∨ r.state = .draining then s.modRing p (fun r => { r with refused := true })
  else
    let s := (s.modRing p (fun r => { r with state := .draining })).endBarriers p
    (s.ringSettle p).drainSettle (fld (s.ctx (cfgContext r.cfg)).cfg 16 4)

def execRingDestroy (s : State) : Outcome := .next (ringDestroy s.qm.ringSel s)

/-- A write of HIF_CONTROL (R58, R89): READY = 0 or VIRAL = 1 refuses QM_ENABLE. -/
def controlWrite (v : Word32) (s : State) : State :=
  if s.bar0Off then s
  else
    let want := flag v 0
    let ok := s.hif.ready && !s.hif.viral
    let s1 := { s with hif := { s.hif with control := (v &&& 6) ||| (if want && ok then 1 else 0) } }
    if want && !ok then s1.hifErr 1 else s1

def execQmEnable (value : Word32) (s : State) : Outcome := .next (controlWrite value s)

/-- A write of QM_RING_IRQ takes effect at once (R81): where it makes a condition of R104 hold, the message is sent. -/
def irqWrite (p : Nat) (v : Word32) (s : State) : State :=
  let s1 := s.modRing p (fun r => { r with irq := v &&& 0xFFFFF7FF })
  if (s1.ring p).countDue (s1.ring p).unsig then s1.signalAll p else s1

/-- GLOBAL_OBSERVATION of ring p's oldest record in flight to the host (R42): the message due after it is sent. -/
def globalObservation (p : Nat) (s : State) : State :=
  let r := s.ring p
  match r.goWait with
  | [] => s
  | due :: t =>
    let s := s.modRing p (fun r => { r with goWait := t })
    if due then s.msixSend (fld r.irq 0 11) else s

def execGlobalObservation (ring : BitVec 12) (s : State) : Outcome := .next (globalObservation ring.toNat s)

/-- COAL_TIME µs have passed since the oldest record not yet signalled (R104). -/
def coalTimeExpiry (p : Nat) (s : State) : State :=
  let r := s.ring p
  let t := fld r.irq 20 12
  let vec := fld r.irq 0 11
  if vec = 0 ∨ t = 0 ∨ r.unsig = 0 ∨ s.hif.timer < r.oldest + 1000 * t then s
  else s.signalAll p

def execCoalTimeExpiry (ring : BitVec 12) (s : State) : Outcome := .next (coalTimeExpiry ring.toNat s)

/-- MSIX_UNMASK: one message for a pending vector (R55). The MSI-X table is in BAR0, whose writes a level in progress
discards (R70). -/
def msixUnmask (v : Nat) (s : State) : State :=
  let e : MsixEntry := tget {} s.hif.msix v
  let s1 := { s with hif := { s.hif with msix := tset s.hif.msix v { e with mask := false, pend := false } } }
  if s.bar0Off then s else if e.pend then s1.msixSend v else s1

def execMsixUnmask (vector : BitVec 11) (s : State) : Outcome := .next (msixUnmask vector.toNat s)

/-- Every earlier command of a FENCE's scope has completed (R108). -/
def State.fenceReady (s : State) (c : Cmd) : Bool :=
  if dSubop c.desc % 2 = 0 then !s.earlier c (fun x => x.ring == c.ring)
  else !s.earlier c (fun x => x.part == c.part)

/-- The write-combining buffer is flushed: its lines reach memory and its entries free (R108, R385). -/
def State.wcbFlush (s : State) : State := { s with mem := { s.mem with wcb := [] } }

/-- Command c, a FENCE or BARRIER that ends, has held the later commands of its ring since their fetch: delay of cause 0x8
(R101, R108, R109, R421). -/
def State.syncHeld (s : State) (c : Cmd) : State :=
  s.mapCmds (fun x => if x.ring = c.ring ∧ c.before x ∧ x.run = .waiting ∧ !isControl (dOpcode x.desc) then atLeastDelay 8 (s.hif.timer - x.stamp) x else x)

/-- FENCE (R108). Its wait is delay of cause 0x8. -/
def fence (n : Nat) (s : State) : State :=
  match s.ready? n (· == opFence) with
  | none => s
  | some c => if s.fenceReady c then (s.wcbFlush.syncHeld c).complete (addDelay 8 (s.hif.timer - c.stamp) c) stOk 0 0 false false
              else s.start n

def execFence (cmd : Nat) (s : State) : Outcome := .next (fence cmd s)

/-- End the arrived BARRIERs of an instance in ascending ring number (R109, R110, R427). -/
def State.barrierRelease (s : State) (key : Nat) (b : Barrier) (st : Nat) : State :=
  let s := { s with qm := { s.qm with barriers := tdel s.qm.barriers key } }
  let cs := sortBy (fun x y => decide (x.ring < y.ring)) (s.qm.cmds.filter (fun c => b.arrived.contains c.seq))
  cs.foldl (fun s c => (s.syncHeld c).complete (addDelay 8 (s.hif.timer - c.stamp) c) st 0 0 false false) s

/-- BARRIER arrives at its instance (R109, R110). On a ring that DESTROY has put in DRAINING, an arrival that would wait is
withdrawn at once with ST_ABORT_DISABLE: it is a waiting BARRIER whose ring is destroyed (R110; log entry 126). -/
def barrier (n : Nat) (s : State) : State :=
  match s.ready? n (· == opBarrier) with
  | none => s
  | some c =>
    let key := 256 * c.part + dSubop c.desc % 256
    let want := dfld c.desc 0x08 0 16
    if s.earlier c (fun x => x.ring == c.ring) || s.waitsAtBarrier n then s
    else
      let s := s.start n
      let dead := decide ((s.ring c.ring).state = .draining)
      match s.qm.barriers.find? (fun b => b.1 == key) with
      | none => if dead then (s.syncHeld c).stop c stAbortDisable else
        let b : Barrier := { participants := want, timeoutUs := dfld c.desc 0x0C 0 32, first := s.hif.timer, arrived := [n] }
        { s with qm := { s.qm with barriers := tset s.qm.barriers key b } }
      | some (_, b) =>
        if b.participants ≠ want then s.complete c stBarrierMismatch 0 0 false false
        else
          let b := { b with arrived := b.arrived ++ [n] }
          if b.arrived.length = b.participants then s.barrierRelease key b stOk
          else if dead then (s.syncHeld c).stop c stAbortDisable
          else { s with qm := { s.qm with barriers := tset s.qm.barriers key b } }

def execBarrier (cmd : Nat) (s : State) : Outcome := .next (barrier cmd s)

/-- BARRIER_TIMEOUT: TIMEOUT_US from the first arrival (R110). -/
def barrierTimeout (part id : Nat) (s : State) : State :=
  match s.qm.barriers.find? (fun b => b.1 == 256 * part + id) with
  | none => s
  | some (key, b) =>
    if b.timeoutUs = 0 ∨ s.hif.timer < b.first + 1000 * b.timeoutUs then s
    else s.barrierRelease key b stBarrierTimeout

def execBarrierTimeout (part : BitVec 4) (id : BitVec 8) (s : State) : Outcome :=
  .next (barrierTimeout part.toNat id.toNat s)

end Sys2Proof.Machine
end

