-- ==== Sys2Proof/Machine/Partition.lean ====
section
/-!
DEFINITION. Contexts, placement, bandwidth regulators and pre-emption (12_partitions_scheduling.md). Enabling, draining,
forces and context faults stand in Stop.lean.
-/

namespace Sys2Proof.Machine

/-! ### Contexts (R346, R347) -/

/-- A context as CREATE leaves it: accounting cleared (R343). -/
def ctxFresh (k : Context) : Context := { ({} : Context) with cfg := k.cfg, state := .active }

/-- CREATE of context x. -/
def contextCreate (x : Nat) (s : State) : State :=
  let k := s.ctx x
  let q := s.part k.part
  if s.bar0Off then s
  else if k.state ≠ .free then s.modCtx x (fun k => { k with err := 1 })
  else if q.state = .off ∨ q.state = .draining then s.modCtx x (fun k => { k with err := 2 })
  else s.modCtx x ctxFresh

def execContextCreate (s : State) : Outcome := .next (contextCreate s.sch.ctxSel s)

/-- DESTROY of context x. -/
def contextDestroy (x : Nat) (s : State) : State :=
  let k := s.ctx x
  if s.bar0Off then s
  else if k.state ≠ .active ∧ k.state ≠ .tornDown then s.modCtx x (fun k => { k with err := 4 })
  else if !(s.ringsOfCtx x).isEmpty then s.modCtx x (fun k => { k with err := 3 })
  else s.modCtx x (fun k => { k with state := .free, err := 0 })

def execContextDestroy (s : State) : Outcome := .next (contextDestroy s.sch.ctxSel s)

/-! ### Placement (R365 to R368) -/

/-- A placement table read from host memory: (physical tile, group) per logical tile. -/
def placeEntries (bs : List Byte) (n : Nat) : List (Nat × Nat) :=
  (List.range n).map (fun l => let v := getLE bs (64 + 8 * l) 8; (bitsOf v 0 9, bitsOf v 16 6))

/-- R365 for a table of partition p, apart from saved images. -/
def State.placeOk (s : State) (p : Nat) (bs : List Byte) : Bool :=
  let n := getLE bs 0 2
  let g := getLE bs 2 1
  let es := placeEntries bs n
  decide (1 ≤ n ∧ n ≤ 256 ∧ 1 ≤ g ∧ g ≤ 64) && getLE bs 3 61 == 0 &&
  (List.range n).all (fun l => let v := getLE bs (64 + 8 * l) 8; bitsOf v 9 7 == 0 && bitsOf v 22 42 == 0) &&
  es.all (fun e => decide (e.1 < 272 ∧ e.2 < g) && (s.partTiles p).contains e.1) &&
  (dedupBy id (es.map Prod.fst) []).length == n &&
  (List.range g).all (fun k => es.any (fun e => e.2 == k))

/-- Saved images keep their logical tile and group (R365). -/
def imagesKeep (q : Partition) (es : List (Nat × Nat)) : Bool :=
  q.images.all (fun i => decide (i.logical < es.length) &&
    (lget (0, 0) es i.logical).2 == (lget (0, 64) q.place i.logical).2)

/-- Zero a tile's scratchpad, accumulators and vector registers (R251): the pinned regions go with them (R323). -/
def tileZero (t : Tile) : Tile :=
  { t with scratch := [], vregs := [], x := {}, y := {}, activeY := false, pins := [] }

/-- Assign tiles to partition p: zeroed when their last partition was another (R251). -/
def State.assignTiles (s : State) (p : Nat) (ts : List Nat) : State :=
  ts.foldl (fun s t => s.modTile t (fun x =>
    if x.lastPart = some p then x else { tileZero x with lastPart := some p })) s

/-- Put a table in force: the epoch advances, the replaced one drains while its commands run (R366, R367). A group whose
tiles change needs its model activated again (R323). -/
def State.applyPlace (s : State) (p : Nat) (es : List (Nat × Nat)) : State :=
  let q := s.part p
  let busy := s.qm.cmds.any (fun c => c.part == p && c.pEpoch == q.epoch)
  let old := if busy && decide (q.epoch ≠ 0) then q.old ++ [{ epoch := q.epoch, place := q.place }] else q.old
  let s := s.modPart p (fun q => { q with place := es, epoch := (q.epoch + 1) % 2 ^ 32, old := old })
  let stays := fun (a : Nat × Nat) => a.1 / 64 != p || groupTiles q.place (a.1 % 64) == groupTiles es (a.1 % 64)
  let s := { s with models := { s.models with active := s.models.active.filter stays } }
  s.assignTiles p (es.map Prod.fst)

/-- PLACE of partition p. -/
def place (stores : List Host.Cell) (p : Nat) (s : State) : State :=
  let s := s.hostStores stores
  let q := s.part p
  let a := q.placeAddr.toNat
  let n := getLE (s.hostRead a 64) 0 2
  let bs := s.hostRead a (64 + 8 * n)
  if s.bar0Off then s
  else if q.state ≠ .active ∧ q.state ≠ .pausing ∧ q.state ≠ .paused then s.modPart p (fun q => { q with err := 4 })
  else if !s.hostOk a (64 + 8 * n) then s.modPart p (fun q => { q with err := 6 })
  else if !(s.placeOk p bs && imagesKeep q (placeEntries bs n)) then s.modPart p (fun q => { q with err := 5 })
  else (s.applyPlace p (placeEntries bs n)).modPart p (fun q => { q with err := 0 })

def execPlace (stores : List Host.Cell) (s : State) : Outcome := .next (place stores s.sch.partSel s)

/-! ### Bandwidth regulators (R352) -/

def bwRate (r : Word32) : Nat := fld r 0 20
def bwBurst (r : Word32) : Nat := fld r 20 12

/-- ns of refill: RATE × 10⁸ bytes/s up to BURST × 4,096 bytes. -/
def bwFill (ns : Nat) (r : Regulator) : Regulator :=
  { r with level := min (r.level + (bwRate r.reg * ns / 10 : Nat)) (bwBurst r.reg * 4096 : Nat), filled := r.filled + ns }

/-- BW_REGULATOR_REFILL: regulator n of partition p gains what `ns` of HIF_TIMER bring, never more than have passed since its last
refill (R352). -/
def bwRefill (p n ns : Nat) (s : State) : State :=
  s.modPart p (fun q => { q with bw := lmod q.bw n (fun r => bwFill (min ns (s.hif.timer - r.filled)) r) })

def execBwRegulatorRefill (part : BitVec 4) (n : Fin 6) (ns : Nat) (s : State) : Outcome :=
  .next (bwRefill part.toNat n.val ns s)

/-- A request of `bytes` on regulator n may proceed: unregulated, or the bucket holds more than 0. -/
def State.bwOpen (s : State) (p n : Nat) : Bool :=
  let r := lget {} (s.part p).bw n
  bwRate r.reg == 0 || decide (0 < r.level)

/-- Charge a request that proceeds. -/
def State.bwCharge (s : State) (p n bytes : Nat) : State :=
  if bwRate (lget {} (s.part p).bw n).reg = 0 then s
  else s.modPart p (fun q => { q with bw := lmod q.bw n (fun r => { r with level := r.level - (bytes : Nat) }) })

/-- A wait for regulator tokens of an invocation or pass of a command begins. -/
def bwWait (inv now : Nat) (c : Cmd) : Cmd := { c with bwWaits := tset c.bwWaits inv (tget now c.bwWaits inv) }

/-- It ends: its time is delay of cause 4 (R352, R421). -/
def bwGo (inv now : Nat) (c : Cmd) : Cmd :=
  addDelayOn inv 4 (now - tget now c.bwWaits inv) { c with bwWaits := tdel c.bwWaits inv }

/-- A request of partition p that draws on regulators, as (regulator, bytes), for invocations and passes, as (command, which): it
proceeds and is charged, or it waits (R352). -/
def State.bwRequest (s : State) (p : Nat) (ws rs : List (Nat × Nat)) : Bool × State :=
  if (rs.filter (fun r => decide (0 < r.2))).all (fun r => s.bwOpen p r.1) then
    (true, ws.foldl (fun s w => s.modCmd w.1 (bwGo w.2 s.hif.timer)) (rs.foldl (fun s r => s.bwCharge p r.1 r.2) s))
  else (false, ws.foldl (fun s w => s.modCmd w.1 (bwWait w.2 s.hif.timer)) s)

/-- The stack and far-tier regulators: LC and BULK of the tier of a device address (Table 13.2). -/
def lcOf (a : Nat) : Nat := if a < farBase then 0 else 2
def bulkOf (a : Nat) : Nat := if a < farBase then 1 else 3

/-! ### Pre-emption (R353 to R358) -/

/-- The target of a PAUSE or RESUME. -/
def ctlTarget (d : Desc) : Nat := dfld d 0x08 0 12
def ctlPartScope (d : Desc) : Bool := dfld d 0x06 0 1 == 1
def ctlPrecise (d : Desc) : Bool := dfld d 0x06 1 1 == 1

/-- Save images of a partition: SAVE_IMAGES, or one per active tile of c clusters (R342). -/
def saveImages (q : Partition) : Nat :=
  let n := fld q.cfg 16 13
  if n = 0 then 16 * q.clusters.length else n

/-- Images of partition p that no stopped tile has taken and none that is still to stop has been promised (R355). -/
def State.imagesLeft (s : State) (p : Nat) : Nat :=
  let q := s.part p
  let owed := (s.ctxsOfPart p).filter (fun x => decide (((s.ctx x).state = .pausing ∧ (s.ctx x).precise) ∨ (s.ctx x).state = .borrowed))
  saveImages q - (q.images.length + (owed.flatMap s.ctxTiles).length)

/-- Put context x into PAUSING for command n: it is no candidate any more (R348). -/
def State.beginPause (s : State) (x : Nat) (n : Option Nat) (precise : Bool) : State :=
  s.modCtx x (fun k => if k.state = .active then
    { k with state := .pausing, candidate := false, pauseCmd := n, precise := precise, pauseAt := s.hif.timer } else k)

/-- PAUSE with SUBOP[1] = 0 (R354, R358). One of a target that is PAUSING already waits until that has stopped (R112). -/
def pause (n : Nat) (s : State) : State :=
  match s.ready? n (· == opPause) with
  | none => s
  | some c =>
    let x := ctlTarget c.desc
    if c.run ≠ .waiting ∨ ctlPrecise c.desc then s
    else if ctlPartScope c.desc then
      if (s.part x).state = .pausing then s
      else if (s.part x).state ≠ .active then s.complete c stOk 0 0 false false
      else
        let s := (s.start n).modPart x (fun q => { q with state := .pausing, pauseCmd := some (n, false) })
        let xs := s.ctxsOfPart x
        let s := xs.foldl (fun s y => s.beginPause y none false) s
        (xs.foldl (fun s y => s.yieldSettle y) s).pauseSettle x
    else if (s.ctx x).state = .pausing then s
    else if (s.ctx x).state ≠ .active then s.complete c stOk 0 0 false false
    else ((s.start n).beginPause x (some n) false).settle x c.part

def execPause (cmd : Nat) (s : State) : Outcome := .next (pause cmd s)

/-- PAUSE with SUBOP[1] = 1 (R355, R356, R358): images for every stopping tile, or ST_NO_SPACE. -/
def pauseSave (n : Nat) (s : State) : State :=
  match s.ready? n (· == opPause) with
  | none => s
  | some c =>
    let x := ctlTarget c.desc
    if c.run ≠ .waiting ∨ !ctlPrecise c.desc then s
    else if ctlPartScope c.desc then
      let xs := s.ctxsOfPart x
      if (s.part x).state = .pausing then s
      else if (s.part x).state ≠ .active then s.complete c stOk 0 0 false false
      else if s.imagesLeft x < ((xs.filter (fun y => decide ((s.ctx y).state = .active)) ++ [devCtx x]).flatMap s.ctxTiles).length then
        s.complete c stNoSpace 0 0 false false
      else
        let s := (s.start n).modPart x (fun q => { q with state := .pausing, pauseCmd := some (n, true) })
        let s := xs.foldl (fun s y => s.beginPause y none true) s
        (xs.foldl (fun s y => s.saveSettle y) s).pauseSettle x
    else if (s.ctx x).state = .pausing then s
    else if (s.ctx x).state ≠ .active then s.complete c stOk 0 0 false false
    else if s.imagesLeft c.part < (s.ctxTiles x).length then s.complete c stNoSpace 0 0 false false
    else ((s.start n).beginPause x (some n) true).settle x c.part

def execPauseSave (cmd : Nat) (s : State) : Outcome := .next (pauseSave cmd s)

/-- The state of a set a save finds: a drain under way completes first (R270). -/
def setSettled (a : AccSet) : AccSet :=
  if a.state = .draining then (if a.keep then { a with state := .held } else {}) else a

/-- Bytes of a tile image (Table 9.7). -/
def tileImageBytes : Nat := 2797568

/-- Save the invocation of command c on tile t: its image, under the logical tile that t is in the command's own placement (R357,
R366), and the tile freed. -/
def State.saveTile (s : State) (c : Cmd) (t : Nat) : State :=
  let tl := s.tile t
  let img : SaveImage := { ctx := c.invCtx, logical := (findIdx (fun e => e.1 == t) (s.placeOf c) 0).getD 0, phys := t, cmd := c.seq,
                           tile := { tl with x := setSettled tl.x, y := setSettled tl.y } }
  let s := s.modPart c.part (fun q => { q with images := q.images ++ [img] })
  s.modTile t (Tile.release s.hif.timer)

/-- TILE_SAVE_DONE: a tile of a context that is being saved, or one that runs a search stage of a partition that is, has stopped
at a token boundary and written its image, once the partition's regulator lets it (R352, R355, R356, R360, R361, R362). -/
def tileSaveDone (t : Nat) (s : State) : State :=
  match (s.tile t).running.bind s.cmd? with
  | none => s
  | some c =>
    let k := s.ctx c.ctx
    let q := s.part c.part
    let due := if isSearch (dOpcode c.desc) then decide (q.state = .pausing) && q.pauseCmd.map Prod.snd == some true
      else (decide (k.state = .pausing) && k.precise && !s.deferring c.ctx) || (decide (k.state = .borrowed) && !s.awaited c.ctx)
    if !due then s
    else
      let g := s.bwRequest c.part [(c.seq, tileInv t)] [(0, tileImageBytes)]
      if g.1 then (g.2.saveTile c t).settle c.ctx c.part else g.2

/-- When the PAUSE that context x obeys was fetched; when it began, once that command is gone. -/
def State.pauseStamp (s : State) (x : Nat) : Nat :=
  let k := s.ctx x
  let n := match k.pauseCmd with
    | some n => some n
    | none => (s.part k.part).pauseCmd.map Prod.fst
  match n.bind s.cmd? with
  | some c => c.stamp
  | none => k.pauseAt

/-- HOLD_DEFER_EXPIRY of context x: HOLD_DEFER_US after its PAUSE was fetched it is saved anyway, its holdings marked
(R361). -/
def holdDeferExpiry (x : Nat) (s : State) : State :=
  let k := s.ctx x
  let lim := 1000 * fld (s.part k.part).cfg 0 16
  if k.state = .pausing ∧ k.precise ∧ s.holds x ∧ s.pauseStamp x + lim ≤ s.hif.timer then s.markHeld x else s

def execHoldDeferExpiry (ctx : BitVec 12) (s : State) : Outcome := .next (holdDeferExpiry ctx.toNat s)

/-- Time held counts as delay of cause 0x5, not also of a hold by QUIESCE (R446), and moves the cut-off (R101, R170,
R421). -/
def State.heldTime (s : State) (x : Nat) : State :=
  let d := s.hif.timer - (s.ctx x).pauseAt
  s.mapCmds (fun c => if c.ctx = x ∧ !isControl (dOpcode c.desc) then
    addDelay 5 d { c with heldFor := c.heldFor + d, lockFrom := c.lockFrom.map (· + d), bwWaits := tmap (fun _ t => t + d) c.bwWaits,
                          muta := c.muta.map (fun m => { m with since := m.since + d }) } else c)

/-- Context x goes on after a PAUSE: images restored, marks cleared, ACTIVE. -/
def State.resumeCtx (s : State) (x : Nat) : State :=
  let k := s.ctx x
  if k.state = .yielded ∨ k.state = .saved ∨ k.state = .borrowed then
    let p := k.part
    let s := (s.putImages p (fun i => i.ctx == x)).heldTime x
    let s := s.modPart p (fun q => { q with sems := tmap (fun _ (m : Sem) => { m with marked := m.marked.filter (· != x) }) q.sems })
    let s := { s with mem := { s.mem with streams := s.mem.streams.map (fun (t : Stream) => if t.ctx = x then { t with marked := false } else t) } }
    (s.modCtx x (fun k => { k with state := .active, precise := false, borrower := none })).candRefresh p
  else s

/-- The tiles that the current placement gives to the images of context x of partition p. -/
def State.imageTiles (s : State) (p x : Nat) : List Nat :=
  let q := s.part p
  (q.images.filter (fun i => i.ctx == x)).map q.imageTile

/-- No invocation occupies a tile that context x is restored onto (log entry 121). -/
def State.roomFor (s : State) (p x : Nat) : Bool := (s.imageTiles p x).all (fun t => (s.tile t).running.isNone)

/-- RESUME (R357, R358). A target still PAUSING is waited for (R112), and so is a tile that another invocation occupies. -/
def resume (n : Nat) (s : State) : State :=
  match s.ready? n (· == opResume) with
  | none => s
  | some c =>
    let x := ctlTarget c.desc
    if ctlPartScope c.desc then
      if (s.part x).state = .pausing then s
      else if (s.part x).state = .paused then
        if !(s.ctxsOfPart x ++ [devCtx x]).all (s.roomFor x) then s else
        let s := (s.putImages x (fun i => i.ctx == devCtx x)).modPart x (fun q => { q with state := .active, mergesSaved := [] })
        ((s.ctxsOfPart x).foldl State.resumeCtx s).complete c stOk 0 0 false false
      else s.complete c stOk 0 0 false false
    else if (s.ctx x).state = .active ∨ (s.ctx x).state = .tornDown then s.complete c stOk 0 0 false false
    else if (s.ctx x).state = .pausing ∨ !s.roomFor c.part x then s
    else (s.resumeCtx x).complete c stOk 0 0 false false

def execResume (cmd : Nat) (s : State) : Outcome := .next (resume cmd s)

def execTileSaveDone (tile : Fin 272) (s : State) : Outcome := .next (tileSaveDone tile.val s)

end Sys2Proof.Machine
end

