-- ==== Sys2Proof/Machine/Stop.lean ====
section
/-!
DEFINITION. Commands stopped before their end, and what that does to the device: the states of Table 16.9, forces
(R85, R468), context faults and their two policies (R369 to R371), semaphores (R359) and the watchdog (R364).
-/

namespace Sys2Proof.Machine

/-! ### Stopping one command (R465, Table 16.9) -/

/-- Take away what a command holds: tiles, places in passes, waits, images, streams, a barrier arrival and locks. -/
def State.dropHolds (s : State) (n : Nat) : State :=
  let s := s.freeTiles n
  let s := s.leavePasses (fun _ v => v.cmd == n)
  let dropSem : Nat → Sem → Sem := fun _ m => { m with waiters := m.waiters.filter (fun w => w.cmd != n) }
  let dropPart : Nat → Partition → Partition := fun _ q => { q with sems := tmap dropSem q.sems, images := q.images.filter (fun i => i.cmd != n) }
  let s := { s with sch := { s.sch with parts := tmap dropPart s.sch.parts } }
  let s := { s with mem := { s.mem with streams := s.mem.streams.filter (fun t => t.cmd != n) } }
  let s := { s with jrn := { s.jrn with locks := s.jrn.locks.filter (fun l => l.cmd != n) } }
  s.barrierWithdraw n

/-- A collection goes into recovery: FREE with BUSY_OP 0x24 until its image is loaded (R302). -/
def State.awaitRecovery (s : State) (c : Nat) : State :=
  let img : Image := tget {} s.jrn.images c
  let k : Coll := { recovering := true, owner := img.owner, data := { cfg := img.data.cfg } }
  let rs := insertBy (fun a b => decide (a < b)) c (s.jrn.recov.filter (· != c))
  { s with colls := tset s.colls c k, jrn := { s.jrn with recov := rs } }

/-- The collection's exclusive command ends with the collection in state st. -/
def State.collTo (s : State) (c : Nat) (st : CollState) : State := s.modColl c (fun k => { k with state := st, busyOp := 0 })

/-- Undo or hand on the internal effects of a command that stops (Table 16.9). -/
def State.undo (s : State) (c : Cmd) : State :=
  let op := dOpcode c.desc
  let o := dObject c.desc
  match c.job with
  | none => s
  | some j =>
    if op = opBuild then s.collTo o .failed
    else if op = opCompact ∨ op = opTrain then s.collTo o .ready
    else if op = opRestore ∧ dSubop c.desc = 0 then
      if j.start = .ready then s.awaitRecovery o
      else if j.start = .free then { s with colls := tdel s.colls o }
      else s.collTo o j.start
    else if op = opSanitise ∨ op = opFormat then
      { s with jrn := { s.jrn with maint := { s.jrn.maint with resumed := true, cmd := none } } }
    else if op = opModelLoad then { s with models := { s.models with slots := tset s.models.slots o {} } }
    else s

/-- Stop a command with a progress-reporting status. One at its last step is left to complete; a mutation that holds
JSEQs takes effect first, with the status `st` unless it was forced (R277, R468). -/
def State.abortCmd (s : State) (c : Cmd) (st : Nat) (force : Bool) : State :=
  match c.muta.bind MutWork.first with
  | some _ =>
    if force then s
    else s.modCmd c.seq (fun c => { c with muta := c.muta.map (fun m => { m with abort := some st }) })
  | none => if c.run = .last then s else ((s.dropHolds c.seq).undo c).stop c st

/-- The device's own checks find an inconsistency: INTERNAL on vector 0, and the command stops with ST_INTERNAL (R113,
Tables 16.1 and 16.3). -/
def State.internalStop (s : State) (c : Cmd) (code : Word32) : State :=
  (s.event 0x0070 3 0 0 code.toNat 0).abortCmd c stInternal false

/-- Stop every command that satisfies p, in fetch order. -/
def State.abortAll (s : State) (p : Cmd → Bool) (st : Nat) (force : Bool) : State :=
  (s.qm.cmds.filter p).foldl (fun s c => match s.cmd? c.seq with
    | some c => s.abortCmd c st force
    | none => s) s

/-! ### Borrowed runs (R362, R363) -/

/-- The first of the invocations that wait for a marked holding of x. -/
def State.waiterOf (s : State) (x : Nat) : Option SemWaiter := (s.waitersOf x).head?

/-- Save the whole invocation of command n, which waits for a holding of a saved context: one image a tile, or its command stops
when too few are free (R363). -/
def State.saveWaiter (s : State) (n : Nat) : State :=
  match s.cmd? n with
  | none => s
  | some c =>
    let ts := (s.tiles.filter (fun t => t.2.running == some n)).map Prod.fst
    if s.imagesLeft c.part < ts.length then s.abortCmd c stUnitFault false
    else (ts.foldl (fun s t => (s.bwCharge c.part 0 tileImageBytes).saveTile c t) s).modCtx c.ctx (fun k => { k with saves := satN 32 (k.saves + 1) })

/-- HOLDER_RESTORE of context x: a waiter on a marked holding makes the saved holder run BORROWED. The invocations of waiters that
occupy tiles of the holder are saved first; other invocations there are waited for (R362, R363). -/
def holderRestore (x : Nat) (s : State) : State :=
  let k := s.ctx x
  let p := k.part
  match s.waiterOf x with
  | none => s
  | some w =>
    let ws := (s.waitersOf x).map SemWaiter.cmd
    let used := (s.imageTiles p x).filterMap (fun t => (s.tile t).running)
    if k.state ≠ .saved ∨ !used.all ws.contains then s
    else
      let s := used.eraseDups.foldl State.saveWaiter s
      if !(s.ctx x).state = .saved ∨ !s.roomFor p x then s
      else (s.putImages p (fun i => i.ctx == x)).modCtx x (fun k => { k with state := .borrowed, borrower := some w.ctx })

def execHolderRestore (ctx : BitVec 12) (s : State) : Outcome := .next (holderRestore ctx.toNat s)

/-! ### Forces (R85, R345) -/

/-- DESTROY_FORCE of pair p. -/
def destroyForce (p : Nat) (s : State) : State :=
  let r := s.ring p
  if s.bar0Off then s
  else if r.state = .free then s.modRing p (fun r => { r with refused := true })
  else
    let s := s.modRing p (fun r => { r with state := .draining })
    let s := s.abortAll (fun c => c.ring == p) stAbortDisable true
    (s.ringSettle p).drainSettle (fld (s.ctx (cfgContext r.cfg)).cfg 16 4)

def execDestroyForce (s : State) : Outcome := .next (destroyForce s.qm.ringSel s)

/-- The error code of an operation on partition p. -/
def State.partErr (s : State) (p e : Nat) : State := s.modPart p (fun q => { q with err := e })

/-- DISABLE of partition p. -/
def disable (p : Nat) (s : State) : State :=
  let stopped := (s.ctxsOfPart p).any (fun x => decide ((s.ctx x).state = .pausing ∨ (s.ctx x).state = .yielded ∨
    (s.ctx x).state = .saved ∨ (s.ctx x).state = .borrowed))
  if s.bar0Off then s
  else if (s.part p).state ≠ .active ∨ stopped then s.partErr p 4
  else
    let s := s.modPart p (fun q => { q with state := .draining, err := 0 })
    let rs := (s.ringsOfPart p).filter (fun r => decide ((s.ring r).state = .active ∨ (s.ring r).state = .error))
    (rs.foldl (fun s r => ringDestroy r s) s).drainSettle p

def execDisable (s : State) : Outcome := .next (disable s.sch.partSel s)

/-- DISABLE_FORCE of partition p: its saved images are discarded. -/
def disableForce (p : Nat) (s : State) : State :=
  if s.bar0Off then s
  else if (s.part p).state ≠ .active ∧ (s.part p).state ≠ .paused then s.partErr p 4
  else
    let s := s.modPart p (fun q => { q with state := .draining, err := 0, images := [], mergesSaved := [] })
    let rs := (s.ringsOfPart p).filter (fun r => decide ((s.ring r).state ≠ .free))
    (rs.foldl (fun s r => destroyForce r s) s).drainSettle p

def execDisableForce (s : State) : Outcome := .next (disableForce s.sch.partSel s)

/-! ### Semaphores (R359, R362) -/

/-- Semaphore k of partition p. -/
def State.sem (s : State) (p k : Nat) : Sem := tget {} (s.part p).sems k

/-- Change it. -/
def State.modSem (s : State) (p k : Nat) (f : Sem → Sem) : State :=
  s.modPart p (fun q => { q with sems := tmod {} q.sems k f })

/-- Serve the waiters in order while the count covers the next one. The fuel is the number of waiters. -/
def semServe : Nat → Sem → Sem
  | 0, m => m
  | n + 1, m =>
    match m.waiters with
    | [] => m
    | w :: t => if w.amount ≤ m.count then
        semServe n { m with count := m.count - w.amount, waiters := t, holds := tset m.holds w.ctx (tget 0 m.holds w.ctx + w.amount) }
      else m

/-- Serve semaphore k, and restore waiters that were saved for a holder (R363). The time a served invocation waited on a
held-by-saved holding is delay of cause 0x5 (R421). -/
def State.semGrant (s : State) (p k : Nat) : State :=
  let was := (s.sem p k).waiters
  let s := s.modSem p k (fun m => semServe m.waiters.length m)
  let got := was.take (was.length - (s.sem p k).waiters.length)
  let s := got.foldl (fun s w => match w.heldFrom with
    | some t => s.modCmd w.cmd (addDelayOn (tileInv w.tile) 5 (s.hif.timer - t))
    | none => s) s
  s.restoreFree p

/-- The tile's invocation: its command, when the tile runs one and its context may run. -/
def State.tileCmd (s : State) (t : Nat) : Option Cmd :=
  match (s.tile t).running.bind s.cmd? with
  | some c => if s.invRuns c t then some c else none
  | none => none

/-! ### Context faults (R369 to R371) -/

/-- Give back what context x holds of each semaphore, with an event for each (R370). -/
def State.semRelease (s : State) (p x : Nat) : State :=
  (s.heldSems p x).foldl (fun s k =>
    let n := (tget 0 (s.sem p k).holds x).toNat
    let s := s.modSem p k (fun m => { m with count := m.count + n, holds := tdel m.holds x, marked := m.marked.filter (· != x) })
    (s.event 0x0051 2 7 p k x).semGrant p k) s

/-- Context teardown (R370). -/
def State.tearDown (s : State) (x : Nat) : State :=
  let k := s.ctx x
  let p := k.part
  let s := s.abortAll (fun c => c.ctx == x) stAbortTeardown false
  let s := ((s.ringsOfCtx x).filter (fun r => decide ((s.ring r).state = .active))).foldl (fun s r => s.ringError r 6) s
  let s := { s with models := { s.models with seqs := s.models.seqs.filter (fun q => q.ctx != x) },
                    mem := { s.mem with streams := s.mem.streams.filter (fun t => t.ctx != x) } }
  let s := s.semRelease p x
  let s := s.modCtx x (fun k => { k with state := .tornDown, pauseCmd := none, borrower := none })
  match k.pauseCmd.bind s.cmd? with
  | some c => s.complete c stOk 0 0 false false
  | none => s.settle x p

/-- Partition reset (R371). A DRAINING partition leaves that state only for OFF (Table 12.5): its commands end the same way. -/
def State.partReset (s : State) (p : Nat) : State :=
  let xs := s.ctxsOfPart p
  let ts := s.partTiles p
  let s := s.modPart p (fun q => { q with state := if q.state = .draining then .draining else .resetting, pauseCmd := none })
  let s := s.leavePasses (fun a _ => a.part == p)
  let s := s.abortAll (fun c => c.part == p) stAbortReset false
  let s := ts.foldl (fun s t => s.modTile t (fun x => { tileZero x with running := none, workSince := s.hif.timer })) s
  let s := { s with models := { s.models with seqs := s.models.seqs.filter (fun q => !xs.contains q.ctx) },
                    scan := { s.scan with aster := s.scan.aster.filter (fun u => !(s.part p).clusters.contains u.1) },
                    mem := { s.mem with streams := s.mem.streams.filter (fun t => !xs.contains t.ctx) } }
  let s := xs.foldl (fun s x => s.modCtx x (fun k => if k.state = .tornDown then k
    else { k with state := .active, pauseCmd := none, precise := false, borrower := none })) s
  ((s.modPart p (fun q => { q with sems := [], images := [], old := [], mergesSaved := [] })).candRefresh p).drainSettle p

/-- A context fault of context x by row `row` of Table 12.10 (R369). -/
def State.contextFault (s : State) (x row : Nat) : State :=
  let p := (s.ctx x).part
  let policy := flag (s.part p).cfg 31
  let s := s.event 0x0050 3 8 x row (bit policy)
  if policy then s.partReset p else s.tearDown x

/-- RESET of partition p by SCH_PART_CMD. -/
def partitionReset (p : Nat) (s : State) : State :=
  let st := (s.part p).state
  if s.bar0Off then s
  else if st ≠ .active ∧ st ≠ .pausing ∧ st ≠ .paused then s.partErr p 4
  else (s.partErr p 0).partReset p

def execPartitionReset (s : State) : Outcome := .next (partitionReset s.sch.partSel s)

/-- PARTITION_RESET_DONE: every command has completed, and the partition is ACTIVE again. -/
def partitionResetDone (p : Nat) (s : State) : State :=
  if (s.part p).state ≠ .resetting ∨ s.qm.cmds.any (fun c => c.part == p) then s
  else (s.modPart p (fun q => { q with state := .active })).candRefresh p

def execPartitionResetDone (part : BitVec 4) (s : State) : Outcome := .next (partitionResetDone part.toNat s)

/-! ### The watchdog (R364) -/

/-- The contexts that context x waits for: holders of semaphores it waits on, and holders of the reservations that keep a
stream of it, or one before it in the order of requests, from admission (R360). -/
def State.waitsFor (s : State) (x : Nat) : List Nat :=
  let p := (s.ctx x).part
  let bySem := ((s.part p).sems.filter (fun m => m.2.waiters.any (fun w => w.ctx == x))).flatMap
    (fun m => (m.2.holds.filter (fun h => decide (0 < h.2))).map Prod.fst)
  let mine := s.mem.streams.filter (fun t => t.reserve && (s.ctx t.ctx).part == p)
  let behind := fun (a : Stream) => mine.any (fun y => y.ctx == x && !y.admitted &&
    mine.any (fun z => !z.admitted && decide (z.id ≤ y.id) && s.buffersClash z a))
  let byStream := (mine.filter (fun a => a.admitted && behind a)).map Stream.ctx
  (bySem ++ byStream).filter (· != x)

/-- Contexts reachable from xs along waits, in at most n rounds. -/
def State.waitReach (s : State) : Nat → List Nat → List Nat
  | 0, xs => xs
  | n + 1, xs => s.waitReach n (dedupBy id (xs ++ xs.flatMap s.waitsFor) [])

/-- Context x waits for itself through other contexts. -/
def State.waitCycle (s : State) (x : Nat) : Bool := (s.waitReach (s.ctxsOfPart (s.ctx x).part).length (s.waitsFor x)).contains x

/-- The watchdog fires on context x: flags, event and context fault (cause 1 a cycle, 2 no progress). -/
def State.wdogFire (s : State) (x cause : Nat) : State :=
  let s := { s with sch := { s.sch with wdog := setFld (s.sch.wdog ||| 0x80000000) 16 12 x } }
  (s.event 0x0052 3 8 x cause 0).contextFault x 6

/-- WATCHDOG: an admitted stream has made no progress for LIMIT_US; a halt on a missing block does not count
(13_memory_system.md, "Interactions"). -/
def watchdog (id : Nat) (s : State) : State :=
  match s.mem.streams.find? (fun t => t.id == id) with
  | none => s
  | some t =>
    let lim := 1000 * max 1 (fld s.sch.wdog 0 16)
    if t.admitted ∧ !t.halted ∧ t.since + lim ≤ s.hif.timer then s.wdogFire t.ctx 2 else s

def execWatchdog (stream : Nat) (s : State) : Outcome := .next (watchdog stream s)

/-- The program on tile t operates on semaphore k: it goes on one operation, and holds a handle of the semaphore (R250). -/
def Tile.useSem (k : Nat) (t : Tile) : Tile :=
  { t with pos := t.pos + 1, semHandles := if t.semHandles.contains k then t.semHandles else t.semHandles ++ [k] }

/-- WAIT(n) by the invocation on tile t. -/
def semWait (t k n : Nat) (s : State) : State :=
  match s.tileCmd t with
  | none => s
  | some c =>
    let m := s.sem c.part k
    if m.waiters.any (fun w => w.tile == t && w.cmd == c.seq) then s
    else
      let w : SemWaiter := { ctx := c.ctx, cmd := c.seq, tile := t, amount := n, since := s.hif.timer,
                             heldFrom := if m.marked.any (· != c.ctx) then some s.hif.timer else none }
      let s := ((s.modTile t (Tile.useSem k)).modSem c.part k (fun m => { m with waiters := m.waiters ++ [w] })).semGrant c.part k
      if (s.sem c.part k).waiters.contains w ∧ s.waitCycle c.ctx then s.wdogFire c.ctx 1 else s

def execSemWait (tile : Fin 272) (sem : BitVec 10) (n : BitVec 16) (s : State) : Outcome :=
  .next (semWait tile.val sem.toNat n.toNat s)

/-- SIGNAL(n): a count above 65,535 is a context fault. -/
def semSignal (t k n : Nat) (s : State) : State :=
  match s.tileCmd t with
  | none => s
  | some c =>
    let m := s.sem c.part k
    if 65535 < m.count + n then s.contextFault c.ctx 5
    else
      let left := tget 0 m.holds c.ctx - (n : Int)
      let mk := if left ≤ 0 then m.marked.filter (· != c.ctx) else m.marked
      let add : Sem → Sem := fun m => { m with count := m.count + n, holds := tset m.holds c.ctx left, marked := mk }
      ((s.modTile t (Tile.useSem k)).modSem c.part k add).semGrant c.part k

def execSemSignal (tile : Fin 272) (sem : BitVec 10) (n : BitVec 16) (s : State) : Outcome :=
  .next (semSignal tile.val sem.toNat n.toNat s)

/-- SET stores a count. -/
def semSet (t k v : Nat) (s : State) : State :=
  match s.tileCmd t with
  | none => s
  | some c => ((s.modTile t (Tile.useSem k)).modSem c.part k (fun m => { m with count := v })).semGrant c.part k

def execSemSet (tile : Fin 272) (sem : BitVec 10) (n : BitVec 16) (s : State) : Outcome :=
  .next (semSet tile.val sem.toNat n.toNat s)

/-! ### ENABLE (R342, R345) -/

/-- The first n blocks of a list of free runs. -/
def takeBlocks : Nat → List Extent → List Extent
  | _, [] => []
  | n, e :: t => if n = 0 then [] else if n ≤ e.count then [{ e with count := n }] else e :: takeBlocks (n - e.count) t

/-- Reserve n blocks anywhere in the stacks; where they lie is the device's choice (log entry 20). -/
def State.reserveAny (s : State) (n : Nat) : List Extent × State :=
  let f := s.free
  let k := f.1 % 12
  let runs := ((List.range 12).map (fun i => (k + i) % 12)).flatMap s.tierFree
  let es := takeBlocks n runs
  (es, { f.2 with mem := { f.2.mem with missing := f.2.mem.missing.filter (fun m => !es.any (fun e => e.has m.block)) } })

/-- Blocks of a partition's three areas. -/
def areaBlocks (q : Partition) : Nat × Nat × Nat :=
  (128 * fld q.mem 0 16, 128 * fld q.mem 16 16,
   cdiv (saveImages q * tileImageBytes + q.clusters.length * 1048576) blockBytes)

/-- ENABLE of partition p (R342, R345, R413). -/
def partitionEnable (p : Nat) (s : State) : State :=
  let q := s.part p
  let r := q.res.toNat
  let clash := allParts.any (fun o => o != p && decide ((s.part o).state ≠ .off) && (s.part o).res.toNat &&& (r % 2 ^ 48) != 0)
  let a := areaBlocks q
  if s.bar0Off then s
  else if q.state ≠ .off then s.partErr p 4
  else if clash then s.partErr p 1
  else if bitsOf r 0 16 = 0 ∨ bitsOf r 16 16 = 0 then s.partErr p 2
  else if sumN ((List.range 12).map s.freeBlocks) < a.1 + a.2.1 + a.2.2 then s.partErr p 3
  else
    let m := s.reserveAny a.1
    let s := m.2.modPart p (fun q => { q with modelArea := m.1 })
    let w := s.reserveAny a.2.1
    let s := w.2.modPart p (fun q => { q with workArea := w.1 })
    let v := s.reserveAny a.2.2
    let s := v.2.modPart p (fun q => { q with saveArea := v.1 })
    let full : Regulator → Regulator := fun g => { g with level := (bwBurst g.reg * 4096 : Nat), filled := s.hif.timer }
    let s := s.modPart p (fun q => { q with state := .active, err := 0, sems := [], images := [], old := [], place := [],
                                            epoch := 0, bw := q.bw.map full })
    s.seedPhases p

def execPartitionEnable (s : State) : Outcome := .next (partitionEnable s.sch.partSel s)

end Sys2Proof.Machine
end

