-- ==== Sys2Proof/Machine/Mutation.lean ====
section
/-!
DEFINITION. Mutations from their range locks to their apply point, the frames of the journal store, versions, quiesce,
retention and the store's low-power state (10_mutation_durability.md, 15_twins_fleet.md).
-/

namespace Sys2Proof.Machine

/-! ### The journal store -/

/-- Usable bytes of the store (R300), staging and protected buffer. -/
def jrnCap : Nat := 12 * 10 ^ 12
def stageCap : Nat := 64 * 2 ^ 20
def bufCap : Nat := 192 * 2 ^ 20

/-- Bytes of frames at a place. -/
def Jrn.bytesAt (j : Jrn) (p : Place) : Nat := sumN ((j.frames.filter (fun f => decide (f.place = p))).map (fun f => f.bytes.length))

/-- A part is held under its list and the image that wrote it. -/
def ImgPart.key (p : ImgPart) : Nat := 65537 * p.img + (match p.list with | none => 0 | some l => l + 1)

/-- The image parts in the store: current images, snapshots, and what RETAIN keeps. -/
def Jrn.parts (j : Jrn) : List ImgPart :=
  j.images.flatMap (fun i => i.2.parts) ++ j.snaps.flatMap (fun x => x.2.image.parts) ++ j.kept

/-- State bytes of a session snapshot (R337). -/
def Snapshot.stateBytes (x : Snapshot) : Nat := sumN (x.seqs.map (fun q => q.2.pos * q.2.per))

/-- JSEQ n lies in one of the windows (lo, hi]. -/
def inWins (ws : List (Nat × Nat)) (n : Nat) : Bool := ws.any (fun w => decide (w.1 < n ∧ n ≤ w.2))

/-- A frame that a current image needs for recovery: its replay windows, and every frame above (R299, R300, R306). -/
def Jrn.imageNeeds (j : Jrn) (f : Frame) : Bool :=
  j.images.any (fun i => i.1 == f.coll && (decide (i.2.after < f.last) || inWins i.2.wins f.last))

/-- A frame that a snapshot pins: those of its replay windows, (J_E, J_S] the last (R303). -/
def Snapshot.pins (x : Snapshot) (f : Frame) : Bool := !x.session && x.object == f.coll && inWins x.image.wins f.last

/-- Bytes reclaimed if this snapshot alone were deleted (Table 10.24; log entry 21): the image parts and the frames that it
alone pins, or the state bytes of saved sequences (R337). -/
def Jrn.snapBytes (j : Jrn) (n : Nat) (x : Snapshot) : Nat :=
  if x.session then x.stateBytes
  else
    let rest := { j with snaps := j.snaps.filter (fun y => y.1 != n) }
    let held := rest.parts.map ImgPart.key
    partBytes (x.image.parts.filter (fun p => !held.contains p.key)) +
    sumN ((j.frames.filter (fun f => x.pins f && f.persisted && !j.imageNeeds f && !rest.snaps.any (fun y => y.2.pins f))).map
      (fun f => f.bytes.length))

/-- Bytes in use: every image part once, frames, and saved sequences. -/
def Jrn.used (j : Jrn) : Nat :=
  partBytes (dedupBy ImgPart.key j.parts []) + sumN (j.frames.map (fun f => f.bytes.length)) +
  sumN (j.snaps.map (fun x => if x.2.session then x.2.stateBytes else 0))

/-- Free bytes. -/
def Jrn.freeBytes (j : Jrn) : Nat := jrnCap - j.used

/-- Bytes of the parts that the store does not hold yet. -/
def Jrn.newBytes (j : Jrn) (ps : List ImgPart) : Nat :=
  let held := j.parts.map ImgPart.key
  partBytes (ps.filter (fun p => !held.contains p.key))

/-- JRN_TWIN bits. -/
def Jrn.mirror (j : Jrn) : Bool := flag j.twin 31
def Jrn.retain (j : Jrn) : Bool := flag j.twin 30
def Jrn.quiesced (j : Jrn) : Bool := flag j.twin 29

/-- A SNAPSHOT in flight pins a frame: one of the image it takes, up to its J_S (R303). -/
def Cmd.pins (c : Cmd) (f : Frame) : Bool :=
  match c.job with
  | some j => match j.img with
    | some i => dObject c.desc == f.coll && (inWins i.wins f.last || decide (i.after < f.last ∧ f.last ≤ j.mark))
    | none => false
  | none => false

/-- Reclaim the frames that neither a current image nor a snapshot needs, parts of replaced images, and old checkpoints,
unless RETAIN holds them (R299, R303, R437, R445). -/
def State.reclaim (s : State) : State :=
  if s.jrn.retain then s
  else
    let keep := fun (f : Frame) => !f.persisted || decide (f.applied = 0) || s.jrn.imageNeeds f ||
      s.jrn.snaps.any (fun x => x.2.pins f) || s.qm.cmds.any (fun c => c.pins f)
    let trim : Nat → Coll → Coll := fun _ k => { k with checks := k.checks.drop (k.checks.length - 64) }
    { s with jrn := { s.jrn with frames := s.jrn.frames.filter keep, kept := [] }, colls := tmap trim s.colls }

/-- Journal traffic now (R312). -/
def State.jrnUse (s : State) : State := { s with jrn := { s.jrn with lastUse := s.hif.timer } }

/-! ### Range locks (R285 to R287) -/

/-- Two locks overlap and conflict. -/
def Lock.conflicts (a b : Lock) : Bool :=
  a.coll == b.coll && a.list == b.list && decide (a.lo ≤ b.hi ∧ b.lo ≤ a.hi) && (a.excl || b.excl)

/-- The locks of a mutation with records rs (Table 10.5). -/
def mutLocks (d : CollData) (o op n : Nat) (rs : List (List Byte)) : List Lock :=
  let ids := rs.map recId
  let hit := fun (e : Entry) => !e.dead && ids.contains e.id
  let ls := (d.lists.zipIdx.filter (fun l => l.1.slots.any hit && op != opInsert)).map Prod.snd
  let fresh := addsFresh op || d.fresh.any (fun f => hit f.entry)
  [{ coll := o, list := false, lo := minL ids, hi := maxL ids, excl := true, cmd := n }] ++
  (if ls.isEmpty then [] else [{ coll := o, list := true, lo := minL ls, hi := maxL ls, excl := false, cmd := n }]) ++
  (if fresh then [{ coll := o, list := true, lo := freshList, hi := freshList, excl := false, cmd := n }] else [])

/-- The mutation has JSEQs. -/
def Cmd.journaled (c : Cmd) : Bool := (c.muta.bind MutWork.first).isSome

/-- An earlier mutation that must go first: one of the same ring and collection (R106), or one that waits or may request
and whose IDs overlap (R286). -/
def State.overtakes (s : State) (c : Cmd) (ids : List Nat) : Bool :=
  s.qm.cmds.any (fun x =>
    x.before c && isMutation (dOpcode x.desc) && dObject x.desc == dObject c.desc && !x.journaled &&
    (x.ring == c.ring ||
      (match x.muta with
       | some m =>
         let xs := (splitRecs (s.coll (dObject c.desc)).data.cfg (dOpcode x.desc) m.bytes).map recId
         !m.locked && (xs.isEmpty || decide (minL xs ≤ maxL ids ∧ minL ids ≤ maxL xs))
       | none => s.mayRun x)))

/-- A COMPACT or TRAIN waits to raise its lock on a range that one of these locks overlaps. -/
def State.raiseWaits (s : State) (ls : List Lock) : Bool :=
  s.qm.cmds.any (fun x => (x.job.map Job.raise) == some true &&
    (s.jrn.locks.filter (fun l => l.cmd == x.seq)).any (fun l => ls.any (fun k => k.conflicts { l with excl := true })))

/-- No lock that is held, and no raise that waits, conflicts with these locks (R286). -/
def State.lockClear (s : State) (ls : List Lock) : Bool := !s.jrn.locks.any (fun h => ls.any (fun l => l.conflicts h)) && !s.raiseWaits ls

/-- The table has entries for n locks of command c: it is not full, and no command fetched earlier waits for entries (R287). -/
def State.lockEntries (s : State) (c : Cmd) (n : Nat) : Bool :=
  decide (s.jrn.locks.length + n ≤ 256) && !s.earlier c (fun x => x.lockShort)

/-- The locks of command c can be granted now (R286, R287). -/
def State.lockFree (s : State) (c : Cmd) (ls : List Lock) : Bool := s.lockClear ls && s.lockEntries c ls.length

/-- The lock request of command c waits, and whether for table entries alone. -/
def State.lockWait (s : State) (c : Cmd) (ls : List Lock) : State :=
  let short := s.lockClear ls && !s.lockEntries c ls.length
  s.modCmd c.seq (fun c => { c with lockFrom := some (c.lockFrom.getD s.hif.timer), lockShort := short })

/-- The lock request of a command no longer waits: a stall counts as LATE_CAUSE 0x6 (R286). -/
def lockGot (now : Nat) (c : Cmd) : Cmd :=
  { addDelay 6 (match c.lockFrom with | some t => now - t | none => 0) c with lockFrom := none, lockShort := false }

/-- Hold locks. -/
def State.lock (s : State) (ls : List Lock) : State :=
  let t := s.jrn.locks ++ ls
  { s with jrn := { s.jrn with locks := t, peak := max s.jrn.peak t.length } }

/-- Release a command's locks. -/
def State.unlock (s : State) (n : Nat) : State := { s with jrn := { s.jrn with locks := s.jrn.locks.filter (fun l => l.cmd != n) } }

/-! ### From lock to JSEQ (R273, R275, R433) -/

/-- Fresh entries that mutations past their space check have still to add. -/
def State.reserved (s : State) (o : Nat) : Nat :=
  sumN ((s.jrn.frames.filter (fun f => f.coll == o && f.applied == 0 && addsFresh f.op)).map Frame.count) +
  sumN ((s.qm.cmds.filter (fun x => dObject x.desc == o && addsFresh (dOpcode x.desc) &&
    (match x.muta with | some m => m.locked && m.first.isNone | none => false))).map (fun x => dfld x.desc 0x1C 0 16))

/-- Room for n fresh entries and for the frame (R142, R273 step 4). -/
def State.mutFits (s : State) (o n bytes : Nat) : Bool :=
  let d := (s.coll o).data
  decide (s.freshUsed o + s.reserved o + n ≤ d.cfg.freshCap ∧ d.used + s.placedExtra o + s.reserved o + n ≤ d.cfg.maxEntries ∧
    bytes ≤ s.jrn.freeBytes)

/-- HOST_SEQ under mirroring (R433). -/
def State.hostSeqOk (s : State) (o h : Nat) : Bool :=
  !s.jrn.mirror || (decide (h ≠ 0 ∧ (s.coll o).hseq < h) &&
    (s.jrn.frames.filter (fun f => f.coll == o && f.applied == 0)).all (fun f => decide (f.hseq < h)))

/-- The frame's area has room (R280): staging under ack-on-apply, else the protected buffer. -/
def State.frameRoom (s : State) (dur n : Nat) : Bool :=
  if dur = 0 then decide (s.jrn.bytesAt .staging + n ≤ stageCap)
  else decide (s.jrn.bytesAt .buffer + s.jrn.bytesAt .assigned + n ≤ bufCap)

/-- Change a command's mutation work. -/
def State.modMut (s : State) (n : Nat) (f : MutWork → MutWork) : State :=
  s.modCmd n (fun c => { c with muta := some (f (c.muta.getD {})) })

/-- Assign JSEQs and make the frame, once the store is active and has room (R273 step 5, R313). -/
def State.assignJseq (s : State) (c : Cmd) (m : MutWork) : State :=
  let o := dObject c.desc
  let dur := (s.coll o).data.cfg.durability
  if s.jrn.lp ≠ 0 ∨ !s.frameRoom dur m.bytes.length then s
  else
    let first := s.jrn.next
    let n := dfld c.desc 0x1C 0 16
    let f : Frame := { coll := o, op := dOpcode c.desc, first := first, count := n, hseq := dfld c.desc 0x08 0 64, bytes := m.bytes,
                       place := if dur = 0 then .staging else .assigned }
    let s := { s with jrn := { s.jrn with next := first + n, frames := s.jrn.frames ++ [f] } }
    (s.jrnUse.modMut c.seq (fun m => { m with first := some first })).modCmd c.seq (fun c => { c with run := .last, spec0 := first })

/-- The bad lines of the structures that a mutation's records need: the table entry, the directory entries of the lists that
hold their IDs, and for new entries what encodes them (R141). -/
def State.recordLinesBad (s : State) (o op : Nat) (d : CollData) (ids : List Nat) : List Nat :=
  let ls := ((d.lists.zipIdx.filter (fun l => l.1.slots.any (fun e => !e.dead && ids.contains e.id))).map Prod.snd)
  s.tableLinesBad o ++ (if addsFresh op then encodeLinesBad s d else []) ++ dirLinesBad s d ls

/-- Steps 2 to 5 of R273 for a mutation whose records are read. -/
def State.mutLock (s : State) (c : Cmd) (m : MutWork) : State :=
  let o := dObject c.desc
  let op := dOpcode c.desc
  let d := (s.coll o).data
  let rs := splitRecs d.cfg op m.bytes
  if m.locked then s.assignJseq c m
  else
    let ls := mutLocks d o op c.seq rs
    if s.overtakes c (rs.map recId) then s.modMut c.seq (fun m => { m with waiting := true })
    else if !s.lockFree c ls then (s.lockWait c ls).modMut c.seq (fun m => { m with waiting := true })
    else
      let s := (s.lock ls).modCmd c.seq (fun c => { addDelay 6 (s.hif.timer - m.since) c with lockFrom := none, lockShort := false })
      let lines := s.recordLinesBad o op d (rs.map recId)
      let stop := fun (st : Nat) => (match s.cmd? c.seq with | some c => (s.unlock c.seq).complete c st 0 0 false false | none => s)
      if !s.hostSeqOk o (dfld c.desc 0x08 0 64) then stop stBadParam
      else if badRecords d op rs then stop stBadContent
      else if !s.mutFits o (if addsFresh op then rs.length else 0) m.bytes.length then stop stNoSpace
      else if !lines.isEmpty then
        (match (s.meetRead lines).cmd? c.seq with
         | some c => ((s.meetRead lines).unlock c.seq).complete c stUncorrectable 0 0 false false
         | none => s)
      else (s.modMut c.seq (fun m => { m with waiting := false, locked := true })).assignJseq c { m with locked := true }

/-- A COMPACT or TRAIN fetched earlier has still to bind, under mirroring (R434). -/
def State.mirrorWait (s : State) (c : Cmd) : Bool :=
  s.jrn.mirror && s.earlier c (fun x => (dOpcode x.desc == opCompact || dOpcode x.desc == opTrain) && dObject x.desc == dObject c.desc &&
    (x.job.bind Job.bound).isNone)

/-- Take a mutation as far as it can go before its frame persists (R273, R446). It starts with its range-lock request
(Table 12.8). -/
def State.mutAdmit (s : State) (c : Cmd) : State :=
  let o := dObject c.desc
  let k := s.coll o
  let m : MutWork := c.muta.getD { since := s.hif.timer }
  if m.first.isSome then s
  else if s.jrn.readOnly then (s.unlock c.seq).complete c stJrnFail 0 0 false false
  else if k.state = .free then (s.unlock c.seq).complete c stNoObject 0 0 false false
  else if k.state = .building ∨ k.state = .failed ∨ (k.state = .exclusive ∧ k.busyOp ≠ opCompact ∧ k.busyOp ≠ opTrain) then
    (s.unlock c.seq).complete c stBusy 0 0 false false
  else
    let s := s.modCmd c.seq (fun c => { c with muta := some m })
    if !m.waiting && !m.locked && (s.jrn.quiesced || s.mirrorWait c) then s
    else if m.bytes.isEmpty then
      let s := s.start c.seq
      match s.bufRead (dDevAddr c.desc) (dfld c.desc 0x10 0 64) (dfld c.desc 0x18 0 32) with
      | .error st => (s.bufMet (dDevAddr c.desc) (dfld c.desc 0x10 0 64) (dfld c.desc 0x18 0 32)).complete c st 0 0 false false
      | .ok bs =>
        let m := { m with bytes := bs }
        (s.modMut c.seq (fun _ => m)).mutLock c m
    else s.mutLock c m

/-- A mutation of one opcode runs. -/
def mutate (op n : Nat) (s : State) : State :=
  match s.ready? n (· == op) with
  | none => s
  | some c => s.mutAdmit c

def execInsert (cmd : Nat) (s : State) : Outcome := .next (mutate opInsert cmd s)
def execDelete (cmd : Nat) (s : State) : Outcome := .next (mutate opDelete cmd s)
def execUpsert (cmd : Nat) (s : State) : Outcome := .next (mutate opUpsert cmd s)
def execAttrSet (cmd : Nat) (s : State) : Outcome := .next (mutate opAttrSet cmd s)

/-- RANGE_LOCK_GRANT: a request that waits, or a mutation that waits for its JSEQs, goes on when it can (R280, R286). -/
def rangeLockGrant (n : Nat) (s : State) : State :=
  match s.ready? n isMutation with
  | none => s
  | some c => if c.muta.isSome then s.mutAdmit c else s

def execRangeLockGrant (cmd : Nat) (s : State) : Outcome := .next (rangeLockGrant cmd s)

/-- Let the mutations that satisfy p go on, in fetch order. -/
def State.admitAll (s : State) (p : Cmd → Bool) : State :=
  (s.qm.cmds.filter (fun c => isMutation (dOpcode c.desc) && c.muta.isSome && p c)).foldl (fun s c => rangeLockGrant c.seq s) s

/-! ### Frames (R278 to R284) -/

/-- Change the first frame that satisfies p. -/
def onFirst {α : Type} (p : α → Bool) (f : α → α) : List α → List α
  | [] => []
  | x :: t => if p x then f x :: t else x :: onFirst p f t

/-- The command that owns a frame. -/
def State.owner (s : State) (f : Frame) : Option Cmd := s.qm.cmds.find? (fun c => (c.muta.bind MutWork.first) == some f.first)

/-- A request of the partition that owns collection o for the command that owns frame f (R352). -/
def State.frameRequest (s : State) (f : Frame) (rs : List (Nat × Nat)) : Bool × State :=
  s.bwRequest (s.coll f.coll).owner ((s.owner f).toList.map (fun c => (c.seq, wholeInv))) rs

/-- FRAME_ENTER_BUFFER: the next frame in JSEQ order, when the buffer holds it; it travels in the journal LC class (R352). -/
def frameEnterBuffer (s : State) : State :=
  match s.jrn.frames.find? (fun f => decide (f.place = .assigned ∨ f.place = .staging)) with
  | none => s
  | some f =>
    if s.jrn.bytesAt .buffer + f.bytes.length ≤ bufCap then
      let g := s.frameRequest f [(4, f.bytes.length)]
      let put : Frame → Frame := fun f => { f with place := .buffer }
      if !g.1 then g.2
      else
      let s := g.2
      { s.jrnUse with jrn := { s.jrnUse.jrn with frames := onFirst (fun f => decide (f.place = .assigned ∨ f.place = .staging)) put s.jrn.frames } }
    else s

def execFrameEnterBuffer (s : State) : Outcome := .next (frameEnterBuffer s)

/-- The next frame to persist is at its persistence point (R278). -/
def State.canPersist (s : State) (f : Frame) : Bool :=
  decide (f.place = .nand) || (decide (f.place = .buffer) && s.module.holdupReady)

/-- FRAME_PERSISTED: the next frame in JSEQ order persists and H advances (R281). -/
def framePersisted (s : State) : State :=
  match s.jrn.frames.find? (fun f => !f.persisted) with
  | none => s
  | some f =>
    if s.canPersist f then
      let done : Frame → Frame := fun f => { f with persisted := true }
      { s with jrn := { s.jrn with h := max s.jrn.h f.last, frames := onFirst (fun (f : Frame) => !f.persisted) done s.jrn.frames } }.reclaim
    else s

def execFramePersisted (s : State) : Outcome := .next (framePersisted s)

/-- NAND_PROGRAM_DONE: the next frame in JSEQ order is programmed; NAND_WRITTEN counts whole GiB (Table 16.11). A
program that fails after persistence is redone elsewhere and changes nothing here (R284). -/
def nandProgramDone (s : State) : State :=
  match s.jrn.frames.find? (fun f => decide (f.place ≠ .nand)) with
  | none => s
  | some f =>
    if f.place ≠ .buffer then s
    else
      let put : Frame → Frame := fun f => { f with place := .nand }
      let total := s.jrn.programmed + f.bytes.length
      let fs := onFirst (fun (f : Frame) => decide (f.place ≠ .nand)) put s.jrn.frames
      let flushing := s.jrn.flush && fs.any (fun f => decide (f.place ≠ .nand))
      ({ s.jrnUse with jrn := { s.jrnUse.jrn with frames := fs, programmed := total % 2 ^ 30, flush := flushing } }).life 11 (total / 2 ^ 30)

def execNandProgramDone (s : State) : Outcome := .next (nandProgramDone s)

/-- JOURNAL_WRITE_FAIL: the next frame cannot be written; no higher frame is, and the store is READ_ONLY (R284). A command
still in flight has no record applied, since its completion follows its apply point. -/
def journalWriteFail (s : State) : State :=
  let lost := s.jrn.frames.filter (fun f => !f.persisted)
  if lost.isEmpty then s
  else
    let s := { s with jrn := { s.jrn with readOnly := true, frames := s.jrn.frames.filter Frame.persisted } }
    let s := s.event 0x0042 3 0 0 0 s.jrn.h
    lost.foldl (fun s f => match s.owner f with
      | some c => (s.unlock c.seq).complete c stJrnFail f.first f.applied false false
      | none => s) s

def execJournalWriteFail (s : State) : Outcome := .next (journalWriteFail s)

/-! ### Apply point (R276, R294) -/

/-- Logical fresh indices that older bound queries hold. -/
def State.heldFresh (s : State) (o : Nat) : List Nat :=
  s.qm.cmds.flatMap (fun x => if dObject x.desc = o ∧ isSearch (dOpcode x.desc) then
    (match x.query.bind QueryWork.bound with | some d => d.fresh.map Fresh.index | none => []) else [])

/-- Add to a collection's drift counts and test them (R201). -/
def State.driftAdd (s : State) (o elems hits : Nat) : State :=
  let k := (s.coll o).drift
  if k.frozen || elems == 0 then s
  else
    let w := 2 ^ (20 + fld s.scan.satCtl 24 4)
    let e := k.elems + elems
    let h := k.hits + hits
    let s := s.modColl o (fun c => { c with drift := { c.drift with elems := e, hits := h } })
    if flag s.scan.satCtl 31 && decide (k.elems / w < e / w) && decide ((k.basePpm + fld s.scan.satCtl 0 20) * e < h * 10 ^ 6) then
      (s.modColl o (fun c => { c with drift := { c.drift with flag := true, frozen := true } })).event 0x0030 0 9 o (h * 10 ^ 6 / e) 0
    else s

/-- The next frame of collection o to reach its apply point. -/
def State.nextApply (s : State) (o : Nat) : Option Frame :=
  match s.jrn.frames.find? (fun f => f.coll == o && f.applied == 0) with
  | none => none
  | some f => if f.persisted || (s.coll o).data.cfg.durability == 0 then some f else none

/-- New fresh entries need no version write (R290): memory takes them at once, each in place of what its slot held. -/
def Coll.freshToMem (k : Coll) : Coll :=
  let have' := k.phys.fresh.map Fresh.index
  let new := k.data.fresh.filter (fun f => !have'.contains f.index)
  let at' := fun (f : Fresh) => (f.index % 12, freshSlot k.data.cfg f.index)
  let old := k.phys.fresh.filter (fun f => !new.any (fun g => at' g == at' f))
  { k with phys := { k.phys with fresh := old ++ new } }

/-- The writes of a new fresh entry to its shard's columns pass the write-combining buffer (R384). -/
def State.wcbFresh (s : State) (d : CollData) (f : Fresh) : State :=
  let c := d.cfg
  let k := d.freshCols.getD (f.index % 12) {}
  let i := freshSlot c f.index
  (((s.wcbWrite (k.code + i * stride c) (stride c)).wcbWrite (k.attr + i * c.attrBytes) c.attrBytes).wcbWrite (k.id + 8 * i) 8).wcbWrite
    (k.res + i * recordSize c) (recordSize c)

/-- Attribute updates of existing entries pass the write-combining buffer too (R384): the attribute words that differ between two
contents, in lists and their replicas and in the fresh shards. -/
def State.wcbAttrs (s : State) (old d : CollData) : State :=
  let n := d.cfg.attrBytes
  let word : Cols → Nat → State → State := fun k i s => s.wcbWrite (k.attr + i * n) n
  let s := d.lists.zipIdx.foldl (fun s x =>
    let was := ((old.lists.getD x.2 {}).slots.map Entry.attr)
    let hit := (x.1.slots.zipIdx.filter (fun e => e.1.attr != was.getD e.2 e.1.attr)).map Prod.snd
    hit.foldl (fun s i => if x.1.replica.isSome then word x.1.repCols i (word x.1.cols i s) else word x.1.cols i s) s) s
  let hit := d.fresh.filter (fun f => old.fresh.any (fun g => g.index == f.index && g.entry.attr != f.entry.attr))
  hit.foldl (fun s f => word (d.freshCols.getD (f.index % 12) {}) (freshSlot d.cfg f.index) s) s

/-- A frame's records reach their apply point together (R276, R277), and the descriptor completes. -/
def State.applyNow (s : State) (f : Frame) : State :=
  let o := f.coll
  let k := s.coll o
  let r := k.applyFrame (s.heldFresh o) f
  let s1 := { s with colls := tset s.colls o r.1.freshToMem }
  let mark : Frame → Frame := fun x => { x with applied := x.count, chain := r.1.g }
  let s1 := { s1 with jrn := { s1.jrn with frames := onFirst (fun (x : Frame) => x.first == f.first) mark s1.jrn.frames } }
  let new := r.1.data.fresh.filter (fun x => !k.data.fresh.any (fun y => y.index == x.index))
  let s1 := new.foldl (fun s x => s.wcbFresh r.1.data x) (s1.wcbAttrs k.data r.1.data)
  let s1 := ((s1.driftAdd o r.2.elems r.2.hits).fmtCount r.2.sat r.2.nan).reclaim
  match s1.owner f with
  | none => s1
  | some c =>
    let st := (c.muta.bind MutWork.abort).getD (if r.2.absent then stOkAbsent else stOk)
    (s1.unlock c.seq).complete c st f.first f.count false false

/-- RECORD_APPLY: the next frame of a collection reaches its apply point; its stack writes are LC traffic (R276, R352). -/
def recordApply (o : Nat) (s : State) : State :=
  if (s.coll o).state = .free then s
  else match s.nextApply o with
    | none => s
    | some f =>
      let g := s.frameRequest f [(0, f.bytes.length)]
      if g.1 then g.2.applyNow f else g.2

def execRecordApply (coll : BitVec 10) (s : State) : Outcome := .next (recordApply coll.toNat s)

/-! ### Versions (R288, R289) -/

/-- The version of what is scanned (R288), and the version that memory writes follow (R289, R290). -/
def CollData.ver (d : CollData) : Scanned → Nat
  | .list l => tget 0 d.vers (listKey l)
  | .shard h => tget 0 d.vers (shardKey h)
def CollData.memVer (d : CollData) : Scanned → Nat
  | .list l => tget 0 d.vers (listKey l)
  | .shard h => tget 0 d.vers (marksKey h)

/-- Two contents read the same version of a list or shard: one index epoch and one version. Whether a list that COMPACT left
untouched is the same version at epochs E and E + 1 the spec does not say; here it is not (log entry 130). -/
def sameVersion (a b : CollData) (w : Scanned) : Bool := a.epoch == b.epoch && a.ver w == b.ver w

/-- Two contents name the same copy in memory: a rewrite puts a list into blocks of its own (R291). -/
def sameCopy (a b : CollData) : Scanned → Bool
  | .list l => decide ((a.lists.getD l {}).cols = (b.lists.getD l {}).cols)
  | .shard _ => true

/-- Memory holds what a content reads of a list or shard. -/
def memHolds (mem d : CollData) (w : Scanned) : Bool := !sameCopy d mem w || d.memVer w == mem.memVer w

/-- The contents bound by queries that still have a pass or a probe of `what` to end on the copy in memory. -/
def State.readers (s : State) (o : Nat) (w : Scanned) : List CollData :=
  s.qm.cmds.flatMap (fun c => if isSearch (dOpcode c.desc) && dObject c.desc == o then
    (match c.query with
     | some q => (match q.bound with
        | some d => if sameCopy d (s.coll o).phys w && q.qs.any (fun x => match x.probes with
            | some ps => ps.any (fun p => decide (p.what = w) && (match p.state with | .delivered | .withdrawn => false | _ => true))
            | none => !x.written && x.fixed.isNone) then [d] else []
        | none => [])
     | none => []) else [])

/-- The version that memory takes next: the least that a reader still needs, or the newest. -/
def nextVersion (newest : CollData) (w : Scanned) (rs : List CollData) : CollData :=
  rs.foldl (fun a d => if d.memVer w < a.memVer w then d else a) newest

/-- Memory takes one list's version. -/
def CollData.putList (p d : CollData) (l : Nat) : CollData :=
  { p with lists := lmod p.lists l (fun _ => d.lists.getD l {}), vers := tset p.vers (listKey l) (d.ver (.list l)) }

/-- Memory takes one fresh shard's version of content d; entries newer than d stay, and fresh entries stay in apply order
(R290). -/
def CollData.putShard (p d : CollData) (h : Nat) : CollData :=
  let others := p.fresh.filter (fun f => f.index % 12 != h)
  let now := d.fresh.filter (fun f => f.index % 12 == h)
  let lim := maxL (d.fresh.map (fun f => f.index + 1))
  let later := p.fresh.filter (fun f => f.index % 12 == h && decide (lim ≤ f.index))
  { p with fresh := (now ++ later).foldl (fun (l : List Fresh) f => insertBy (fun a b => decide (a.index < b.index)) f l) others,
           vers := tset p.vers (marksKey h) (d.memVer (.shard h)) }

/-- Buffer entries that a version write covers go to memory with it (R385). -/
def State.wcbVersion (s : State) (d : CollData) (w : Scanned) : State :=
  let cover := fun (s : State) (k : Cols) (n : Nat) =>
    ((s.wcbDrop k.code (n * stride d.cfg)).wcbDrop k.tomb (cdiv n 8)).wcbDrop k.attr (n * d.cfg.attrBytes)
  match w with
  | .list l => let il := d.lists.getD l {}; cover (cover s il.cols il.slots.length) il.repCols il.slots.length
  | .shard h => cover s (d.freshCols.getD h {}) (shardSlots d.cfg)

/-- VERSION_WRITE of a list or shard, once no reader of the version in memory is left: memory takes the next version that
a reader needs, or the newest (R289). A new epoch's structures lie in blocks of their own (R291). -/
def versionWrite (o : Nat) (w : Scanned) (s : State) : State :=
  let k := s.coll o
  let rs := s.readers o w
  if rs.any (fun d => decide (d.memVer w ≤ k.phys.memVer w)) then s
  else
    let d := nextVersion k.data w rs
    let s := s.wcbVersion d w
    match w with
    | .list l => s.modColl o (fun k' => { k' with phys := k'.phys.putList d l })
    | .shard h => s.modColl o (fun k' => { k' with phys := k'.phys.putShard d h })

def execVersionWrite (coll : BitVec 10) (what : Nat) (shard : Bool) (s : State) : Outcome :=
  .next (versionWrite coll.toNat (if shard then .shard (what % 12) else .list what) s)

/-! ### Twins: hold, retention, chain reads (R440, R445, R446) -/

/-- QUIESCE: a write of JRN_TWIN. Clearing QUIESCE releases held mutations in fetch order; clearing RETAIN reclaims. -/
def twinWrite (v : Word32) (s : State) : State :=
  if s.hif.inReset.isSome then s
  else
    let w := (v &&& 0xE0000000) ||| (s.jrn.twin &&& ~~~v &&& 1)
    let was := s.jrn.quiesced
    let s := { s with jrn := { s.jrn with twin := w } }.reclaim
    if was && !s.jrn.quiesced then s.admitAll (fun c => match c.muta with | some m => m.first.isNone | none => false) else s

def execQuiesce (value : Word32) (s : State) : Outcome := .next (twinWrite value s)

/-- RETAIN_LOST: free journal space has fallen below 1 % of the usable capacity. -/
def retainLost (s : State) : State :=
  if s.jrn.retain && decide (100 * s.jrn.freeBytes < jrnCap) then
    let s := { s with jrn := { s.jrn with twin := (s.jrn.twin &&& 0xBFFFFFFF) ||| 1 } }
    (s.event 0x0043 2 0 0 0 s.jrn.h).reclaim
  else s

def execRetainLost (s : State) : Outcome := .next (retainLost s)

/-- (HOST_SEQ, G) of a collection: as applied, or as the journal store holds them while it awaits recovery. -/
def State.collChain (s : State) (o : Nat) : Nat × List Byte :=
  let k := s.coll o
  if !k.recovering then (k.hseq, k.g)
  else
    let i : Image := tget {} s.jrn.images o
    let fs := s.jrn.framesAbove o i.after
    replayChain i.data.cfg (fs.length + i.events.length) (i.hseq, i.g) i.events fs

/-- The read of JRN_COLL_HSEQ latches G (R440). -/
def State.latchChain (s : State) : State × Nat :=
  let r := s.collChain s.jrn.collSel
  ({ s with jrn := { s.jrn with latched := r.2 } }, r.1)

/-- JRN_COLL_HSEQ_READ: a 64-bit read, which latches G. While a level is in progress it reads 0 (R70). -/
def jrnCollHseqRead (s : State) : State :=
  if s.hif.inReset.isSome then { s with hif := { s.hif with rdata := 0 } }
  else
    let r := s.latchChain
    { r.1 with hif := { r.1.hif with rdata := BitVec.ofNat 64 r.2 } }

def execJrnCollHseqRead (s : State) : Outcome := .next (jrnCollHseqRead s)

/-! ### Low power (R312, R313) -/

/-- A command that needs the store waits for it: mutations, saves, restores and maintenance, a FILTER_DEFINE, and a BUILD,
COMPACT or TRAIN that has its image to write (R299, R313). -/
def State.jrnWanted (s : State) : Bool :=
  decide (s.jrn.xfer.state = 1) || s.qm.cmds.any (fun c => let op := dOpcode c.desc
    isMutation op || op == opSnapshot || op == opRestore || op == opSanitise || op == opFormat || op == opFilter ||
    ((op == opBuild || op == opCompact || op == opTrain) && (c.job.bind Job.result).isSome))

/-- A command needs the store while it is not ACTIVE: LOW_POWER is left (Table 10.10). -/
def State.wakeStore (s : State) : State := if s.jrn.lp = 2 then { s with jrn := { s.jrn with lp := 3 } } else s

/-- JRN_LP_ENTRY. -/
def jrnLpEntry (s : State) : State :=
  let idle := max 1 (fld s.jrn.ctl 0 16)
  if s.jrn.lp = 0 ∧ flag s.jrn.ctl 16 ∧ s.jrn.lastUse + 1000000 * idle ≤ s.hif.timer ∧ !s.jrn.maint.active ∧ s.jrn.ready ∧
     s.jrn.frames.all (fun f => decide (f.place = .nand)) then { s with jrn := { s.jrn with lp := 1 } }
  else s

def execJrnLpEntry (s : State) : Outcome := .next (jrnLpEntry s)

/-- JRN_LP_ENTRY_DONE: to LOW_POWER, or to EXITING when a command waits. -/
def jrnLpEntryDone (s : State) : State :=
  if s.jrn.lp = 1 then { s with jrn := { s.jrn with lp := if s.jrnWanted then 3 else 2 } } else s

def execJrnLpEntryDone (s : State) : Outcome := .next (jrnLpEntryDone s)

/-- JRN_LP_EXIT_DONE: the store is ACTIVE and held commands proceed. -/
def jrnLpExitDone (s : State) : State :=
  if s.jrn.lp = 3 then
    let s := { s with jrn := { s.jrn with lp := 0, lastUse := s.hif.timer } }
    s.admitAll (fun c => match c.muta with | some m => m.locked && m.first.isNone | none => false)
  else s

def execJrnLpExitDone (s : State) : Outcome := .next (jrnLpExitDone s)

end Sys2Proof.Machine
end

