-- ==== Sys2Proof/Machine/Scales.lean ====
section
/-!
DEFINITION. Two-level scales (R238 to R241) and the shared-exponent block format (R242, R243).
-/

namespace Sys2Proof.Machine

/-! ### Two-level scales -/

/-- A tensor with two-level scales: element patterns, block scale codes (blocks of 16 elements along a row) and tensor
scale, with the conversions counted (R249). -/
structure TwoLevel where
  elems : List Nat
  scales : List Nat
  tscale : Nat
  sat : Nat := 0
  nan : Nat := 0
  deriving DecidableEq, Repr

/-- The target magnitude G of R241 in FP32. -/
def scaleTarget : Fmt → Nat
  | .e4m3 => f32Nat 448
  | .e5m2 => f32Nat 57344
  | _ => f32One

/-- The largest finite magnitude of FP32 patterns, as a pattern. -/
def maxMag (xs : List Nat) : Nat := maxL ((xs.filter (fun x => (decode .fp32 x).isFin)).map (fun x => x % 2 ^ 31))

/-- The tensor scale S (R241 step 1). -/
def tensorScale (f : Fmt) (xs : List Nat) : Nat :=
  if maxMag xs = 0 then f32One else fdiv .fp32 (maxMag xs) (fmul .fp32 (f32Nat 256) (scaleTarget f))

/-- A BS8 value in FP32. -/
def bs8F32 (c : Nat) : Nat := enc .fp32 (bs8V c)

/-- The block scale code (R241 step 2). -/
def blockScale (f : Fmt) (s : Nat) (xs : List Nat) : Nat :=
  if maxMag xs = 0 then 0x80
  else
    let fits := fun (c : Nat) =>
      leV (decode .fp32 (maxMag xs)) (decode .fp32 (fmul .fp32 (fmul .fp32 s (bs8F32 c)) (scaleTarget f)))
    ((List.range 254).map (· + 1)).find? fits |>.getD 0xFE

/-- Element conversion with the saturation of R241 step 3. -/
def scaledElem (f : Fmt) (t x : Nat) : Cvt :=
  let q := fdiv .fp32 x t
  let r := cvt f (decode .fp32 q)
  if (decode .fp32 x).isFin && !(decode .fp32 q).isNaN && !(decode f r.bits).isFin then
    { bits := maxFinite f + bit (decode .fp32 q).neg * 2 ^ (f.width - 1), sat := 1 }
  else r

/-- Encode a tensor given as rows of FP32 patterns (R241). -/
def twoLevel (f : Fmt) (rows : List (List Nat)) : TwoLevel :=
  let s := tensorScale f rows.flatten
  let blocks := rows.flatMap (fun r => piecesOf 16 (cdiv r.length 16) r)
  let cs := blocks.map (blockScale f s)
  let es := List.zipWith (fun b c => b.map (scaledElem f (fmul .fp32 s (bs8F32 c)))) blocks cs
  { elems := es.flatten.map Cvt.bits, scales := cs, tscale := s, sat := sumN (es.flatten.map Cvt.sat), nan := sumN (es.flatten.map Cvt.nan) }

/-- The decoded values, each the exact product e × s_b × S rounded once to FP32 (R238, R245). -/
def TwoLevel.decoded (t : TwoLevel) (f : Fmt) (rows : List (List Nat)) : List (List Nat) :=
  let w := (rows.map List.length).headD 0
  let per := cdiv w 16
  (List.range rows.length).map (fun i => (List.range w).map (fun j =>
    let e := decode f (lget 0 t.elems (i * w + j))
    let b := bs8V (lget 0x80 t.scales (i * per + j / 16))
    enc .fp32 (mulV (mulV e b 0 0) (decode .fp32 t.tscale) 0 0)))

/-- The scale table's bytes (Table 8.8). -/
def scaleTable (tscale : Nat) (scales : List Nat) : List Byte :=
  let head := natBytes 4 tscale
  let rest := natBytes 4 scales.length ++ natBytes 4 0 ++ scales.map (BitVec.ofNat 8)
  let n := 16 + scales.length
  head ++ natBytes 4 (crc32c (head ++ rest)) ++ rest ++ List.replicate (roundUp n 64 - n) 0

/-- The check of R240 on a table's bytes for a tensor of n blocks. -/
def scaleTableOk (n : Nat) (bs : List Byte) : Bool :=
  let t := decode .fp32 (getLE bs 0 4)
  let body := (bs.drop 8).take (8 + n)
  getLE bs 4 4 == crc32c (bs.take 4 ++ body) && getLE bs 8 4 == n && decide (16 + n ≤ bs.length) &&
  t.isFin && !t.neg && !t.isZero && ((bs.drop 16).take n).all (fun b => bs8Ok b.toNat)

/-! ### Shared exponents -/

/-- round(x × 2^(127 − E)) as a magnitude. -/
def seRound (e : Nat) (v : FV) : Nat :=
  match v with
  | .fin _ m x =>
    let k : Int := x + 127 - e
    if 0 ≤ k then m <<< k.toNat else rneShift m (-k).toNat false
  | _ => 0

/-- A block's exponent byte and mantissas, with counts (R243). -/
structure SeBlock where
  exp : Nat
  mants : List Int
  sat : Nat := 0
  nan : Nat := 0
  deriving DecidableEq, Repr

/-- Encode one block of FP32 patterns. -/
def seEncode (xs : List Nat) : SeBlock :=
  let vs := xs.map (decode .fp32)
  let bad := (vs.filter (fun v => !v.isFin)).length
  if bad ≠ 0 then { exp := 255, mants := xs.map (fun _ => 0), nan := bad }
  else
    let put := fun (e : Nat) (v : FV) => if v.neg then -(seRound e v : Int) else (seRound e v : Int)
    match (List.range 255).find? (fun e => vs.all (fun v => decide (seRound e v ≤ 127))) with
    | some e => { exp := e, mants := vs.map (put e) }
    | none =>
      { exp := 254, mants := vs.map (fun v => max (-127) (min 127 (put 254 v))),
        sat := (vs.filter (fun v => decide (127 < seRound 254 v))).length }

/-- A mantissa's value (R242). -/
def seDecode (e : Nat) (m : Int) : FV := if e = 255 then .nan false else .fin (decide (m < 0)) m.natAbs ((e : Int) - 127)

/-- Bytes of a tensor's shadow with n elements and reduction dimension r: mantissas, exponents, and a CRC for each 4 KiB
(R245). -/
def shadowBytes (n r : Nat) : Nat :=
  let b := n + (if r % 32 = 0 then n / 32 else n / 16)
  b + 4 * cdiv b 4096

end Sys2Proof.Machine
end

