-- ==== Sys2Proof/Machine/Train.lean ====
section
/-!
DEFINITION. What BUILD and TRAIN compute: permutations, Lloyd iterations, codebooks by Lloyd and Adam, scales, and the
encoding of vectors into lists (R118, R230, R294 to R298).
-/

namespace Sys2Proof.Machine

/-! ### Random choices (R297) -/

/-- n 64-bit words of the stream of (SEED, p) from word `off`. -/
def permWords (seed p off n : Nat) : List Nat :=
  let bs := shake256 (natBytes 4 seed ++ natBytes 1 p) (8 * (off + n))
  (List.range n).map (fun i => getLE bs (8 * (off + i)) 8)

/-- Swap two elements. -/
def swapAt (l : List Nat) (i j : Nat) : List Nat :=
  let a := lget 0 l i
  let b := lget 0 l j
  (l.set i b).set j a

/-- The Fisher–Yates shuffle of 0 … n − 1 from a list of n − 1 words. -/
def shuffle (n : Nat) (ws : List Nat) : List Nat :=
  (List.range (n - 1)).foldl (fun l k => let i := n - 1 - k; swapAt l i (lget 0 ws k % (i + 1))) (List.range n)

/-- The d-th drawing of permutation p. -/
def permutation (seed p n d : Nat) : List Nat := shuffle n (permWords seed p (d * (n - 1)) (n - 1))

/-- Elements a … a+k−1 of the consecutive drawings of permutation p. -/
def permRun (seed p n a k : Nat) : List Nat :=
  if n = 0 then []
  else
    let ds := (List.range (cdiv (a % n + k) n)).flatMap (fun i => permutation seed p n (a / n + i))
    (ds.drop (a % n)).take k

/-! ### Lloyd iterations (Table 10.7) -/

/-- Sum in ascending order by single adds, from +0. -/
def addUp (w : Nat) (xs : List (List Nat)) : List Nat := xs.foldl (List.zipWith (fadd .fp32)) (List.replicate w 0)

/-- The mean of the members of a class, or the old centre when it has none. -/
def meanOr (old : List Nat) (xs : List (List Nat)) : List Nat :=
  if xs.isEmpty then old else (addUp old.length xs).map (fun s => fdiv .fp32 s (f32Nat xs.length))

/-- The primary list of a vector. -/
def primaryList (c : CollCfg) (cents : List (List Nat)) (v : List Nat) : Nat :=
  ((rankLists c (cents.map (assignScore c v))).head?.map Prod.fst).getD 0

/-- One iteration on centroids. -/
def lloydCents (c : CollCfg) (xs : List (List Nat)) (cents : List (List Nat)) : List (List Nat) :=
  let as := xs.map (primaryList c cents)
  cents.zipIdx.map (fun p => meanOr p.1 (((xs.zip as).filter (fun x => x.2 == p.2)).map Prod.fst))

/-- The nearest codeword of a subvector. -/
def nearestWord (ws : List (List Nat)) (r : List Nat) : Nat := argMin (ws.map (l2Dist r))

/-- One iteration on the codewords of one subquantizer. -/
def lloydWords (rs ws : List (List Nat)) : List (List Nat) :=
  let as := rs.map (nearestWord ws)
  ws.zipIdx.map (fun p => meanOr p.1 (((rs.zip as).filter (fun x => x.2 == p.2)).map Prod.fst))

/-- n iterations. -/
def iter {α : Type} (f : α → α) : Nat → α → α
  | 0, x => x
  | n + 1, x => iter f n (f x)

/-! ### Adam (R297, R248) -/

/-- The constants of R297 in FP32. -/
def adamAlpha : Nat := 0x3A800000
def adamB1 : Nat := 0x3F666666
def adamB2 : Nat := 0x3F7FBE77
def adamEps : Nat := 0x32800000

/-- β^t by repeated FP32 products. -/
def fpow (b : Nat) : Nat → Nat
  | 0 => f32One
  | n + 1 => fmul .fp32 (fpow b n) b

/-- The training state of a codebook: codewords, moments, steps done, and conversions counted. -/
structure Adam where
  words : List (List Nat)
  m : List (List Nat)
  v : List (List Nat)
  t : Nat := 0
  sat : Nat := 0
  nan : Nat := 0
  deriving DecidableEq, Repr

/-- The gradient of codeword w of subquantizer j over a minibatch of residuals. -/
def gradOf (n j lv : Nat) (words : List (List Nat)) (batch : List (List Nat)) (w : Nat) : List Nat :=
  let ws := (words.drop (j * lv)).take lv
  let cw := ws.getD w []
  let mine := (batch.map (fun r => (r.drop (j * n)).take n)).filter (fun r => nearestWord ws r == w)
  (List.range n).map (fun k =>
    reduceTerms .fp32 (mine.map (fun r => decode .fp32 (fmul .fp32 0x40000000 (fsub .fp32 (lget 0 cw k) (lget 0 r k))))))

/-- Two rows of patterns combined element by element. -/
def rows2 (f : Nat → Nat → Nat) (a b : List (List Nat)) : List (List Nat) := List.zipWith (List.zipWith f) a b

/-- One step on a minibatch. -/
def adamStep (n pqM lv : Nat) (a : Adam) (batch : List (List Nat)) : Adam :=
  let t := a.t + 1
  let g0 := (List.range (pqM * lv)).map (fun i => gradOf n (i / lv) lv a.words batch (i % lv))
  let ge := twoLevel .e5m2 g0
  let g := ge.decoded .e5m2 g0
  let c1 := fsub .fp32 f32One adamB1
  let c2 := fsub .fp32 f32One adamB2
  let m0 := rows2 (fun m g => fadd .fp32 (fmul .fp32 adamB1 m) (fmul .fp32 c1 g)) a.m g
  let v0 := rows2 (fun v g => fadd .fp32 (fmul .fp32 adamB2 v) (fmul .fp32 (fmul .fp32 c2 g) g)) a.v g
  let me := twoLevel .bf16 m0
  let ve := twoLevel .bf16 v0
  let m := me.decoded .bf16 m0
  let v := ve.decoded .bf16 v0
  let k1 := fsub .fp32 f32One (fpow adamB1 t)
  let k2 := fsub .fp32 f32One (fpow adamB2 t)
  let step := rows2 (fun m v => fdiv .fp32 (fmul .fp32 adamAlpha (fdiv .fp32 m k1)) (fadd .fp32 (fsqrt .fp32 (fdiv .fp32 v k2)) adamEps)) m v
  { words := rows2 (fsub .fp32) a.words step, m := m, v := v, t := t, sat := a.sat + ge.sat + me.sat + ve.sat,
    nan := a.nan + ge.nan + me.nan + ve.nan }

/-- k steps on consecutive minibatches of `size` samples, each taken in ascending sample index (R297). -/
def adamRun (n pqM lv seed size : Nat) (rs : List (List Nat)) : Nat → Adam → Adam
  | 0, a => a
  | k + 1, a =>
    let batch := (sortBy (fun x y => decide (x < y)) (permRun seed 0x02 rs.length (a.t * size) size)).map (fun i => rs.getD i [])
    adamRun n pqM lv seed size rs k (adamStep n pqM lv a batch)

/-- Codewords as rows of DIM/PQ_M elements. -/
def wordRows (c : CollCfg) (cb : List Nat) : List (List Nat) :=
  let n := c.dim / max 1 c.pqM
  piecesOf n (c.pqM * (if c.codeType = 0 then 256 else 16)) cb

/-- Train PQ codebooks on residuals: Lloyd, then Adam. -/
def trainPq (c : CollCfg) (seed iters : Nat) (rs : List (List Nat)) (cb : List Nat) : Adam :=
  let n := c.dim / max 1 c.pqM
  let lv := if c.codeType = 0 then 256 else 16
  let ws := (List.range c.pqM).flatMap (fun j =>
    iter (lloydWords (rs.map (fun r => (r.drop (j * n)).take n))) (cdiv iters 2) (((wordRows c cb).drop (j * lv)).take lv))
  let zeros := ws.map (fun w => w.map (fun _ => 0))
  adamRun n c.pqM lv seed (min 65536 rs.length) rs (iters / 2) { words := ws, m := zeros, v := zeros }

/-! ### Scales (Table 10.7, R230) -/

/-- Column j of rows. -/
def column (rs : List (List Nat)) (j : Nat) : List Nat := rs.map (lget 0 · j)

/-- A statistic divided as the table says, or 1.0 when it is zero. -/
def scaleOr (a d : Nat) : Nat := if a = 0 then f32One else fdiv .fp32 a d

/-- The largest magnitude of a column (R230, Table 10.7): an infinity counts, a NaN compares with nothing (R233). -/
def maxAbs (xs : List Nat) : Nat := maxL ((xs.filter (fun x => !isNaN .fp32 x)).map (fun x => x % 2 ^ 31))

/-- 1.8627 as FP64. -/
def sq4Factor : Nat := 0x3FFDCD9E83E425AF

/-- The SQ scale table from residuals. -/
def trainSq (c : CollCfg) (rs : List (List Nat)) : List Nat :=
  (List.range c.dim).map (fun j =>
    let r := column rs j
    if c.codeType = 2 then scaleOr (maxAbs r) (f32Nat 127)
    else
      let ms := fdiv .fp64 (reduceTerms .fp64 (r.map (fun x => let w := convert .fp32 .fp64 x; prodTerm .fp64 w w)))
        (enc .fp64 (.fin false r.length 0))
      if (decode .fp64 ms).isZero ∨ r.isEmpty then f32One else convert .fp64 .fp32 (fmul .fp64 sq4Factor (fsqrt .fp64 ms)))

/-- The residual scales t_j from the residuals of the entries encoded (R230). -/
def deriveRes (c : CollCfg) (rs : List (List Nat)) : List Nat :=
  (List.range c.dim).map (fun j => scaleOr (maxAbs (column rs j)) (f32Nat (if c.resFmt = 6 then 127 else 448)))

/-! ### Parameters -/

/-- New parameters from a sample: centroids when `cents`, quantisers when `quant`. -/
def trainParams (d : CollData) (xs : List (List Nat)) (cents quant : Bool) (iters seed : Nat) : CollData × Nat × Nat :=
  let c := d.cfg
  let d := if cents then { d with centroids := iter (lloydCents c xs) iters d.centroids } else d
  if !quant then (d, 0, 0)
  else
    let rs := xs.map (fun x => residual .fp32 x (d.centroids.getD (primaryList c d.centroids x) []))
    if c.codeType ≤ 1 then
      let a := trainPq c seed iters rs d.codebook
      ({ d with codebook := a.words.flatten }, a.sat, a.nan)
    else if c.codeType ≤ 3 then ({ d with codebook := trainSq c rs }, 0, 0)
    else (d, 0, 0)

/-! ### Encoding vectors into lists (R118, R124, R296) -/

/-- A vector to place: ID, attribute word and its forms. -/
structure Vec where
  id : Nat
  attr : List Byte
  form : VecForm
  deriving DecidableEq, Repr

/-- The lists each vector goes to. -/
def assignAll (d : CollData) (vs : List Vec) : List (Vec × List Nat) := vs.map (fun v => (v, spillLists d v.form.v32))

/-- The residuals of every entry of an assignment, in FP32. -/
def assignRes (d : CollData) (as : List (Vec × List Nat)) : List (List Nat) :=
  as.flatMap (fun a => a.2.map (fun l => residual .fp32 a.1.form.v32 (d.centroids.getD l [])))

/-- With the residual scales a rewrite encodes with: derived when the configuration left them to the device. -/
def withResScale (d : CollData) (as : List (Vec × List Nat)) : CollData :=
  if (d.cfg.resFmt = 5 ∨ d.cfg.resFmt = 6) ∧ !d.cfg.resGiven then { d with resScale := deriveRes d.cfg (assignRes d as) } else d

/-- Encoded lists with the counts of R249 and the baseline of R200 and R294. -/
structure Placed where
  lists : List (List Entry)
  sat : Nat := 0
  nan : Nat := 0
  base : Nat := 0
  mean : Nat := 0
  deriving DecidableEq, Repr

/-- Encode an assignment into lists, in the order of the vectors. The baseline is the floor of the hit share in parts per
million: R200 does not say how it rounds (log entry 131). -/
def encodeAll (d : CollData) (as : List (Vec × List Nat)) : Placed :=
  let c := d.cfg
  let es := as.flatMap (fun a => a.2.map (fun l => (l, encodeVec d l a.1.id a.1.attr a.1.form)))
  let ls := (List.range c.listCount).map (fun l => (es.filter (fun e => e.1 == l)).map (fun e => e.2.1))
  let dist := as.flatMap (fun a =>
    let v := a.1.form.v32
    a.2.map (fun _ => reduceTerms .fp32 (List.zipWith (sqDiffTerm .fp32) v (d.centroids.getD (a.2.headD 0) []))))
  let n := es.length
  let mean := if n = 0 then 0 else fdiv .fp32 (reduceTerms .fp32 (dist.map (decode .fp32))) (f32Nat n)
  let sq := decide (c.codeType = 2 ∨ c.codeType = 3)
  let hits := if sq then sumN (es.map (fun e => e.2.2.hits))
    else c.dim * (dist.filter (fun x => ltV (decode .fp32 (fmul .fp32 0x40800000 mean)) (decode .fp32 x))).length
  { lists := ls, sat := sumN (es.map (fun e => e.2.2.sat)), nan := sumN (es.map (fun e => e.2.2.nan)),
    base := if n = 0 then 0 else hits * 10 ^ 6 / (n * c.dim), mean := if sq then 0 else mean }

end Sys2Proof.Machine
end

