-- ==== Sys2Proof/Machine/Collections.lean ====
section
/-!
DEFINITION. The commands that make, rewrite, save and end collections: BUILD, COMPACT, TRAIN, SNAPSHOT, RESTORE,
FILTER_DEFINE, SANITISE and FORMAT, recovery and resumed maintenance (04_collections_and_layout.md,
10_mutation_durability.md).
-/

namespace Sys2Proof.Machine

/-! ### Shared -/

/-- SPEC0 of unit-counting commands (Table 3.20). -/
def unitsSpec (done total : Nat) : Nat := done % 2 ^ 32 + 2 ^ 32 * (total % 2 ^ 32)

/-- Complete a unit-counting command with every unit done. -/
def State.doneUnits (s : State) (n epoch : Nat) : State :=
  match s.cmd? n with
  | some c => s.complete c stOk (let t := c.spec0 / 2 ^ 32; unitsSpec t t) epoch false false
  | none => s

/-- Complete a command that had no effect; a progress-reporting status shows its values as they stand (R102). -/
def State.refuse (s : State) (c : Cmd) (st : Nat) : State :=
  let p := progressClass st
  (s.unlock c.seq).complete c st (if p then c.spec0 else 0) (if p then c.spec1 else 0) false false

/-- One more unit of a command done, when it has one left (Tables 3.20 and 10.9). -/
def State.unitStep (s : State) (n : Nat) : State :=
  s.modCmd n (fun c =>
    let t := c.spec0 / 2 ^ 32
    { c with spec0 := if c.spec0 % 2 ^ 32 < t then unitsSpec (c.spec0 % 2 ^ 32 + 1) t else c.spec0 })

/-- The next unit of command c, once the requests that it makes proceed (R352; sizes: log entry 118). -/
def State.unitGo (s : State) (c : Cmd) (rs : List (Nat × Nat)) : State :=
  let g := s.bwRequest c.part [(c.seq, wholeInv)] rs
  if g.1 then g.2.unitStep c.seq else g.2

/-- The BULK requests of one of u units that together write these lists: their codes to the stacks, their residual records to the
far tier (R291, R376). -/
def listBulk (c : CollCfg) (entries u : Nat) : List (Nat × Nat) :=
  [(1, cdiv (entries * stride c) u), (3, cdiv (entries * recordSize c) u)]

/-- Every unit of a command is done. -/
def Cmd.unitsDone (c : Cmd) : Bool := decide (c.spec0 / 2 ^ 32 ≤ c.spec0 % 2 ^ 32)

/-- Change a command's job. -/
def State.modJob (s : State) (n : Nat) (f : Job → Job) : State := s.modCmd n (fun c => { c with job := c.job.map f })

/-- A collection's first image from its state (R299): image number i of the store. -/
def Coll.image (k : Coll) (i : Nat) : Image :=
  { epoch := k.data.epoch, markHseq := k.hseq, owner := k.owner, data := k.data, nextFresh := k.nextFresh,
    hseq := k.hseq, g := k.g, checks := k.checks, drift := k.drift.afterReset, parts := imageParts k.data i (fun _ => true) [] }

/-- Commit an image as current and reclaim what it frees; RETAIN holds the parts of the image it replaces (R445). -/
def State.commitImage (s : State) (o : Nat) (i : Image) : State :=
  let j := s.jrn
  let old : Image := tget {} j.images o
  ({ s with jrn := { j with images := tset j.images o i, kept := if j.retain then j.kept ++ old.parts else j.kept } }).jrnUse.reclaim

/-- The next image number. -/
def State.newImage (s : State) : Nat × State := (s.jrn.nextImg, { s with jrn := { s.jrn with nextImg := s.jrn.nextImg + 1 } })

/-- The newest 64 checkpoints with one more; RETAIN keeps them all (R437, R445). -/
def State.addCheck (s : State) (cs : List Check) (x : Check) : List Check :=
  let l := cs ++ [x]
  if s.jrn.retain then l else l.drop (l.length - 64)

/-! ### The configuration block (Tables 4.1 to 4.4, R114 to R116) -/

/-- The block with bytes 0x20–0x5F cleared. -/
def cfgStored (b : List Byte) : List Byte := b.take 32 ++ List.replicate 64 0 ++ (b.drop 96).take 32

/-- The fields of a block. -/
def cfgOf (b : List Byte) : CollCfg :=
  { metric := getLE b 0 1, codeType := getLE b 1 1, dim := getLE b 2 2, pqM := getLE b 4 1, attrBytes := getLE b 5 1,
    resFmt := bitsOf (getLE b 6 1) 4 4, spillMax := bitsOf (getLE b 6 1) 0 4, idInStack := bitsOf (getLE b 7 1) 2 1 == 1,
    durability := bitsOf (getLE b 7 1) 0 2, listCount := getLE b 8 4, freshCap := getLE b 12 4, maxEntries := getLE b 16 8,
    rho := getLE b 0x18 4, srcFmt := getLE b 0x1C 1, resGiven := getLE b 0x50 8 != 0, raw := cfgStored b }

/-- Its addresses and counts. -/
def cfgSource (b : List Byte) : Nat := getLE b 0x20 8
def cfgCount (b : List Byte) : Nat := getLE b 0x28 8
def cfgStride (b : List Byte) : Nat := getLE b 0x30 4
def cfgSample (b : List Byte) : Nat := getLE b 0x34 4
def cfgCent (b : List Byte) : Nat := getLE b 0x38 8
def cfgCode (b : List Byte) : Nat := getLE b 0x40 8
def cfgPlace (b : List Byte) : Nat := getLE b 0x48 8
def cfgRes (b : List Byte) : Nat := getLE b 0x50 8

/-- Content bytes of a source record (R115). -/
def contentBytes (c : CollCfg) : Nat := 8 + c.attrBytes + srcBytes c

/-- The code type, DIM, PQ_M and residual rules of Tables 4.2 to 4.4. -/
def cfgShapeOk (c : CollCfg) : Bool :=
  (match c.codeType with
   | 0 => decide (8 ≤ c.pqM ∧ c.pqM ≤ 128 ∧ c.pqM % 4 = 0 ∧ c.dim % c.pqM = 0)
   | 1 => decide (8 ≤ c.pqM ∧ c.pqM ≤ 128 ∧ c.pqM % 8 = 0 ∧ c.dim % c.pqM = 0)
   | 2 => decide (c.pqM = 0 ∧ c.dim % 4 = 0 ∧ c.dim ≤ 512)
   | 3 => decide (c.pqM = 0 ∧ c.dim % 8 = 0 ∧ c.dim ≤ 1024)
   | 4 => decide (c.pqM = 0 ∧ c.dim % 32 = 0 ∧ c.srcFmt = 4 ∧ c.resFmt = 0)
   | _ => false) &&
  decide (c.metric ≤ 3) && (c.metric == 3) == (c.codeType == 4) && decide (c.resFmt ≤ 6)

/-- Check 5 of R116 on the block, without the PLACE_ADDR bytes. -/
def cfgOk (b : List Byte) : Bool :=
  let c := cfgOf b
  let rho := decode .fp32 c.rho
  cfgShapeOk c && decide (1 ≤ c.dim ∧ c.dim ≤ 4096) && [0, 4, 8, 16].contains c.attrBytes && decide (1 ≤ c.spillMax ∧ c.spillMax ≤ 4) &&
  decide (c.durability ≤ 2) && decide (1 ≤ c.listCount ∧ c.listCount ≤ 65536) && decide (4096 ≤ c.freshCap ∧ c.freshCap ≤ 16777216) &&
  decide (1 ≤ c.maxEntries ∧ c.maxEntries ≤ 2 ^ 36) && rho.isFin && (!rho.neg || rho.isZero) && decide (c.srcFmt ≤ 4) &&
  bitsOf (getLE b 7 1) 3 5 == 0 && getLE b 0x1D 3 == 0 && getLE b 0x58 40 == 0 && decide (cfgStride b % 64 = 0) &&
  (if cfgSource b = 0 then decide (cfgCent b ≠ 0 ∧ (c.codeType = 4 ∨ cfgCode b ≠ 0))
   else decide (contentBytes c ≤ cfgStride b))

/-! ### BUILD (R117, R118) -/

/-- Read the content of n source records. -/
def State.readRecords (s : State) (dev : Bool) (a stride size : Nat) : Nat → Except Nat (List (List Byte))
  | 0 => .ok []
  | n + 1 => match s.bufRead dev a size with
    | .error e => .error e
    | .ok r => match s.readRecords dev (a + stride) stride size n with
      | .error e => .error e
      | .ok t => .ok (r :: t)

/-- A failed read of n source records meets their uncorrectable lines (R398). -/
def State.recordsMet (s : State) (dev : Bool) (a stride size n : Nat) : State :=
  (List.range n).foldl (fun (s : State) i => s.bufMet dev (a + i * stride) size) s

/-- FP32 values of a buffer, none for address 0. -/
def State.readF32 (s : State) (dev : Bool) (a n : Nat) : Except Nat (Option (List Nat)) :=
  if a = 0 then .ok none
  else match s.bufRead dev a (4 * n) with
    | .error e => .error e
    | .ok bs => .ok (some ((chunksOf 4 bs).map bytesNat))

/-- Keep the last occurrence of every ID. -/
def keepLast (rs : List (List Byte)) : List (List Byte) := (dedupBy recId rs.reverse []).reverse

/-- Every ⌊n/k⌋-th element, the first k of them; k = 0 means all (R118, R295). -/
def spread {α : Type} (k : Nat) (l : List α) : List α :=
  if k = 0 then l
  else
    let st := max 1 (l.length / k)
    ((l.zipIdx.filter (fun x => x.2 % st == 0)).map Prod.fst).take k

/-- Initial centroids: the first LIST_COUNT samples of permutation 0x01; those beyond the sample are free values of the
configuration and the sample (log entry 32). -/
def firstCents (c : CollCfg) (xs : List (List Nat)) : List (List Nat) :=
  let p := permutation 0 0x01 xs.length 0
  let got := (p.take c.listCount).map (fun i => xs.getD i [])
  got ++ (List.range (c.listCount - got.length)).map (fun i =>
    (List.range c.dim).map (fun j => Config.firstCentroid c.raw xs i j % 2 ^ 32))

/-- The parameters of a build: given or trained (ITERATIONS 16, SEED 0), with conversions counted. -/
def State.buildParams (s : State) (c : CollCfg) (cent cb rs : Option (List Nat)) (xs : List (List Nat)) : CollData × State :=
  let f : List (List Nat) := match cent with
    | some l => chunksOf c.dim l
    | none => firstCents c xs
  let lv := if c.codeType = 0 then 256 else 16
  let d : CollData := { cfg := c, centroids := f, resScale := rs.getD [] }
  let rx := xs.map (fun x => residual .fp32 x (d.centroids.getD (primaryList c d.centroids x) []))
  let cb0 := match cb with
    | some l => l
    | none => if c.codeType ≤ 1 then padTo 0 (lv * c.dim) ((Config.firstCodebook c.pqM lv rx).map (· % 2 ^ 32)) else []
  let t := trainParams { d with codebook := cb0 } xs cent.isNone (cb.isNone && c.codeType != 4) 16 0
  (t.1, s.fmtCount t.2.1 t.2.2)

/-- A content exceeds the limits of Table 4.11 on its entries or on the slots of one list: what needs it ends ST_NO_SPACE, as
R142 says of mutations (log entry 129). -/
def overLimits (c : CollCfg) (lists : List (List Entry)) (others : Nat) : Bool :=
  decide (c.maxEntries < sumN (lists.map List.length) + others) || lists.any (fun l => decide (2 ^ 32 - 1 < l.length))

/-- The space of R117 fits, with e entries. -/
def State.buildFits (s : State) (c : CollCfg) (e : Nat) : Bool :=
  let r := spaceRows c e
  let free := s.stackFree
  decide (r.1 ≤ sumN free ∧ r.2.1 ≤ maxL free ∧ r.2.2 ≤ blockBytes * s.freeBlocks 12)

/-- Lay out a content whose lists' slots are given. -/
def State.layColl (s : State) (d : CollData) (want : Nat → Option Nat) (slots : List (List Entry)) (epoch : Nat → Nat) :
    Option (CollData × State) :=
  match s.layHome d with
  | none => none
  | some (d, tk, s) =>
    match placeLists d.cfg want (s.freeBeside tk) (slots.zipIdx.map (fun x => (x.2, x.1.length))) with
    | none => none
    | some ps =>
      let plan := ps.map (fun p => ({ idx := p.1, slots := slots.getD p.1 [], epoch := epoch p.1, stack := p.2 } : ListPlan))
      match s.layLists d.cfg tk plan with
      | none => none
      | some (ls, _, s) =>
        some ({ d with lists := (List.range slots.length).map (fun l => ((ls.find? (fun x => x.1 == l)).map Prod.snd).getD {}) }, s)

/-- The chain value after BUILD (R436). -/
def buildChain (c : CollCfg) (count : Nat) (rs : List (List Byte)) : List Byte :=
  shake512 (natBytes 1 1 ++ padTo 0 128 c.raw ++ shake512 rs.flatten ++ natBytes 8 count)

/-- A BUILD that stops: the collection is left FREE or FAILED, and the command completes. -/
def State.buildStop (s : State) (o n st : Nat) (k : CollState) : State :=
  let s := if k = .free then { s with colls := tdel s.colls o } else s.collTo o k
  match s.cmd? n with
  | some c => s.stop c st
  | none => s

/-- BUILD from its source records: everything up to the encoded and placed lists. -/
def State.buildRun (s : State) (c : Cmd) (rs : List (List Byte)) : State :=
  let b := c.block
  let cfg := cfgOf b
  let o := dObject c.desc
  let dev := dDevAddr c.desc
  let cbN := codebookBytes cfg / 4
  let count := cfgCount b
  let claim : Coll := { state := .building, owner := c.part, busyOp := opBuild, data := { cfg := cfg } }
  let full := unitsSpec count count
  let s := (s.modColl o (fun _ => claim)).modCmd c.seq (fun c => { c with run := .running, spec0 := unitsSpec 0 count, job := some { total := count } })
  let stop := fun (s : State) (st : Nat) (k : CollState) => s.buildStop o c.seq st k
  match s.readF32 dev (cfgCent b) (cfg.listCount * cfg.dim), s.readF32 dev (cfgCode b) cbN, s.readF32 dev (cfgRes b) (resScaleBytes cfg / 4) with
  | .ok cent, .ok cb, .ok rsc =>
    let xs := (spread (cfgSample b) rs).map (fun r => vecF32 cfg (recEls cfg r))
    let pr := s.buildParams cfg cent cb rsc xs
    let vs := (keepLast rs).map (fun r => ({ id := recId r, attr := recAttr cfg r, form := vecForm cfg (recEls cfg r) } : Vec))
    let as := assignAll pr.1 vs
    let d := withResScale pr.1 as
    let e := encodeAll d as
    let want := fun (l : Nat) => if cfgPlace b = 0 then none else some (b.getD (128 + l) 0).toNat
    let s := pr.2.fmtCount e.sat e.nan
    match (if overLimits cfg e.lists 0 then none else s.orDropReplicas (fun s => s.layColl { d with epoch := 1 } want e.lists (fun _ => 1))) with
    | none => stop s stNoSpace .free
    | some (d, s) =>
      if s.jrn.freeBytes < imageBytes d then stop s stNoSpace .free
      else
        let g := buildChain cfg count rs
        let s := s.modCmd c.seq (fun c => { c with spec0 := full })
        s.modJob c.seq (fun j => { j with result := some d, g := g, checks := [{ epoch := 1, jseq := 0, g := g }],
                                          drift := { basePpm := e.base, mean := e.mean } })
  | .error st, _, _ => stop (s.bufMet dev (cfgCent b) (4 * cfg.listCount * cfg.dim)) st .failed
  | _, .error st, _ => stop (s.bufMet dev (cfgCode b) (4 * cbN)) st .failed
  | _, _, .error st => stop (s.bufMet dev (cfgRes b) (resScaleBytes cfg)) st .failed

/-- A collection that a start has still to recover, or whose SANITISE or FORMAT has still to resume (R302, R311). -/
def State.awaits (s : State) (o : Nat) : Bool :=
  (s.coll o).recovering || (s.jrn.maint.active && s.jrn.maint.target == o)

/-- BUILD: the space and content checks of R117, the claim at entry to BUILDING, then R118 up to the placed lists. -/
def build (n : Nat) (s : State) : State :=
  match s.ready? n (· == opBuild) with
  | none => s
  | some c =>
    let k := s.coll (dObject c.desc)
    let cfg := cfgOf c.block
    let n := if cfgSource c.block = 0 then 0 else cfgCount c.block
    if c.job.isSome then s
    else if s.awaits (dObject c.desc) then s.refuse c stBusy
    else if !s.buildFits cfg (cfgCount c.block * cfg.spillMax) ∧ !s.dropReplicas.buildFits cfg (cfgCount c.block * cfg.spillMax) then
      s.refuse c stNoSpace
    else match s.readRecords (dDevAddr c.desc) (cfgSource c.block) (cfgStride c.block) (contentBytes cfg) n with
      | .error st => (s.recordsMet (dDevAddr c.desc) (cfgSource c.block) (cfgStride c.block) (contentBytes cfg) n).refuse c st
      | .ok rs =>
        if rs.any (fun r => recId r == padId || (recEls cfg r).any (elemBad cfg)) then s.refuse c stBadContent
        else if k.state ≠ .free then s.refuse c stBusy
        else
          let g := s.bwRequest c.part [(c.seq, wholeInv)] (listBulk cfg (cfgCount c.block) 1)
          if g.1 then g.2.buildRun c rs else g.2

def execBuild (cmd : Nat) (s : State) : Outcome := .next (build cmd s)

/-- BUILD_DONE: the image of epoch 1 commits, once the store is ACTIVE, and the collection is READY (R132, R299, R312). -/
def buildDone (n : Nat) (s : State) : State :=
  match s.ready? n (· == opBuild) with
  | none => s
  | some c =>
    let o := dObject c.desc
    match c.job, c.job.bind Job.result with
    | some j, some d =>
      let b := s.bwRequest c.part [(n, wholeInv)] [(5, imageBytes d)]
      if s.jrn.lp ≠ 0 then s.wakeStore
      else if !b.1 then b.2
      else
        let s := b.2
        let k : Coll := { state := .ready, owner := c.part, data := d, phys := d, g := j.g, checks := j.checks, drift := j.drift }
        let i := s.newImage
        ({ i.2 with colls := tset s.colls o k }.commitImage o (k.image i.1)).doneUnits n 1
    | _, _ => s

def execBuildDone (cmd : Nat) (s : State) : Outcome := .next (buildDone cmd s)

/-! ### COMPACT (R154, R292, R293) -/

/-- A run reaches above its tier's usable capacity. -/
def State.runAbove (s : State) (e : Extent) : Bool := decide (0 < e.count ∧ (s.poolRange (tierOf e.first)).2 < e.first + e.count)

/-- R154 gives or keeps list l a replica at this rewrite. -/
def State.wantsReplica (s : State) (k : Coll) (l : Nat) (il : IList) : Bool :=
  let lc := k.data.lists.length
  let tot := sumN (k.probes.map Prod.snd)
  let p := tget 0 k.probes l
  if il.replica.isSome then decide (2 * tot ≤ p * lc) && !il.repRuns.any s.runAbove
  else
    let t := mostFree (lmod s.stackFree il.stack (fun _ => 0))
    decide (4 * tot < p * lc) && decide (2 * replicaBytes k.data.cfg il.slots.length ≤ lget 0 (lmod s.stackFree il.stack (fun _ => 0)) t) &&
      !il.slots.isEmpty

/-- What a COMPACT of lists lo..hi does to the state it binds: fresh entries moved with their lists, fresh entries
dropped, lists rewritten. -/
structure CompactPlan where
  moves : List (Fresh × List Nat)
  drops : List Nat
  lists : List Nat
  deriving DecidableEq, Repr

/-- The plan (R292). -/
def State.compactPlan (s : State) (k : Coll) (lo hi : Nat) : CompactPlan :=
  let d := k.data
  let inR := fun l => decide (lo ≤ l ∧ l ≤ hi)
  let mv := ((d.fresh.filter (fun f => !f.entry.dead)).map (fun f => (f, spillLists d (vecForm d.cfg f.vec).v32))).filter (fun x => x.2.all inR)
  let need := fun (x : IList × Nat) => inR x.2 &&
    (x.1.slots.any Entry.dead || mv.any (fun m => m.2.contains x.2) || (x.1.runs ++ x.1.repRuns).any s.runAbove ||
     s.wantsReplica k x.2 x.1 != x.1.replica.isSome)
  { moves := sortBy (fun a b => decide (a.1.index < b.1.index)) mv, drops := (d.fresh.filter (fun f => f.entry.dead && inR f.list)).map Fresh.index,
    lists := (d.lists.zipIdx.filter need).map Prod.snd }

/-- The slots of a rewritten list: live slots in order, then the fresh entries that move into it, with counts. -/
def rewriteSlots (d : CollData) (p : CompactPlan) (l : Nat) : List (Entry × Nat × Nat) :=
  (((d.lists.getD l {}).slots.filter (fun e => !e.dead)).map (fun e => (e, 0, 0))) ++
  (p.moves.filter (fun m => m.2.contains l)).map (fun m =>
    if m.2.headD 0 = l then (m.1.entry, 0, 0)
    else let r := encodeEntry d l m.1.entry.id m.1.entry.attr m.1.vec; (r.1, r.2.sat, r.2.nan))

/-- The new content: rewritten lists placed and replicated, the moved and dropped entries gone from the fresh segment. -/
def State.compactRun (s : State) (k : Coll) (p : CompactPlan) : Option (CollData × State) :=
  let d := k.data
  let e1 := d.epoch + 1
  let rows := p.lists.map (fun l => (l, rewriteSlots d p l))
  let gone := p.moves.map (fun m => m.1.index) ++ p.drops
  let kept := (d.lists.zipIdx.filter (fun l => !p.lists.contains l.2)).map (fun l => l.1.slots)
  let tooMany := overLimits d.cfg (kept ++ rows.map (fun r => r.2.map Prod.fst)) (d.fresh.filter (fun f => !gone.contains f.index)).length
  match (if tooMany then none else placeLists d.cfg (fun _ => none) s.stackFree (rows.map (fun r => (r.1, r.2.length)))) with
  | none => none
  | some ps =>
    let plan := ps.map (fun q => ({ idx := q.1, slots := (((rows.find? (fun r => r.1 == q.1)).map Prod.snd).getD []).map Prod.fst,
                                    epoch := e1, stack := q.2 } : ListPlan))
    match s.layLists d.cfg [] plan with
    | none => none
    | some (ls, tk, s) =>
      let rep := ls.foldl (fun (acc : List (Nat × IList) × List Extent × State) x =>
        if s.wantsReplica k x.1 (k.data.lists.getD x.1 {}) then
          match acc.2.2.layReplica d.cfg acc.2.1 x.2 with
          | some (l, tk, s) => (acc.1 ++ [(x.1, l)], tk, s)
          | none => (acc.1 ++ [x], acc.2)
        else (acc.1 ++ [x], acc.2)) ([], tk, s)
      let put := fun (l : IList × Nat) => ((rep.1.find? (fun x => x.1 == l.2)).map Prod.snd).getD l.1
      let cnt := rows.flatMap Prod.snd
      let s := rep.2.2.fmtCount (sumN (cnt.map (fun x => x.2.1))) (sumN (cnt.map (fun x => x.2.2)))
      some ({ d with epoch := e1, lists := d.lists.zipIdx.map put, fresh := d.fresh.filter (fun f => !gone.contains f.index) }, s)

/-- The first and last list of a COMPACT's range (R292). -/
def compactRange (lists first count : Nat) : Nat × Nat := (first, if count = 0 then lists - 1 else first + count - 1)

/-- An exclusive rewrite may bind: mutations of its ring are applied, and under mirroring every mutation of its
collection fetched before it (R293, R434). -/
def State.rewriteBinds (s : State) (c : Cmd) : Bool :=
  s.mutsDone c && !(s.jrn.mirror && s.earlier c (fun x => isMutation (dOpcode x.desc) && dObject x.desc == dObject c.desc))

/-- Start a rewrite with its result: locks, EXCLUSIVE, and the job. -/
def State.startRewrite (s : State) (c : Cmd) (ls : List Lock) (total : Nat) (d : CollData) (gone : List Nat) (drift : Drift) (sample : List Byte) : State :=
  let o := dObject c.desc
  let k := s.coll o
  let j : Job := { bound := some k.data, result := some d, mark := k.applied, dmark := if s.jrn.mirror then k.hseq else k.applied,
                   events := ((tget {} s.jrn.images o : Image).events).length, nextFresh := k.nextFresh, hseq := k.hseq, g := k.g, checks := k.checks,
                   drift := drift, moved := gone, sample := sample, total := total }
  let s := ((s.lock ls).modCmd c.seq (lockGot s.hif.timer)).modColl o (fun k => { k with state := .exclusive, busyOp := dOpcode c.desc })
  let spec1 := k.data.epoch
  s.modCmd c.seq (fun c => { c with run := .running, spec0 := unitsSpec 0 total, spec1 := spec1, job := some j })

/-- The digest event of a publish (Table 15.2). -/
def publishEvent (c : Cmd) (j : Job) (epoch : Nat) : List Byte :=
  let d := c.desc
  if dOpcode d = opCompact then
    natBytes 1 opCompact ++ natBytes 4 (dfld d 0x08 0 32) ++ natBytes 4 (dfld d 0x0C 0 32) ++ natBytes 8 j.dmark ++ natBytes 4 epoch
  else natBytes 1 opTrain ++ natBytes 2 (dSubop d) ++ natBytes 4 (dfld d 0x10 0 32) ++ natBytes 4 (dfld d 0x14 0 32) ++
    natBytes 4 (dfld d 0x18 0 32) ++ j.sample ++ natBytes 8 j.dmark ++ natBytes 4 epoch

/-- The request of a rewrite's image parts on the journal BULK regulator (R299, R352). -/
def State.rewriteImage (s : State) (c : Cmd) : Bool × State :=
  match c.job.bind Job.result with
  | some r =>
    let old : Image := tget {} s.jrn.images (dObject c.desc)
    let ps := imageParts r s.jrn.nextImg (fun l => decide ((r.lists.getD l {}).epoch = r.epoch)) old.parts
    s.bwRequest c.part [(c.seq, wholeInv)] [(5, s.jrn.newBytes ps)]
  | none => (true, s)

/-- Step 4 of R293: the image of epoch E + 1 at the mark of the binding point commits, sharing the list images of lists it
did not rewrite (R299), once the store is ACTIVE. From then on the command is at its last step (R468): what is committed is
published whatever happens (R301; log entry 65). -/
def State.rewriteCommit (s : State) (c : Cmd) : State :=
  let o := dObject c.desc
  let k := s.coll o
  match c.job, c.job.bind Job.result with
  | some j, some r =>
    if j.committed then s
    else if s.jrn.lp ≠ 0 then s.wakeStore
    else if !(s.rewriteImage c).1 then (s.rewriteImage c).2
    else
      let s := (s.rewriteImage c).2
      let old : Image := tget {} s.jrn.images o
      let i := s.newImage
      let d := { r with filters := k.data.filters, filterRuns := k.data.filterRuns }
      let img : Image := { epoch := r.epoch, mark := j.mark, markHseq := j.hseq, after := j.mark, owner := k.owner, data := d,
                           nextFresh := j.nextFresh, hseq := j.hseq, g := j.g, checks := j.checks, drift := j.drift.afterReset,
                           events := old.events.drop j.events, pub := some (publishEvent c j r.epoch),
                           parts := imageParts d i.1 (fun l => decide ((r.lists.getD l {}).epoch = r.epoch)) old.parts }
      ((i.2.commitImage o img).modJob c.seq (fun j => { j with committed := true })).modCmd c.seq (fun c =>
        let t := c.spec0 / 2 ^ 32
        { c with run := .last, spec0 := unitsSpec t t })
  | _, _ => s

/-- The entries of the lists that a rewrite makes. -/
def Cmd.rewriteEntries (c : Cmd) : Nat :=
  match c.job.bind Job.result with
  | some r => sumN ((r.lists.filter (fun l => decide (l.epoch = r.epoch))).map (fun l => l.slots.length))
  | none => 0

/-- A COMPACT or TRAIN that has bound goes on: its units one by one, then step 4. -/
def State.rewriteOn (s : State) (c : Cmd) : State :=
  if c.unitsDone then s.rewriteCommit c
  else s.unitGo c (listBulk (s.coll (dObject c.desc)).data.cfg c.rewriteEntries (c.spec0 / 2 ^ 32))

/-- The bad lines of the structures that a rewrite of lists needs: the table entry, their directory entries and, when it encodes,
centroids, codebooks and scales (R141). -/
def State.rewriteLinesBad (s : State) (o : Nat) (d : CollData) (ls : List Nat) (encodes : Bool) : List Nat :=
  s.tableLinesBad o ++ dirLinesBad s d ls ++ (if encodes then encodeLinesBad s d else [])

/-- COMPACT: bind, plan, build the new lists (R293 steps 1 to 3); run again, its units and the image of step 4. -/
def compact (n : Nat) (s : State) : State :=
  match s.ready? n (· == opCompact) with
  | none => s
  | some c =>
    let o := dObject c.desc
    let k := s.coll o
    let r := compactRange k.data.lists.length (dfld c.desc 0x08 0 32) (dfld c.desc 0x0C 0 32)
    let ls : List Lock := [{ coll := o, list := true, lo := r.1, hi := r.2, excl := false, cmd := n },
                           { coll := o, list := true, lo := freshList, hi := freshList, excl := false, cmd := n }]
    if c.job.isSome then s.rewriteOn c
    else if !s.rewriteBinds c then s
    else if k.state = .free then s.refuse c stNoObject
    else if k.state ≠ .ready then s.refuse c stBusy
    else if !s.lockFree c ls then s.lockWait c ls
    else if k.data.epoch = 0xFFFFFFFF then s.refuse c stNoSpace
    else
      let p := s.compactPlan k r.1 r.2
      let bad := s.rewriteLinesBad o k.data (List.range' r.1 (r.2 + 1 - r.1)) (!k.data.fresh.isEmpty)
      if !bad.isEmpty then (s.meetRead bad).refuse c stUncorrectable
      else match s.orDropReplicas (fun s => s.compactRun (s.coll o) p) with
      | none => s.refuse c stNoSpace
      | some (d, s1) =>
        let old : Image := tget {} s.jrn.images o
        if s1.jrn.freeBytes < s1.jrn.newBytes (imageParts d s1.jrn.nextImg p.lists.contains old.parts) then s.refuse c stNoSpace
        else s1.startRewrite c ls p.lists.length d (p.moves.map (fun m => m.1.index) ++ p.drops) k.drift []

def execCompact (cmd : Nat) (s : State) : Outcome := .next (compact cmd s)

/-! ### TRAIN (R295 to R298) -/

/-- The forms of a stored entry's vector, from its residual record, its bits, or neither (log entry 33). -/
def storedForm (d : CollData) (l : Nat) (e : Entry) : VecForm :=
  let c := d.cfg
  if c.codeType = 4 then
    let bits := (List.range c.dim).map (fun i => bitsOf (getLE e.code (i / 8) 1) (i % 8) 1)
    { v32 := bits.map f32Nat, v64 := [], bits := bits }
  else if c.resFmt = 0 then
    { v32 := (List.range c.dim).map (fun j => fadd .fp32 (lget 0 (d.centroids.getD l []) j) (Config.codeVector e.code d.codebook j % 2 ^ 32)),
      v64 := [], bits := [] }
  else { v32 := approxVec d .fp32 l e.res, v64 := if res64 c then approxVec d .fp64 l e.res else [], bits := [] }

/-- Live entries with their lists: lists in ascending list and slot order, then fresh entries in logical order. -/
def liveEntries (d : CollData) : List (Nat × Entry) :=
  (d.lists.zipIdx.flatMap (fun l => l.1.slots.map (fun e => (l.2, e))) ++
   (sortBy (fun (a b : Fresh) => decide (a.index < b.index)) d.fresh).map (fun f => (f.list, f.entry))).filter (fun x => !x.2.dead)

/-- One vector per live ID, in the order of its first entry. -/
def liveVecs (d : CollData) : List Vec :=
  let es := liveEntries d
  (dedupBy (fun x : Nat × Entry => x.2.id) es []).map (fun x =>
    let copies := es.filter (fun y => y.2.id == x.2.id)
    let y := copies.getD (Config.copyPick x.2.id % copies.length) x
    { id := x.2.id, attr := y.2.attr, form := storedForm d y.1 y.2 })

/-- A TRAIN's sample vectors and the digest of a host sample (Table 15.2). -/
def State.trainSample (s : State) (c : Cmd) (d : CollData) : Except Nat (List (List Nat) × List Byte) :=
  let a := dfld c.desc 0x08 0 64
  let n := dfld c.desc 0x10 0 32
  let size := contentBytes d.cfg
  if a = 0 then .ok ((spread n (liveEntries d)).map (fun x => (storedForm d x.1 x.2).v32), List.replicate 64 0)
  else match s.readRecords (dDevAddr c.desc) a (roundUp size 64) size n with
    | .error e => .error e
    | .ok rs => .ok (rs.map (fun r => vecF32 d.cfg (recEls d.cfg r)), shake512 rs.flatten)

/-- Re-encode and place vectors with given parameters. The content, its baseline and mean, and the state. -/
def State.trainRun (s : State) (d : CollData) (vs : List Vec) : Option ((CollData × Nat × Nat) × State) :=
  let as := assignAll d vs
  let e := encodeAll d as
  let e1 := d.epoch
  match (if overLimits d.cfg e.lists 0 then none
         else placeLists d.cfg (fun _ => none) s.stackFree (e.lists.zipIdx.map (fun x => (x.2, x.1.length)))) with
  | none => none
  | some ps =>
    let plan := ps.map (fun q => ({ idx := q.1, slots := e.lists.getD q.1 [], epoch := e1, stack := q.2 } : ListPlan))
    match s.layLists d.cfg [] plan with
    | none => none
    | some (ls, _, s) =>
      let lists := (List.range d.cfg.listCount).map (fun l => ((ls.find? (fun x => x.1 == l)).map Prod.snd).getD {})
      some (({ d with lists := lists, fresh := [] }, e.base, e.mean), s.fmtCount e.sat e.nan)

/-- UNITS_TOTAL of a TRAIN (Table 10.9). -/
def trainUnits (sub iters entries : Nat) : Nat := iters * (bitsOf sub 0 1 + bitsOf sub 1 1) + cdiv entries (2 ^ 20)

/-- TRAIN: bind, compute parameters, re-encode (R296); run again, its units and the image of step 4 (R298). -/
def train (n : Nat) (s : State) : State :=
  match s.ready? n (· == opTrain) with
  | none => s
  | some c =>
    let o := dObject c.desc
    let k := s.coll o
    let sub := dSubop c.desc
    let iters := dfld c.desc 0x14 0 32
    let ls : List Lock := [{ coll := o, list := true, lo := 0, hi := freshList, excl := false, cmd := n }]
    let bad := s.rewriteLinesBad o k.data (List.range k.data.lists.length) true
    if c.job.isSome then s.rewriteOn c
    else if !s.rewriteBinds c then s
    else if k.state = .free then s.refuse c stNoObject
    else if k.state ≠ .ready then s.refuse c stBusy
    else if !s.lockFree c ls then s.lockWait c ls
    else if k.data.epoch = 0xFFFFFFFF then s.refuse c stNoSpace
    else if !bad.isEmpty then (s.meetRead bad).refuse c stUncorrectable
    else match s.trainSample c k.data with
      | .error st =>
        let size := contentBytes k.data.cfg
        (s.recordsMet (dDevAddr c.desc) (dfld c.desc 0x08 0 64) (roundUp size 64) size (dfld c.desc 0x10 0 32)).refuse c st
      | .ok x =>
        let t := trainParams k.data x.1 (bitsOf sub 1 1 == 1) (bitsOf sub 0 1 == 1) iters (dfld c.desc 0x18 0 32)
        let vs := liveVecs k.data
        let d := withResScale { t.1 with epoch := k.data.epoch + 1 } (assignAll t.1 vs)
        match (s.fmtCount t.2.1 t.2.2).orDropReplicas (fun s => s.trainRun d vs) with
        | none => s.refuse c stNoSpace
        | some (r, s1) =>
          if s1.jrn.freeBytes < imageBytes r.1 then s.refuse c stNoSpace
          else s1.startRewrite c ls (trainUnits sub iters (liveEntries k.data).length) r.1 (k.data.fresh.map Fresh.index)
            { basePpm := r.2.1, mean := r.2.2 } x.2

def execTrain (cmd : Nat) (s : State) : Outcome := .next (train cmd s)

/-! ### Publish (R293 steps 4 to 7) -/

/-- What records after the binding point did to an entry of a rewritten list (the catch-up): its tombstone and attribute
word follow the entry it was made from. -/
def catchUp (bound live : CollData) (e : Entry) : Entry :=
  let lv := (List.zipWith (fun (a b : IList) => a.slots.zip b.slots) bound.lists live.lists).flatten ++
    bound.fresh.filterMap (fun f => (live.fresh.find? (fun g => g.index == f.index)).map (fun g => (f.entry, g.entry)))
  match lv.find? (fun p => !p.1.dead && p.1.id == e.id) with
  | some p => { e with dead := p.2.dead, attr := p.2.attr }
  | none => e

/-- The content that a rewrite publishes: rewritten lists with the catch-up, other lists and fresh entries as they
stand. Rewritten lists and the shards that moved or dropped entries lie in have new versions (R288, R293 step 6). -/
def published (bound live result : CollData) (moved : List Nat) : CollData :=
  let mine := fun (r : IList) => decide (r.epoch = result.epoch)
  let lists := List.zipWith (fun (r l : IList) => if mine r then { r with slots := r.slots.map (catchUp bound live) } else l)
    result.lists live.lists
  let gone := live.fresh.filter (fun f => moved.contains f.index)
  let keys := ((result.lists.zipIdx.filter (fun l => mine l.1)).map (fun l => listKey l.2)) ++
    ((List.range 12).filter (fun h => gone.any (fun f => f.index % 12 == h))).flatMap (fun h => [shardKey h, marksKey h])
  { result with lists := lists, fresh := live.fresh.filter (fun f => !moved.contains f.index), filters := live.filters,
                filterRuns := live.filterRuns, vers := (live.newVersions keys).vers }

/-- Memory at a publish: rewritten lists lie in blocks of their own; a list that was not rewritten, and the fresh shards, stay at
the version memory holds until their version write (R289, R291). -/
def publishedMem (mem d : CollData) : CollData :=
  let same := fun (x : IList × Nat) => let m := mem.lists.getD x.2 {}; decide (m.cols = x.1.cols ∧ m.epoch = x.1.epoch)
  let new := (d.lists.zipIdx.filter (fun x => !same x)).map Prod.snd
  { d with lists := d.lists.zipIdx.map (fun x => if same x then mem.lists.getD x.2 {} else x.1), fresh := mem.fresh,
           vers := new.foldl (fun t l => tset t (listKey l) (d.ver (.list l))) mem.vers }

/-- A vector that a fresh entry carries, as TRAIN encodes it anew at publish. -/
def lateVec (c : CollCfg) (f : Fresh) : Vec := { id := f.entry.id, attr := f.entry.attr, form := vecForm c f.vec }

/-- The entries that became fresh after TRAIN's binding point, encoded with its parameters (Table 10.7). -/
def lateVecs (d : CollData) : List Vec := (d.fresh.filter (fun f => !f.entry.dead)).map (lateVec d.cfg)
def encodeLate (d : CollData) : Placed := encodeAll d (assignAll d (lateVecs d))

/-- TRAIN moves the fresh entries into the lists: the content alone, without new places. -/
def moveLate (d : CollData) : CollData :=
  { d with lists := List.zipWith (fun (l : IList) (x : List Entry) => { l with slots := l.slots ++ x }) d.lists (encodeLate d).lists, fresh := [] }

/-- The content after TRAIN's move at publish, its lists placed anew in place of those that command n had laid out; every
fresh shard has a new version. -/
def State.trainLate (s : State) (n : Nat) (d : CollData) : Option (CollData × State) :=
  if d.fresh.isEmpty then some (d, s)
  else
    let s := s.modJob n (fun j => { j with result := none })
    let e := encodeLate d
    let m := moveLate d
    let slots := m.lists.map IList.slots
    match (if overLimits d.cfg slots 0 then none
           else placeLists d.cfg (fun _ => none) s.stackFree (slots.zipIdx.map (fun x => (x.2, x.1.length)))) with
    | none => none
    | some ps =>
      let plan := ps.map (fun q => ({ idx := q.1, slots := slots.getD q.1 [], epoch := d.epoch, stack := q.2 } : ListPlan))
      match s.layLists d.cfg [] plan with
      | none => none
      | some (ls, _, s) =>
        let m := m.newVersions ((List.range 12).flatMap (fun h => [shardKey h, marksKey h]))
        some ({ m with lists := (List.range slots.length).map (fun l => ((ls.find? (fun x => x.1 == l)).map Prod.snd).getD {}) },
              s.fmtCount e.sat e.nan)

/-- The baseline of a TRAIN over every entry it encodes, those moved at publish included (R200, R294). -/
def trainDrift (bound d : CollData) (j : Drift) : Drift :=
  if d.fresh.isEmpty then j
  else let e := encodeAll d (assignAll d (liveVecs bound ++ lateVecs d)); { basePpm := e.base, mean := e.mean }

/-- Epoch E + 1 is published: the collection is READY with content d, its chain absorbs the event, and the image that step 4
committed carries it (R293 step 6, R436, R437). A TRAIN publishes its baseline; a COMPACT starts the probe counts of R154. -/
def State.publish (s : State) (o : Nat) (d : CollData) (ev : List Byte) (dr : Drift) (isTrain : Bool) : State :=
  let k := s.coll o
  let g := absorb k.g ev
  let cs := s.addCheck k.checks { epoch := d.epoch, jseq := k.applied, g := g }
  let k1 := { k with state := .ready, busyOp := 0, data := d, phys := publishedMem k.phys d, g := g, checks := cs,
                     drift := if isTrain then dr else k.drift, probes := if isTrain then k.probes else [] }
  let i : Image := tget {} s.jrn.images o
  let i1 := { i with pub := none, events := i.events ++ [(k.applied, ev)], checks := cs, drift := k1.drift.afterReset }
  { s with colls := tset s.colls o k1, jrn := { s.jrn with images := tset s.jrn.images o i1 } }

/-- COMPACT_PUBLISH: what is left of steps 3 and 4, then the lock is raised to X once no other holder is left on its range; then
the rest of the catch-up is applied and epoch E + 1 is published (R293). Replicas are dropped where TRAIN's late entries
would find no space (R154); where they still find none the publish waits, since its image is committed (log entry 65). -/
def compactPublish (n : Nat) (s : State) : State :=
  match s.ready? n (fun op => op == opCompact || op == opTrain) with
  | none => s
  | some c0 =>
    let s := s.rewriteCommit c0
    match s.cmd? n with
    | none => s
    | some c =>
      let o := dObject c.desc
      let k := s.coll o
      let isTrain := decide (dOpcode c.desc = opTrain)
      match c.job, c.job.bind Job.bound, c.job.bind Job.result with
      | some j, some bound, some result =>
        let mine := (s.jrn.locks.filter (fun l => l.cmd == n)).map (fun l => { l with excl := true })
        if !j.committed then s
        else if s.jrn.locks.any (fun h => h.cmd != n && mine.any (fun l => l.conflicts h)) then
          (s.modJob n (fun j => { j with raise := true })).modCmd n (fun c => { c with lockFrom := some (c.lockFrom.getD s.hif.timer) })
        else
          let pub := published bound k.data result j.moved
          match (if isTrain then s.orDropReplicas (fun s => s.trainLate n pub) else some (pub, s)) with
          | none => s
          | some (d, s) =>
            let s := s.modCmd n (lockGot s.hif.timer)
            ((s.publish o d (publishEvent c j d.epoch) (if isTrain then trainDrift bound pub j.drift else j.drift) isTrain).unlock n).doneUnits n d.epoch
      | _, _, _ => s

def execCompactPublish (cmd : Nat) (s : State) : Outcome := .next (compactPublish cmd s)

/-! ### FILTER_DEFINE (R185 to R188) -/

/-- Room for a new filter on the home stack: its own block once, or a new one. -/
def State.filterRoom (s : State) (d : CollData) : Option (List (Nat × Extent) × State) :=
  if !d.filterRuns.isEmpty then some (d.filterRuns, s)
  else match s.allocRun [] d.home 1 with
    | some (e, s) => some ([(0, e)], s)
    | none => none

/-- A collection's programs and their block change: its chain absorbs the event, its image takes the programs, and command c
completes (R188, R299, R436). -/
def State.putFilters (s : State) (c : Cmd) (fs : List (Nat × List Byte)) (runs : List (Nat × Extent)) : State :=
  let o := dObject c.desc
  let k := s.coll o
  let sub := dSubop c.desc
  let ev := natBytes 1 opFilter ++ natBytes 2 sub ++ (if bitsOf sub 8 1 = 1 then [] else c.block)
  let s := s.modColl o (fun k => { k with data := { k.data with filters := fs, filterRuns := runs }, g := absorb k.g ev })
  let img := fun (i : Nat × Image) => if i.1 = o then (o, { i.2 with data := { i.2.data with filters := fs }, events := i.2.events ++ [(k.applied, ev)] }) else i
  { s.jrnUse with jrn := { s.jrnUse.jrn with images := s.jrn.images.map img } }.complete (s.again c) stOk 0 0 false false

/-- FILTER_DEFINE. -/
def filterDefine (n : Nat) (s : State) : State :=
  match s.ready? n (· == opFilter) with
  | none => s
  | some c =>
    let o := dObject c.desc
    let k := s.coll o
    let sub := dSubop c.desc
    let fid := sub % 256
    let del := bitsOf sub 8 1 == 1
    let had := k.data.filters.any (fun f => f.1 == fid)
    let b := s.bwRequest c.part [(n, wholeInv)] [(5, c.block.length)]
    if s.jrn.lp ≠ 0 then s.wakeStore
    else if k.state = .free then s.refuse c stNoObject
    else if !k.serves then s.refuse c stBusy
    else if !(s.tableLinesBad o).isEmpty then (s.meetRead (s.tableLinesBad o)).refuse c stUncorrectable
    else if !b.1 then b.2
    else if del then
      (if had then b.2.putFilters c (tdel k.data.filters fid) (if k.data.filters.length = 1 then [] else k.data.filterRuns) else s.refuse c stNoObject)
    else if !filterOk k.data.cfg.attrBytes c.block then s.refuse c stBadContent
    else if had then b.2.putFilters c (tset k.data.filters fid c.block) k.data.filterRuns
    else match b.2.orDropReplicas (fun s => s.filterRoom k.data) with
      | none => s.refuse c stNoSpace
      | some (runs, s) => s.putFilters c (tset k.data.filters fid c.block) runs

def execFilterDefine (cmd : Nat) (s : State) : Outcome := .next (filterDefine cmd s)

/-! ### SNAPSHOT (R303, R305) -/

/-- The catalog entry of a name. -/
def Jrn.findSnap (j : Jrn) (part : Nat) (session : Bool) (object label : Nat) : Option (Nat × Snapshot) :=
  j.snaps.find? (fun x => x.2.part == part && x.2.session == session && x.2.object == object && x.2.label == label)

/-- Commit a snapshot under its name, or none when the catalog is full or the store has no room. -/
def State.commitSnap (s : State) (x : Snapshot) : Option State :=
  let slot := match s.jrn.findSnap x.part x.session x.object x.label with
    | some y => some y.1
    | none => (List.range 4096).find? (fun i => !s.jrn.snaps.any (fun y => y.1 == i))
  match slot with
  | none => none
  | some i =>
    if s.jrn.freeBytes < (if x.session then x.stateBytes else s.jrn.newBytes x.image.parts) then none
    else some { s with jrn := { s.jrn with snaps := tset s.jrn.snaps i x, lastUse := s.hif.timer } }

/-- MiB of an image. -/
def imageMiB (d : CollData) : Nat := cdiv (imageBytes d) (2 ^ 20)

/-- SNAPSHOT of a collection: bound when it could bind, it waits until H ≥ J_S, then pins the image that was current at its
binding point with the frames of (J_E, J_S] (R303). -/
def snapshot (n : Nat) (s : State) : State :=
  match s.ready? n (· == opSnapshot) with
  | none => s
  | some c =>
    let o := dObject c.desc
    if dSubop c.desc ≠ 0 ∨ !s.mutsDone c ∨ s.jrn.lp ≠ 0 then s
    else if s.jrn.readOnly then s.refuse c stJrnFail
    else match c.job, c.job.bind Job.bound with
      | some j, some d =>
        let s := (s.start n).modCmd n (fun c => { c with spec0 := unitsSpec 0 (imageMiB d), spec1 := d.epoch })
        if s.jrn.h < j.mark then s
        else
          let cur : Image := j.img.getD {}
          let img : Image := { cur with epoch := d.epoch, after := j.mark, owner := c.part, data := d, nextFresh := j.nextFresh, hseq := j.hseq,
                                        g := j.g, checks := j.checks, drift := j.drift.afterReset, events := [], pub := none,
                                        wins := cur.wins ++ [(cur.after, j.mark)] }
          let x : Snapshot := { part := c.part, object := o, label := dfld c.desc 0x08 0 64, epoch := d.epoch, image := img }
          match s.commitSnap x with
          | none => s.refuse c stNoSpace
          | some s => s.doneUnits n d.epoch
      | _, _ => if (s.coll o).state = .free then s.refuse c stNoObject else s.refuse c stBusy

def execSnapshot (cmd : Nat) (s : State) : Outcome := .next (snapshot cmd s)

/-- SNAP_DELETE: JRN_SNAP_CMD.DELETE; while a RESTORE reads the snapshot it waits for that (R305). -/
def snapDelete (v : Word32) (s : State) : State :=
  let i := s.jrn.snapSel
  if s.hif.inReset.isSome ∨ !flag v 0 ∨ !s.jrn.snaps.any (fun x => x.1 == i) then s
  else
    let reads := fun (c : Cmd) => dOpcode c.desc == opRestore && (match c.job with | some j => j.snap == i | none => false)
    if s.qm.cmds.any reads then s.mapCmds (fun c => if reads c then { c with job := c.job.map (fun j => { j with gone := true }) } else c)
    else { s with jrn := { s.jrn with snaps := tdel s.jrn.snaps i } }.reclaim

def execSnapDelete (value : Word32) (s : State) : Outcome := .next (snapDelete value s)

/-! ### RESTORE (R306) -/

/-- The content of an image laid out anew under R140. -/
def State.layImage (s : State) (d : CollData) : Option (CollData × State) :=
  let bare := { d with filterRuns := [] }
  match s.layColl bare (fun _ => none) (d.lists.map IList.slots) (fun l => (d.lists.getD l {}).epoch) with
  | none => none
  | some (d1, s) =>
    if d.filters.isEmpty then some (d1, s)
    else match s.allocRun d1.runs d1.home 1 with
      | some (e, s) => some ({ d1 with filterRuns := [(0, e)] }, s)
      | none => none

/-- RESTORE of a collection: the checks, then EXCLUSIVE with the image to load, its index epoch unchanged until RESTORE
completes (R129); run again, the MiB read. -/
def restore (n : Nat) (s : State) : State :=
  match s.ready? n (· == opRestore) with
  | none => s
  | some c =>
    let o := dObject c.desc
    let k := s.coll o
    if dSubop c.desc ≠ 0 ∨ s.jrn.lp ≠ 0 then s
    else if c.job.isSome then s.unitGo c [(5, 2 ^ 20)]
    else if s.jrn.readOnly then s.refuse c stJrnFail
    else if s.awaits o ∨ (k.state ≠ .free ∧ k.state ≠ .ready ∧ k.state ≠ .failed) then s.refuse c stBusy
    else match s.jrn.findSnap c.part false o (dfld c.desc 0x08 0 64) with
      | none => s.refuse c stNoObject
      | some x =>
        let own := if k.state = .free then c.part else k.owner
        let empty : Coll := { k with state := .exclusive, owner := own, busyOp := opRestore, data := { cfg := k.data.cfg, epoch := k.data.epoch }, phys := {} }
        let s0 := { s with colls := tset s.colls o empty }
        match s0.orDropReplicas (fun s => s.layImage x.2.image.data) with
        | none => s.refuse c stNoSpace
        | some (d, s1) =>
          let u := unitsSpec 0 (imageMiB d)
          let j : Job := { result := some d, start := k.state, snap := x.1, total := imageMiB d }
          let e := k.data.epoch
          s1.modCmd n (fun c => { c with run := .running, spec0 := u, spec1 := e, job := some j })

def execRestore (cmd : Nat) (s : State) : Outcome := .next (restore cmd s)

/-- RESTORE_DONE: the marker frame takes JSEQ R, the catalog entry commits, and the collection is READY at the saved
epoch. The frames before the marker persist first (R280); in a store that has become READ_ONLY the marker cannot be written,
and RESTORE ends without effect (R284). A deletion that waited for it takes effect (R305). -/
def restoreDone (n : Nat) (s : State) : State :=
  match s.ready? n (· == opRestore) with
  | none => s
  | some c =>
    let o := dObject c.desc
    match c.job, c.job.bind Job.result with
    | some j, some d =>
      if s.jrn.readOnly then s.abortCmd c stJrnFail false
      else if s.jrn.lp ≠ 0 then s.wakeStore
      else if s.jrn.frames.any (fun f => !f.persisted) then s
      else
        let b := s.bwRequest c.part [(n, wholeInv)] (listBulk d.cfg (sumN (d.lists.map (fun l => l.slots.length))) 1)
        if !b.1 then b.2
        else
        let s := b.2
        let x : Snapshot := tget {} s.jrn.snaps j.snap
        let r := s.jrn.next
        let i := x.image
        let f : Frame := { coll := o, op := opRestore, first := r, count := 1, hseq := i.hseq, place := .nand, persisted := true, applied := 1 }
        let k : Coll := { state := .ready, owner := c.part, data := d, phys := d, nextFresh := i.nextFresh, applied := r, hseq := i.hseq, g := i.g,
                          checks := i.checks.filter (fun q => decide (q.epoch ≤ x.epoch)), drift := i.drift }
        let img := { i with after := r, owner := c.part, data := d, checks := k.checks, events := [] }
        let s := { s with colls := tset s.colls o k, jrn := { s.jrn with next := r + 1, h := r, frames := s.jrn.frames ++ [f] } }
        (s.commitImage o img).doneUnits n x.epoch
    | _, _ => s

def execRestoreDone (cmd : Nat) (s : State) : Outcome := .next (restoreDone cmd s)

/-! ### SANITISE and FORMAT (R308 to R311) -/

/-- GiB of raw NAND. -/
def rawNandGiB : Nat := 14902

/-- UNITS_TOTAL (R310). -/
def State.maintUnits (s : State) (o : Nat) : Nat :=
  if o = 0xFFFF then rawNandGiB + (sumN ((List.range 12).map s.stkUnits) + s.farUnits) / 4
  else cdiv (blockBytes * sumN ((s.coll o).data.runs.map Extent.count)) (2 ^ 30)

/-- The request of one unit on the journal BULK regulator of the partition of its command, or of the collection; a whole-store
operation that goes on after a reset is no partition's (R308, R352). -/
def State.maintRequest (s : State) : Bool × State :=
  let m := s.jrn.maint
  match m.cmd.bind s.cmd? with
  | some c => s.bwRequest c.part [(c.seq, wholeInv)] [(5, 2 ^ 30)]
  | none => if m.target = 0x7FF then (true, s) else s.bwRequest (s.coll m.target).owner [] [(5, 2 ^ 30)]

/-- The progress of a running operation is persisted after each GiB unit (R310), all of them but the last, which MAINT_DONE
ends; the command that runs it shows it. -/
def State.maintUnit (s : State) : State :=
  let m := s.jrn.maint
  if m.done + 1 < m.total then
    let g := s.maintRequest
    if !g.1 then g.2
    else
    let s := g.2
    let s1 := { s.jrnUse with jrn := { s.jrnUse.jrn with maint := { m with done := m.done + 1 } } }
    match m.cmd with
    | some n => s1.unitStep n
    | none => s1
  else s

/-- SANITISE (op 2) or FORMAT (op 1) starts; run again, it goes on by one unit. -/
def State.maintStart (s : State) (c : Cmd) (op : Nat) : State :=
  let o := dObject c.desc
  let k := s.coll o
  let whole := decide (o = 0xFFFF)
  if s.jrn.lp ≠ 0 then s
  else if c.job.isSome then s.maintUnit
  else if s.jrn.maint.active then s.refuse c stBusy
  else if !whole && k.recovering then s.refuse c stBusy
  else if !whole && decide (k.state = .free) then s.refuse c stNoObject
  else if !whole && decide (k.state ≠ .ready ∧ k.state ≠ .failed) then s.refuse c stBusy
  else
    let t := s.maintUnits o
    let m : Maint := { op := op, target := if whole then 0x7FF else o, total := t, active := true, cmd := some c.seq }
    let s := { s with jrn := { s.jrn with maint := m } }
    let s := if whole then s else s.modColl o (fun k => { k with state := .exclusive, busyOp := dOpcode c.desc })
    s.modCmd c.seq (fun c => { c with run := .running, spec0 := unitsSpec 0 t, job := some { total := t } })

def sanitise (n : Nat) (s : State) : State :=
  match s.ready? n (· == opSanitise) with | some c => s.maintStart c 2 | none => s

def execSanitise (cmd : Nat) (s : State) : Outcome := .next (sanitise cmd s)

def format (n : Nat) (s : State) : State :=
  match s.ready? n (· == opFormat) with | some c => s.maintStart c 1 | none => s

def execFormat (cmd : Nat) (s : State) : Outcome := .next (format cmd s)

/-- Free a collection with its image, frames and snapshots (R308). -/
def State.freeColl (s : State) (o : Nat) : State :=
  let j := s.jrn
  { s with colls := tdel s.colls o,
           jrn := { j with images := tdel j.images o, frames := j.frames.filter (fun f => f.coll != o),
                           snaps := j.snaps.filter (fun x => x.2.session || x.2.object != o), recov := j.recov.filter (· != o) } }

/-- NAND_PE_MEAN and NAND_PE_MAX rise by a and b cycles, and NAND_LIFE_USED follows (Table 16.11). -/
def State.nandErased (s : State) (a b : Nat) : State :=
  let s := (s.life 8 a).life 9 b
  { s with mgt := { s.mgt with life := lmod s.mgt.life 10 (fun _ => 2 * lget 0 s.mgt.life 8) } }

/-- The effect of a finished SANITISE or FORMAT (R308, R309). Zeroed blocks read 0 and hold no bad line. SANITISE of the whole
store erases every NAND block once; that of a collection moves other collections' live frames, which stay as they are, and erases
the blocks that held its own, whose number and wear are internal (log entry 132). -/
def State.maintEffect (s : State) : State :=
  let m := s.jrn.maint
  if m.target = 0x7FF then
    let j := s.jrn
    let s := { s with colls := [], jrn := { j with h := 0, next := 1, readOnly := false, frames := [], images := [], snaps := [], recov := [] } }
    if m.op = 1 then s
    else
      { s with mem := { s.mem with dev := [], bad := [], told := [] } }.nandErased 1 1
  else
    let runs := (s.coll m.target).data.runs
    let s := s.freeColl m.target
    if m.op = 1 then s
    else
      let mine := fun (l : Nat) => runs.any (fun e => e.has (l / blockBytes))
      let f := s.free
      let g := f.2.free
      { g.2 with mem := { g.2.mem with dev := g.2.mem.dev.filter (fun c => !mine c.1), bad := g.2.mem.bad.filter (fun l => !mine l),
                                       told := g.2.mem.told.filter (fun l => !mine l) } }.nandErased (f.1 % 2) (g.1 % 2)

/-- MAINT_DONE: the last unit is done. A resumed operation raises its event; a command completes (R311). -/
def maintDone (s : State) : State :=
  let m := s.jrn.maint
  let owner := m.cmd.bind s.cmd?
  if !m.active ∨ (owner.isNone ∧ !m.resumed) then s
  else
    let s := { s.maintEffect.jrnUse with jrn := { s.maintEffect.jrnUse.jrn with maint := { m with done := m.total, active := false, resumed := false, cmd := none } } }
    match owner with
    | some c => s.doneUnits c.seq 0
    | none => if m.target = 0x7FF then s.event 0x0041 0 0 0 m.op m.total else s.event 0x0041 0 9 m.target m.op m.total

def execMaintDone (s : State) : Outcome := .next (maintDone s)

/-- MAINT_RESUME: a whole-store operation before JRN_READY, at start stage 0x60; a collection's after it, from its last persisted
unit (R311). Run again, it goes on by one unit. -/
def maintResume (s : State) : State :=
  let m := s.jrn.maint
  if !m.active ∨ m.cmd.isSome then s
  else if m.resumed then s.maintUnit
  else if m.target = 0x7FF then
    (if s.hif.bootStage = 0x60 ∧ !s.jrn.ready then { s with jrn := { s.jrn with maint := { m with resumed := true } } } else s)
  else if s.jrn.ready then
    let op := if m.op = 2 then opSanitise else opFormat
    let img : Image := tget {} s.jrn.images m.target
    let known := decide ((s.coll m.target).state = .exclusive) || (s.coll m.target).recovering
    let s := s.modColl m.target (fun k => { k with state := .exclusive, busyOp := op, recovering := false, owner := if known then k.owner else img.owner,
                                                   data := if known then k.data else { cfg := img.data.cfg } })
    { s with jrn := { s.jrn with maint := { m with resumed := true }, recov := s.jrn.recov.filter (· != m.target) } }
  else s

def execMaintResume (s : State) : Outcome := .next (maintResume s)

/-! ### Recovery (R300 to R302) -/

/-- The content, APPLIED_JSEQ, HOST_SEQ and chain that an image and frames give. A TRAIN that published after the image's mark
moved the fresh entries it then found, so the replay moves them at that point; an epoch that is committed and not yet published is
published after the last frame (R300, R301). -/
def recoveredColl (i : Image) (fs : List Frame) : Coll :=
  let isTrain := fun (ev : List Byte) => decide (getLE ev 0 1 = opTrain)
  let put := fun (k : Coll) (l : List Frame) => l.foldl (fun k f => (k.applyFrame [] f).1) k
  let move := fun (k : Coll) => { k with data := moveLate k.data }
  let k0 : Coll := { state := .ready, owner := i.owner, data := i.data, nextFresh := i.nextFresh, applied := i.after, hseq := i.hseq, g := i.g,
                     checks := i.checks, drift := i.drift }
  let k := match i.events.find? (fun e => isTrain e.2) with
    | some e => put (move (put k0 (fs.filter (fun f => decide (f.first ≤ e.1))))) (fs.filter (fun f => decide (e.1 < f.first)))
    | none => put k0 fs
  let ch := replayChain i.data.cfg (fs.length + i.events.length) (i.hseq, i.g) i.events fs
  match i.pub with
  | some ev =>
    let g := absorb ch.2 ev
    let k := if isTrain ev then move k else k
    { k with g := g, checks := k.checks ++ [{ epoch := i.epoch, jseq := k.applied, g := g }] }
  | none => { k with g := ch.2 }

/-- The image of a recovered collection: an epoch that was committed alone is published now. -/
def Image.recovered (i : Image) (k : Coll) : Image :=
  match i.pub with
  | some ev => { i with pub := none, events := i.events ++ [(k.applied, ev)], checks := k.checks }
  | none => i

/-- COLLECTION_RECOVERY: the lowest collection that awaits it. When its structures fit nowhere it goes on waiting. -/
def collectionRecovery (s : State) : State :=
  match s.jrn.recov with
  | [] => s
  | o :: rest =>
    if !s.jrn.ready then s
    else if s.jrn.lp ≠ 0 then s.wakeStore
    else
      let i : Image := tget {} s.jrn.images o
      let fs := s.jrn.framesAbove o i.after
      let k0 := recoveredColl i fs
      let b := s.bwRequest i.owner [] [(5, imageBytes i.data)]
      if !b.1 then b.2
      else match b.2.orDropReplicas (fun s => s.layImage k0.data) with
      | none => s
      | some (d, s) =>
        let k := { k0 with data := d, phys := d }
        let after := fun (f : Frame) => (replayChain d.cfg (fs.length + i.events.length) (i.hseq, i.g) (i.events.filter (fun e => decide (e.1 < f.first)))
          (fs.filter (fun x => decide (x.first ≤ f.first)))).2
        let replayed : Frame → Frame := fun f => if f.coll = o ∧ i.after < f.first then { f with applied := f.count, chain := after f } else f
        let images := tset s.jrn.images o (i.recovered k)
        let s := { s with colls := tset s.colls o k, jrn := { s.jrn with recov := rest, frames := s.jrn.frames.map replayed, images := images } }
        s.jrnUse.event 0x0040 0 9 o k.data.epoch k.applied

def execCollectionRecovery (s : State) : Outcome := .next (collectionRecovery s)

/-- At a start that kept the stacks: an epoch of collection o that was committed and not yet published is published, with every frame
applied, before JRN_READY (R301). TRAIN's late entries stay fresh where no space is left for their lists. -/
def State.finishPublish (s : State) (o : Nat) : State :=
  let k := s.coll o
  let i : Image := tget {} s.jrn.images o
  match i.pub with
  | none => s
  | some ev =>
    if k.state ≠ .exclusive ∨ (k.busyOp ≠ opCompact ∧ k.busyOp ≠ opTrain) then s
    else
      let isTrain := decide (k.busyOp = opTrain)
      let fs := s.jrn.framesAbove o i.after
      let k1 := fs.foldl (fun k f => (k.applyFrame [] f).1) ({ k with data := i.data, nextFresh := i.nextFresh } : Coll)
      let all := (List.range k1.data.lists.length).map listKey ++ (List.range 12).flatMap (fun h => [shardKey h, marksKey h])
      let d := { k1.data with vers := (k.data.newVersions all).vers }
      match (if isTrain then s.orDropReplicas (fun s => s.trainLate 0 d) else some (d, s)) with
      | some (d, s) => s.publish o d ev (if isTrain then i.drift else k.drift) isTrain
      | none => s.publish o d ev (if isTrain then i.drift else k.drift) isTrain

end Sys2Proof.Machine
end

