-- ==== Sys2Proof/Machine/VecFn.lean ====
section
/-!
DEFINITION. The vector unit's functions (R252): each the exact mathematical result rounded once. The functions without
a dyadic result are evaluated in fixed point to 400 bits and the rest below the last bit is marked sticky; special
values follow IEEE 754 under R233 (log entry 12).
-/

namespace Sys2Proof.Machine

/-- Fixed-point fraction bits. -/
def fxP : Nat := 400

/-- 1.0 in fixed point. -/
def fxOne : Int := 2 ^ fxP

/-- Fixed-point product. -/
def fxMul (a b : Int) : Int := (a * b) / fxOne

/-- Σ 1/(k·2^k) for k from n down: ln 2. -/
def ln2Sum : Nat → Int
  | 0 => 0
  | k + 1 => fxOne / ((k + 1 : Nat) * 2 ^ (k + 1) : Int) + ln2Sum k

/-- ln 2 in fixed point. -/
def fxLn2 : Int := ln2Sum 420

/-- Σ (−1)^k /((2k+1) n^(2k+1)): arctan(1/n). -/
def atanInv (n : Int) : Nat → Int → Nat → Int
  | 0, _, _ => 0
  | j + 1, p, k => (if k % 2 = 0 then p / (2 * k + 1) else -(p / (2 * k + 1))) + atanInv n j (p / (n * n)) (k + 1)

/-- π in fixed point, by Machin's formula. -/
def fxPi : Int := 16 * atanInv 5 180 (fxOne / 5) 0 - 4 * atanInv 239 60 (fxOne / 239) 0

/-- Σ x^k/k! from term t = x^k/k!. -/
def expSum (x : Int) : Nat → Int → Nat → Int
  | 0, _, _ => 0
  | j + 1, t, k => t + expSum x j (fxMul t x / (k + 1)) (k + 1)

/-- e^r for a small fixed-point r. -/
def fxExpSmall (r : Int) : Int := expSum r 120 fxOne 0

/-- 2 Σ z^(2k+1)/(2k+1): ln((1+z)/(1−z)). -/
def atanhSum (z2 : Int) : Nat → Int → Nat → Int
  | 0, _, _ => 0
  | j + 1, p, k => p / (2 * k + 1) + atanhSum z2 j (fxMul p z2) (k + 1)

/-- A finite value in fixed point (bits below 2^−400 dropped). -/
def fxOf (n : Bool) (m : Nat) (e : Int) : Int :=
  let s := e + fxP
  let a : Int := if 0 ≤ s then (m <<< s.toNat : Nat) else (m >>> (-s).toNat : Nat)
  if n then -a else a

/-- Round a fixed-point magnitude times 2^k to FP32, the rest below sticky. -/
def fxRound (neg : Bool) (a : Int) (k : Int) : Nat :=
  enc .fp32 (.fin neg (2 * a.natAbs + 1) (k - fxP - 1))

/-- The split x = k·ln 2 + r with 0 ≤ r < ln 2, and e^r. -/
def expParts (x : Int) : Int × Int :=
  let k := x / fxLn2
  (k, fxExpSmall (x - k * fxLn2))

/-- exp. -/
def vexp (a : Nat) : Nat :=
  match decode .fp32 a with
  | .nan _ => enc .fp32 (nanOf a a)
  | .inf n => if n then 0 else infBits .fp32 false
  | .fin n m e =>
    if m = 0 then f32One
    else if ltV (.fin false 256 0) (.fin false m e) then (if n then 0 else infBits .fp32 false)
    else
      let p := expParts (fxOf n m e)
      fxRound false p.2 p.1

/-- exp2. -/
def vexp2 (a : Nat) : Nat :=
  match decode .fp32 a with
  | .nan _ => enc .fp32 (nanOf a a)
  | .inf n => if n then 0 else infBits .fp32 false
  | .fin n m e =>
    if ltV (.fin false 512 0) (.fin false m e) then (if n then 0 else infBits .fp32 false)
    else
      let x := fxOf n m e
      let k := x / fxOne
      let r := x - k * fxOne
      if r = 0 ∧ (m = 0 ∨ -400 ≤ e) then enc .fp32 (.fin false 1 k)
      else fxRound false (fxExpSmall (fxMul r fxLn2)) k

/-- ln of m·2^e as (whole binades k, fixed-point ln of the rest in [1, 2)), for m > 0. -/
def logParts (m : Nat) (e : Int) : Int × Int :=
  let l := Nat.log2 m
  let y : Int := fxOf false m (-(l : Int))
  let hi : Bool := decide (3 * fxOne < 2 * y)
  let y' := if hi then y / 2 else y
  let z := ((y' - fxOne) * fxOne) / (y' + fxOne)
  (e + l + (if hi then 1 else 0), 2 * atanhSum (fxMul z z) 180 z 0)

/-- log, base 2 when b2. -/
def vlogB (b2 : Bool) (a : Nat) : Nat :=
  match decode .fp32 a with
  | .nan _ => enc .fp32 (nanOf a a)
  | .inf n => if n then canonNaN .fp32 false else infBits .fp32 false
  | .fin n m e =>
    if m = 0 then infBits .fp32 true
    else if n then canonNaN .fp32 false
    else
      let p := logParts m e
      if p.2 = 0 ∧ (b2 ∨ p.1 = 0) then enc .fp32 (ofInt p.1)
      else
        let v := if b2 then p.1 * fxOne + (p.2 * fxOne) / fxLn2 else p.1 * fxLn2 + p.2
        fxRound (decide (v < 0)) v 0

/-- tanh. -/
def vtanh (a : Nat) : Nat :=
  match decode .fp32 a with
  | .nan _ => enc .fp32 (nanOf a a)
  | .inf n => if n then enc .fp32 (.fin true 1 0) else f32One
  | .fin n m e =>
    if m = 0 then a
    else if ltV (.fin false m e) (.fin false 1 (-40)) then
      enc .fp32 (.fin n (m <<< 200 - 1) (e - 200))
    else if ltV (.fin false 64 0) (.fin false m e) then enc .fp32 (.fin n (2 ^ 200 - 1) (-200))
    else
      let p := expParts (2 * fxOf false m e)
      let t := p.2 * 2 ^ p.1.toNat
      fxRound n (((t - fxOne) * fxOne) / (t + fxOne)) 0

/-- Σ (−1)^k x^(2k+1)/(k!(2k+1)) from p = x^(2k+1)/k!. -/
def erfSum (x2 : Int) : Nat → Int → Nat → Int
  | 0, _, _ => 0
  | j + 1, p, k =>
    (if k % 2 = 0 then p / (2 * k + 1) else -(p / (2 * k + 1))) + erfSum x2 j (fxMul p x2 / (k + 1)) (k + 1)

/-- 2/√π in fixed point. -/
def fxTwoOverSqrtPi : Int := (2 * fxOne * fxOne) / (isqrt (fxPi.toNat * 2 ^ fxP) : Nat)

/-- erf. -/
def verf (a : Nat) : Nat :=
  match decode .fp32 a with
  | .nan _ => enc .fp32 (nanOf a a)
  | .inf n => if n then enc .fp32 (.fin true 1 0) else f32One
  | .fin n m e =>
    if m = 0 then a
    else if ltV (.fin false m e) (.fin false 1 (-60)) then
      enc .fp32 (.fin n (2 * (m * fxTwoOverSqrtPi.toNat) + 1) (e - fxP - 1))
    else if ltV (.fin false 8 0) (.fin false m e) then enc .fp32 (.fin n (2 ^ 200 - 1) (-200))
    else
      let x := fxOf false m e
      fxRound n (fxMul fxTwoOverSqrtPi (erfSum (fxMul x x) 400 x 0)) 0

/-- The logistic function 1/(1+e^−x). -/
def vlogistic (a : Nat) : Nat :=
  match decode .fp32 a with
  | .nan _ => enc .fp32 (nanOf a a)
  | .inf n => if n then 0 else f32One
  | .fin n m e =>
    if m = 0 then enc .fp32 (.fin false 1 (-1))
    else if ltV (.fin false 256 0) (.fin false m e) then
      (if n then 0 else enc .fp32 (.fin false (2 ^ 200 - 1) (-200)))
    else
      let p := expParts (fxOf true m e)
      let t := p.2 / 2 ^ (-p.1).toNat
      if n then fxRound false ((t * fxOne) / (fxOne + t)) 0
      else fxRound false ((fxOne * fxOne) / (fxOne + t)) 0

/-- Reciprocal. -/
def vrecip (a : Nat) : Nat := fdiv .fp32 f32One a

/-- Reciprocal square root, rounded once. -/
def vrsqrt (a : Nat) : Nat :=
  match decode .fp32 a with
  | .nan _ => enc .fp32 (nanOf a a)
  | .inf n => if n then canonNaN .fp32 false else 0
  | .fin n m e =>
    if m = 0 then infBits .fp32 n
    else if n then canonNaN .fp32 false
    else
      let odd := if e % 2 = 0 then 0 else 1
      let k := m <<< odd
      let sh := 2 * (40 + Nat.log2 k)
      let q := 2 ^ sh / k
      let r := isqrt q
      enc .fp32 (.fin false (2 * r + bit (decide (r * r * k ≠ 2 ^ sh))) (-((e - odd) / 2) - (sh / 2 : Nat) - 1))

end Sys2Proof.Machine
end

