-- ==== Sys2Proof/Machine/Models.lean ====
section
/-!
DEFINITION. Resident models: images, loading, activation, batch steps, sampling, passages and session state
(11_resident_models.md), and the scale states of their tensors (R245 to R247).
-/

namespace Sys2Proof.Machine

/-! ### Image header and directory (R318 to R321) -/

/-- Header fields (Table 11.2). -/
def hdrVocab (h : List Byte) : Nat := getLE h 0x08 4
def hdrTokenLimit (h : List Byte) : Nat := getLE h 0x0C 2
def hdrOutputLimit (h : List Byte) : Nat := getLE h 0x0E 2
def hdrEnd (h : List Byte) : Nat := getLE h 0x10 4
def hdrOutWidth (h : List Byte) : Nat := getLE h 0x14 2
def hdrTensors (h : List Byte) : Nat := getLE h 0x1A 2
def hdrState (h : List Byte) : Nat := getLE h 0x1C 4
def hdrPool (h : List Byte) : Nat := getLE h 0x20 4
def hdrTemp (h : List Byte) : Nat := getLE h 0x24 4
def hdrTopP (h : List Byte) : Nat := getLE h 0x28 4
def hdrTopK (h : List Byte) : Nat := getLE h 0x2C 2
def hdrPassLog (h : List Byte) : Nat := getLE h 0x2E 1
def hdrPassAddr (h : List Byte) : Nat := getLE h 0x30 8
def hdrDir (h : List Byte) : Nat := getLE h 0x50 8

/-- A finite FP32 pattern above 0. -/
def posFinite (x : Nat) : Bool := (decode .fp32 x).isFin && !(decode .fp32 x).neg && !(decode .fp32 x).isZero

/-- Every header field lies in its range, and the program and directory lie in the image. -/
def headerOk (h : List Byte) (n : Nat) : Bool :=
  let k := hdrKind h
  let dec := k == 3
  getLE h 0 4 == 0x53574D31 && getLE h 4 2 == 1 && decide (1 ≤ k ∧ k ≤ 3 ∧ 1 ≤ hdrVocab h ∧ hdrVocab h ≤ 1048576) &&
  decide (1 ≤ hdrTokenLimit h ∧ hdrTokenLimit h ≤ 8192) &&
  (if dec then decide (1 ≤ hdrOutputLimit h ∧ hdrOutputLimit h ≤ 4096 ∧ hdrEnd h < hdrVocab h) else hdrOutputLimit h == 0) &&
  (if k = 1 then decide (1 ≤ hdrOutWidth h ∧ hdrOutWidth h ≤ 4096) else hdrOutWidth h == 0) &&
  decide (1 ≤ getLE h 0x16 2 ∧ getLE h 0x16 2 ≤ 256 ∧ 64 ≤ getLE h 0x18 2 ∧ getLE h 0x18 2 ≤ 8192 ∧ getLE h 0x18 2 % 64 = 0) &&
  decide (1 ≤ hdrTensors h ∧ hdrState h % 64 = 0 ∧ hdrState h ≤ 2 ^ 20 ∧ 1 ≤ hdrPool h ∧ hdrPool h ≤ 65536) &&
  (!dec || (posFinite (hdrTemp h) && posFinite (hdrTopP h) && leV (decode .fp32 (hdrTopP h)) (decode .fp32 f32One) &&
    decide (1 ≤ hdrTopK h ∧ hdrTopK h ≤ 1024))) &&
  decide (hdrPassLog h ≤ 30 ∧ hdrPassAddr h % 64 = 0 ∧ getLE h 0x38 8 ≤ 8 * 10 ^ 9) &&
  decide (getLE h 0x40 8 % 4096 = 0 ∧ getLE h 0x40 8 + getLE h 0x48 8 ≤ n ∧ hdrDir h % 64 = 0 ∧ hdrDir h + 64 * hdrTensors h ≤ n)

/-- Directory entry fields (Table 11.3). -/
def tOff (e : List Byte) : Nat := getLE e 0 8
def tLen (e : List Byte) : Nat := getLE e 8 8
def tRows (e : List Byte) : Nat := getLE e 0x10 4
def tCols (e : List Byte) : Nat := getLE e 0x14 4
def tFmt (e : List Byte) : Nat := getLE e 0x18 1
def tExpand (e : List Byte) : Nat := getLE e 0x19 1
def tScaled (e : List Byte) : Bool := getLE e 0x1A 1 == 1
def tScaleOff (e : List Byte) : Nat := getLE e 0x20 8
def tLut (e : List Byte) : Nat := getLE e 0x28 8
def tPin (e : List Byte) : Bool := bitsOf (getLE e 0x30 1) 0 1 == 1

/-- Bits of an element of format f; 0 for an invalid one. -/
def elemBits (f : Nat) : Nat := lget 0 [32, 16, 16, 8, 8, 8, 4, 4, 64, 0, 4] f

/-- Block scales of a tensor, and the bytes of its table with its padding. -/
def tBlocks (e : List Byte) : Nat := tRows e * (tCols e / 16)
def tTable (e : List Byte) : Nat := if tScaled e then roundUp (16 + tBlocks e) 64 else 0

/-- An entry passes R319 and R320. -/
def tensorOk (e : List Byte) (n : Nat) : Bool :=
  let f := tFmt e
  let narrow := decide (5 ≤ f ∧ f ≤ 7 ∨ f = 10)
  decide (0 < elemBits f ∧ getLE e 0x1A 1 ≤ 1 ∧ tOff e % 64 = 0 ∧ tOff e + tLen e ≤ n ∧ 8 * tLen e = tRows e * tCols e * elemBits f) &&
  (match tExpand e with
   | 0 => true
   | 1 => elemBits f == 4 && (f == 10 || tLut e != 0)
   | 2 => narrow && (f != 10 || getLE e 0x1B 1 == 0)
   | _ => false) &&
  (!tScaled e || (decide (f ≠ 0 ∧ f ≠ 8 ∧ tCols e % 16 = 0 ∧ tScaleOff e + tTable e ≤ n))) &&
  (tLut e == 0 || decide (tLut e + 32 ≤ n))

/-- n bytes of an image. -/
def slice (img : List Byte) (o n : Nat) : List Byte := (img.drop o).take n

/-- The directory entries. -/
def dirEntries (h dir : List Byte) : List (List Byte) := (List.range (hdrTensors h)).map (fun t => slice dir (64 * t) 64)

/-- MODEL_ID (R321). -/
def modelIdOf (h img : List Byte) (es : List (List Byte)) : Nat :=
  let prog := slice img (getLE h 0x40 8) (getLE h 0x48 8)
  let one := fun (e : List Byte) => slice img (tOff e) (tLen e) ++ slice img (tScaleOff e) (tTable e) ++
    (if tLut e = 0 then [] else slice img (tLut e) 32)
  getLE (shake256 (prog ++ es.flatMap one) 8) 0 8

/-! ### Tensors and their shadows (R236, R238, R245) -/

/-- The code of element i. -/
def elemCode (img e : List Byte) (i : Nat) : Nat :=
  let b := elemBits (tFmt e)
  if b = 4 then bitsOf (getLE img (tOff e + i / 2) 1) (4 * (i % 2)) 4 else getLE img (tOff e + i * (b / 8)) (b / 8)

/-- The value of element i before its scales. -/
def elemValue (img e : List Byte) (i : Nat) : FV :=
  let q := elemCode img e i
  let z : Int := sext 8 (getLE e 0x1B 1)
  if tExpand e = 1 ∧ tLut e ≠ 0 then decode .fp16 (getLE img (tLut e + 2 * q) 2)
  else match tFmt e with
    | 0 => decode .fp32 q
    | 1 => decode .bf16 q
    | 2 => decode .fp16 q
    | 3 => decode .e4m3 q
    | 4 => decode .e5m2 q
    | 5 => ofInt (sext 8 q - (if tExpand e = 2 then z else 0))
    | 6 => ofInt (sext 4 q - (if tExpand e = 2 then z else 0))
    | 7 => ofInt (q - (if tExpand e = 2 then z else 0))
    | 8 => decode .fp64 q
    | _ => q4bV q

/-- The decoded FP32 values of a tensor with two-level scales, by row. -/
def tensorValues (img e : List Byte) : List (List Nat) :=
  let s := decode .fp32 (getLE img (tScaleOff e) 4)
  (List.range (tRows e)).map (fun r => (List.range (tCols e)).map (fun k =>
    let i := r * tCols e + k
    let b := bs8V (getLE img (tScaleOff e + 16 + i / 16) 1)
    enc .fp32 (mulV (mulV (elemValue img e i) b 0 0) s 0 0)))

/-- The shared-exponent blocks of a tensor's shadow (R243, R244). -/
def shadowBlocks (img e : List Byte) : List SeBlock :=
  let w := if tCols e % 32 = 0 then 32 else 16
  (tensorValues img e).flatMap (fun r => (chunksOf w r).map seEncode)

/-- Saturations and non-finite elements of a shadow's blocks (R243). -/
def shadowCounts (bs : List SeBlock) : Nat × Nat := (sumN (bs.map SeBlock.sat), sumN (bs.map SeBlock.nan))

/-- A shadow's bytes: the mantissas of every block, their exponents, and the CRC-32C of each 4 KiB (R245). -/
def shadowCopy (bs : List SeBlock) : List Byte :=
  let body := bs.flatMap (fun b => b.mants.map (BitVec.ofInt 8)) ++ bs.map (fun b => BitVec.ofNat 8 b.exp)
  body ++ (piecesOf 4096 (cdiv body.length 4096) body).flatMap (fun x => natBytes 4 (crc32c x))

/-- Enter FALLBACK (R246). -/
def State.enterFallback (s : State) (slot t : Nat) : State :=
  let m : Slot := tget {} s.models.slots slot
  let put : Tensor → Tensor := fun x => { x with fallback := true }
  let s := { s with models := { s.models with slots := tset s.models.slots slot { m with tensors := lmod m.tensors t put } } }
  let s := { s with fmt := { s.fmt with fbLast := BitVec.ofNat 32 (t * 65536 + slot) } }
  if flag s.fmt.ctl 0 then s.event 0x0031 0 10 slot t 0 else s

/-- Tables that fail their check at a fetch put their tensors in FALLBACK (R240, R246). -/
def State.tablesFail (s : State) (slots : List Nat) (ts : List (Nat × Nat)) : State :=
  ts.foldl (fun s x =>
    match (tget {} s.models.slots x.1 : Slot).tensors[x.2]? with
    | some t => if slots.contains x.1 && tScaled t.entry && !t.fallback then s.enterFallback x.1 x.2 else s
    | none => s) s

/-- Which tensors of a slot are in FALLBACK. -/
def Slot.marks (m : Slot) : List Bool := m.tensors.map Tensor.fallback

/-! ### MODEL_LOAD (R317, R322) -/

/-- Weight bytes W, and shadow bytes. -/
def weightBytes (es : List (List Byte)) : Nat := sumN (es.map (fun e => tLen e + tTable e))
def shadowTotal (es : List (List Byte)) : Nat :=
  sumN (es.map (fun e => if tScaled e then shadowBytes (tRows e * tCols e) (tCols e) else 0))

def Slot.weights (m : Slot) : Nat := weightBytes (m.tensors.map Tensor.entry)

/-- A command names a model slot. -/
def namesSlot (c : Cmd) (o : Nat) : Bool :=
  let op := dOpcode c.desc
  let b := dfld c.desc 0x22 0 16
  ((op == opModelLoad || op == opModelStep) && dObject c.desc == o) ||
  (isSearch op && ((bitsOf b 4 1 == 1 && dfld c.desc 0x26 0 16 == o) || (bitsOf b 5 1 == 1 && dfld c.desc 0x28 0 16 == o) ||
    (bitsOf b 6 1 == 1 && dfld c.desc 0x2A 0 16 == o)))

/-- A sequence or another command in flight uses the slot. -/
def State.slotUsed (s : State) (c : Cmd) (o : Nat) : Bool :=
  s.models.seqs.any (fun q => q.slot == o) || s.qm.cmds.any (fun x => x.seq != c.seq && namesSlot x o)

/-- The highest n blocks of a list of free runs (R375). -/
def takeTop : Nat → List Extent → List Extent
  | _, [] => []
  | n, e :: t => if n = 0 then [] else if n ≤ e.count then [{ first := e.first + e.count - n, count := n }] else e :: takeTop (n - e.count) t

/-- Reserve a model's space: weights and shadows in their tier, the state pool in the stacks. -/
def State.modelSpace (s : State) (far : Bool) (w pool : Nat) : Option (List Extent × State) :=
  let p := cdiv pool blockBytes
  let n := cdiv w blockBytes
  let stk := sumN ((List.range 12).map s.freeBlocks)
  if far then
    if stk < p ∨ s.freeBlocks 12 < n then none
    else
      let r := s.reserveAny p
      let fs := takeTop n (r.2.tierFree 12).reverse
      some (r.1 ++ fs, { r.2 with mem := { r.2.mem with missing := r.2.mem.missing.filter (fun m => !fs.any (fun e => e.has m.block)) } })
  else if stk < p + n then none
  else some (s.reserveAny (p + n))

/-- A slot forgets its model, its activations and working copies. -/
def State.slotFree (s : State) (o : Nat) : State :=
  { s with models := { s.models with slots := tdel s.models.slots o, active := s.models.active.filter (fun a => a.2 != o),
                                     copies := s.models.copies.filter (fun w => w.slot != o) } }

/-- A MiB of a load's copy may move: it is BULK traffic of its tier (R352, R376). -/
def State.copyGo (s : State) (n p : Nat) (far : Bool) : Bool × State :=
  s.bwRequest p [(n, wholeInv)] [(if far then 3 else 1, 2 ^ 20)]

/-- MODEL_LOAD: validate, reserve, LOADING; then, at each step, one MiB copied (R322). -/
def modelLoad (n : Nat) (s : State) : State :=
  match s.ready? n (· == opModelLoad) with
  | none => s
  | some c =>
    let o := dObject c.desc
    let m : Slot := tget {} s.models.slots o
    let dev := dDevAddr c.desc
    let a := dfld c.desc 0x08 0 64
    let len := dfld c.desc 0x10 0 32
    let far := bitsOf (dSubop c.desc) 0 1 == 1
    if bitsOf (dSubop c.desc) 1 1 = 1 then s
    else if c.job.isSome then
      let g := s.copyGo n c.part far
      if g.1 then g.2.unitStep n else g.2
    else if m.state ≠ .free ∧ s.slotUsed c o then s.refuse c stBusy
    else match s.bufRead dev a 256 with
      | .error st => (s.bufMet dev a 256).refuse c st
      | .ok h =>
        if !headerOk h len then s.refuse c stBadContent
        else match s.bufRead dev (a + hdrDir h) (64 * hdrTensors h) with
          | .error st => (s.bufMet dev (a + hdrDir h) (64 * hdrTensors h)).refuse c st
          | .ok dir =>
            let es := dirEntries h dir
            if !es.all (tensorOk · len) then s.refuse c stBadContent
            else
              let s := s.slotFree o
              match s.orDropReplicas (fun s => s.modelSpace far (weightBytes es + shadowTotal es) (hdrPool h * 2 ^ 20)) with
              | none => s.refuse c stNoSpace
              | some (rs, s1) =>
                match s1.bufRead dev a len with
                | .error st => (s.bufMet dev a len).refuse c st
                | .ok img =>
                  let ts := es.map (fun e => ({ entry := e, bytes := tLen e + tTable e } : Tensor))
                  let m : Slot := { state := .loading, owner := c.part, hdr := h, image := img, tensors := ts, far := far, runs := rs }
                  let t := cdiv len (2 ^ 20)
                  let s1 := { s1 with models := { s1.models with slots := tset s1.models.slots o m } }
                  s1.modCmd n (fun c => { c with run := .running, spec0 := unitsSpec 0 t, job := some { total := t } })

def execModelLoad (cmd : Nat) (s : State) : Outcome := .next (modelLoad cmd s)

/-- Write the shadow of tensor t of a slot. -/
def State.putShadow (s : State) (slot t : Nat) (bs : List Byte) : State :=
  let m : Slot := tget {} s.models.slots slot
  let put : Tensor → Tensor := fun x => { x with shadow := bs }
  { s with models := { s.models with slots := tset s.models.slots slot { m with tensors := lmod m.tensors t put } } }

/-- One tensor at the end of a load: its table is checked and its shadow written (R240, R245). The shadow of a tensor
whose table fails, and what making it counts, are free values (log entry 135). -/
def State.loadTensor (s : State) (slot : Nat) (img : List Byte) (t : Nat) (e : List Byte) : State :=
  if !tScaled e then s
  else if scaleTableOk (tBlocks e) (slice img (tScaleOff e) (tTable e)) then
    let bs := shadowBlocks img e
    let k := shadowCounts bs
    (s.putShadow slot t (shadowCopy bs)).fmtCount k.1 k.2
  else
    let n := tRows e * tCols e
    let f := s.free
    let g := f.2.free
    let s := g.2.putShadow slot t ((List.range (shadowBytes n (tCols e))).map (Config.shadowByte img t))
    (s.fmtCount (f.1 % (n + 1)) (g.1 % (n + 1))).enterFallback slot t

/-- Bytes of a partition's model area. -/
def State.modelArea (s : State) (p : Nat) : Nat := blockBytes * sumN ((s.part p).modelArea.map Extent.count)

/-- MODEL_LOAD_DONE: copied, shadows written, MODEL_ID computed; the slot is READY. -/
def modelLoadDone (n : Nat) (s : State) : State :=
  match s.ready? n (· == opModelLoad) with
  | none => s
  | some c =>
    let o := dObject c.desc
    let m : Slot := tget {} s.models.slots o
    if c.job.isNone ∨ m.state ≠ .loading then s
    else
      let es := m.tensors.map Tensor.entry
      let m := { m with state := .ready, modelId := modelIdOf m.hdr m.image es, inPlace := m.far && decide (s.modelArea c.part < m.weights) }
      let s := { s with models := { s.models with slots := tset s.models.slots o m } }
      let s := es.zipIdx.foldl (fun s e => s.loadTensor o m.image e.2 e.1) s
      let fb := (tget {} s.models.slots o : Slot).marks.any id
      (s.modCmd n (fun c => { c with fallback := fb })).doneUnits n 0

def execModelLoadDone (cmd : Nat) (s : State) : Outcome := .next (modelLoadDone cmd s)

/-- MODEL_UNLOAD: SUBOP[1]. -/
def modelUnload (n : Nat) (s : State) : State :=
  match s.ready? n (· == opModelLoad) with
  | none => s
  | some c =>
    let o := dObject c.desc
    if bitsOf (dSubop c.desc) 1 1 = 0 then s
    else if s.slotUsed c o then s.refuse c stBusy
    else (s.slotFree o).complete c stOk 0 0 false false

def execModelUnload (cmd : Nat) (s : State) : Outcome := .next (modelUnload cmd s)

/-! ### Activation (R323, R325) -/

/-- The slot has an invocation in flight in partition p. -/
def State.slotBusy (s : State) (p o : Nat) : Bool :=
  s.qm.cmds.any (fun c => c.part == p && namesSlot c o && decide (c.run ≠ .waiting))

/-- A working copy leaves the model area, and its model is active nowhere in the partition. -/
def State.evictCopy (s : State) (w : WorkCopy) : State :=
  { s with models := { s.models with copies := s.models.copies.filter (fun x => !(x.slot == w.slot && x.part == w.part)),
                                     active := s.models.active.filter (fun a => !(a.1 / 64 == w.part && a.2 == w.slot)) } }

/-- Room for n bytes in the model area of p, evicting the least recently stepped copies with no invocation in flight. -/
def State.copyRoom (p n : Nat) : Nat → State → Option State
  | 0, _ => none
  | k + 1, s =>
    let cs := s.models.copies.filter (fun w => w.part == p)
    let used := sumN (cs.map (fun w => (tget {} s.models.slots w.slot : Slot).weights))
    if used + n ≤ s.modelArea p then some s
    else match sortBy (fun (a b : WorkCopy) => decide (a.stepped < b.stepped)) (cs.filter (fun w => !s.slotBusy p w.slot)) with
      | [] => none
      | w :: _ => State.copyRoom p n k (s.evictCopy w)

/-- The model of slot o is the one activated last on some tile group of partition p. Where a reset has cleared the group's
scratchpads since, the next invocation activates it again, before it reads (R323). -/
def State.modelActive (s : State) (p o : Nat) : Bool := s.models.active.any (fun a => a.1 / 64 == p && a.2 == o)

/-- The tensors of a slot that are held in scratchpad while its model is active. -/
def Slot.pinned (m : Slot) : List (Tensor × Nat) := m.tensors.zipIdx.filter (fun t => tPin t.1.entry)

/-- The pinned tensors of slot o written into tile k of a group of n tiles (R251, R323). -/
def Tile.pin (m : Slot) (o n k : Nat) (t : Tile) : Tile :=
  let part := fun (x : Tensor × Nat) =>
    let e := x.1.entry
    let at' := Config.pinAt m.image x.2 n k
    let bs := slice (slice m.image (tOff e) (tLen e) ++ slice m.image (tScaleOff e) (tTable e)) at'.2.1 at'.2.2
    (at'.1 % scratchBytes, bs.take (scratchBytes - at'.1 % scratchBytes))
  { t with scratch := (m.pinned.map part).foldl (fun c w => memWrite c w.1 w.2) t.scratch, pins := m.pinned.map (fun x => (o, x.2)) }

/-- Activate slot o on group g of partition p: its pinned tensors go into the group's scratchpads. -/
def State.pinGroup (s : State) (p g o : Nat) : State :=
  let ts := groupTiles (s.part p).place g
  let m : Slot := tget {} s.models.slots o
  ts.zipIdx.foldl (fun s t => s.modTile t.1 (Tile.pin m o ts.length t.2)) s

/-- An invocation of slot o in partition p begins: a group of the model whose scratchpads were cleared activates it again
(R323). -/
def State.repin (s : State) (p o : Nat) : State :=
  let m : Slot := tget {} s.models.slots o
  let gone := fun (g : Nat) => (groupTiles (s.part p).place g).any (fun t => (s.tile t).pins != m.pinned.map (fun x => (o, x.2)))
  let gs := (s.models.active.filter (fun a => a.1 / 64 == p && a.2 == o)).map (fun a => a.1 % 64)
  (gs.filter gone).foldl (fun s g => s.pinGroup p g o) s

/-- What one invocation of each slot streams of its weights, as (regulator, bytes): every line that is not pinned, LC traffic of
the stacks, or of the far tier where the model runs in place (R155, R323, R376). -/
def State.weightReads (s : State) (slots : List Nat) : List (Nat × Nat) :=
  slots.map (fun o =>
    let m : Slot := tget {} s.models.slots o
    (if m.inPlace then 2 else 0, m.weights - sumN (m.pinned.map (fun x => x.1.bytes))))

/-- MODEL_ACTIVATE on a tile group of the partition's placement: the pinned tensors are written, and a model that needs a working
copy fetches it as BULK traffic of both tiers (R323, R376). Without room for the copy, or regulator tokens, it waits. -/
def modelActivate (p g o : Nat) (s : State) : State :=
  let m : Slot := tget {} s.models.slots o
  let put := fun (s : State) => { s with models := { s.models with active := tset s.models.active (64 * p + g) o } }.pinGroup p g o
  if m.state ≠ .ready ∨ m.owner ≠ p ∨ (s.part p).state ≠ .active ∨ !(s.part p).place.any (fun e => e.2 == g) then s
  else if !m.far ∨ m.inPlace ∨ s.models.copies.any (fun w => w.slot == o && w.part == p) then put s
  else match State.copyRoom p m.weights (s.models.copies.length + 1) s with
    | none => s
    | some s1 =>
      let r := s1.bwRequest p [] [(3, m.weights), (1, m.weights)]
      if !r.1 then s
      else put { r.2 with models := { r.2.models with copies := r.2.models.copies ++ [{ slot := o, part := p, stepped := r.2.hif.timer }] } }

def execModelActivate (part : BitVec 4) (group : Fin 64) (slot : BitVec 8) (s : State) : Outcome :=
  .next (modelActivate part.toNat group.val slot.toNat s)

/-- A step of a model stamps its working copy. -/
def State.stampCopy (s : State) (p o : Nat) : State :=
  { s with models := { s.models with copies := s.models.copies.map (fun (w : WorkCopy) => if w.slot = o ∧ w.part = p then { w with stepped := s.hif.timer } else w) } }

/-! ### Sampling (R331) -/

/-- Greedy: the largest logit, a tie to the lower index. -/
def greedy (z : Nat → Nat) (v : Nat) : Option Nat :=
  (List.range v).foldl (fun (acc : Option Nat) i =>
    if isNaN .fp32 (z i) then acc
    else match acc with
      | none => some i
      | some j => if ltV (decode .fp32 (z j)) (decode .fp32 (z i)) then some i else some j) none

/-- Running FP32 sums of a list, left to right. -/
def runSums : Nat → List Nat → List Nat
  | _, [] => []
  | c, e :: t => let c := fadd .fp32 c e; c :: runSums c t

/-- 64-bit word n of SHAKE256 over the seed pair. -/
def sampleWord (seed stream n : Nat) : Nat := getLE (shake256 (natBytes 4 seed ++ natBytes 4 stream) (8 * n + 8)) (8 * n) 8

/-- FP32 sum in the order of R255. -/
def sum255 (es : List Nat) : Nat := reduceTerms .fp32 (es.map (decode .fp32))

/-- Sampling from logits z over v tokens with the header's settings. -/
def sampleToken (h : List Byte) (z : Nat → Nat) (v seed stream n : Nat) : Option Nat :=
  let ys := ((List.range v).map (fun i => (i, fdiv .fp32 (z i) (hdrTemp h)))).filter (fun y => !isNaN .fp32 y.2)
  let kept := (sortBy (fun (a b : Nat × Nat) => ltV (decode .fp32 b.2) (decode .fp32 a.2)) ys).take (hdrTopK h)
  let y0 := (kept.map Prod.snd).headD 0
  let es := kept.map (fun y => vexp (fsub .fp32 y.2 y0))
  let cut := fmul .fp32 (hdrTopP h) (sum255 es)
  let last := (findIdx (fun c => leV (decode .fp32 cut) (decode .fp32 c)) (runSums 0 es) 0).getD (es.length - 1)
  let en := es.take (last + 1)
  let u := enc .fp32 (.fin false (sampleWord seed stream n >>> 40) (-24))
  let lim := fmul .fp32 u (sum255 en)
  let j := (findIdx (fun c => ltV (decode .fp32 lim) (decode .fp32 c)) (runSums 0 en) 0).getD last
  (kept[j]?).map Prod.fst

/-- The token a decoder emits in a state, as its n-th. -/
def Slot.token (m : Slot) (state seed stream n : Nat) : Nat :=
  let v := hdrVocab m.hdr
  let z := fun (i : Nat) => Config.logit m.image m.marks state i % 2 ^ 32
  let got := if seed = 0 then greedy z v else sampleToken m.hdr z v seed stream n
  got.getD (Config.anyToken m.image m.marks state % v)

/-! ### Sequences (R324, R327, R330) -/

/-- Pages of n tokens, and pages of a slot's pool. -/
def Slot.pagesFor (m : Slot) (n : Nat) : Nat := cdiv (n * hdrState m.hdr) 65536
def Slot.pool (m : Slot) : Nat := 16 * hdrPool m.hdr

/-- Pages that a slot's sequences hold. -/
def seqPages (qs : List Seq) (o : Nat) : Nat := sumN ((qs.filter (fun q => q.slot == o)).map Seq.pages)

/-- One more token for a sequence: its last token is read and the next emitted. -/
def Seq.advance (q : Seq) (m : Slot) : Seq :=
  let st := Config.seqState m.image m.marks q.state [q.last]
  { q with state := st, pos := q.pos + 1, gen := q.gen + 1, last := m.token st q.seed q.stream q.gen }

/-- The first step of a decoder sequence: it reads its prompt and emits its first token. -/
def Slot.begin (m : Slot) (slot ctx seq maxNew seed stream : Nat) (prompt : List Nat) : Seq :=
  let st := Config.seqState m.image m.marks 0 prompt
  { slot := slot, ctx := ctx, seq := seq, state := st, pos := prompt.length, gen := 1, maxNew := maxNew, seed := seed, stream := stream,
    last := m.token st seed stream 0, pages := m.pagesFor (prompt.length + maxNew), per := hdrState m.hdr }

/-- STATE of an output record after an emitted token: 1 at the end token, 2 at MAX_NEW, else 0. -/
def Seq.outcome (q : Seq) (m : Slot) : Nat := if q.last = hdrEnd m.hdr then 1 else if q.maxNew ≤ q.gen then 2 else 0

/-- Generate until an end condition: the tokens emitted. The fuel is MAX_NEW. -/
def Slot.generate (m : Slot) : Nat → Seq → List Nat
  | 0, q => [q.last]
  | n + 1, q => if q.outcome m ≠ 0 then [q.last] else q.last :: Slot.generate m n (q.advance m)

/-! ### MODEL_STEP (R326 to R330) -/

/-- A join entry (Table 11.6). -/
structure Join where
  seq : Nat
  count : Nat
  addr : Nat
  count2 : Nat
  maxNew : Nat
  addr2 : Nat
  out : Nat
  seed : Nat
  deriving DecidableEq, Repr

/-- Header, leaves and joins of a step buffer. -/
def stepLeaves (b : List Byte) : Nat := getLE b 0 2
def stepJoins (b : List Byte) : Nat := getLE b 2 2
def stepBytes (b : List Byte) : Nat := 64 + roundUp (8 * stepLeaves b) 64 + 64 * stepJoins b
def leaveSeq (b : List Byte) (i : Nat) : Nat := getLE b (64 + 8 * i) 4
def joinAt (b : List Byte) (j : Nat) : Join :=
  let e := slice b (64 + roundUp (8 * stepLeaves b) 64 + 64 * j) 64
  { seq := getLE e 0 4, count := getLE e 4 4, addr := getLE e 8 8, count2 := getLE e 0x10 4, maxNew := getLE e 0x14 4, addr2 := getLE e 0x18 8,
    out := getLE e 0x20 8, seed := getLE e 0x28 4 }

/-- Fields of a join in their ranges for a model. -/
def joinOk (m : Slot) (j : Join) : Bool :=
  let k := hdrKind m.hdr
  decide (1 ≤ j.count ∧ j.addr % 4 = 0 ∧ j.count + j.count2 + j.maxNew ≤ hdrTokenLimit m.hdr) &&
  (if k = 2 then decide (1 ≤ j.count2) else j.count2 == 0) &&
  (if k = 3 then decide (1 ≤ j.maxNew ∧ j.maxNew ≤ hdrOutputLimit m.hdr) else j.maxNew == 0) &&
  (k != 1 || j.out % 64 == 0)

/-- The step buffer's content passes R328, apart from its tokens. -/
def State.stepOk (s : State) (m : Slot) (o x : Nat) (b : List Byte) : Bool :=
  let js := (List.range (stepJoins b)).map (joinAt b)
  let dec := hdrKind m.hdr == 3
  decide (stepLeaves b ≤ 256 ∧ stepJoins b ≤ (if dec then 256 else 1024)) && (dec || stepLeaves b == 0) && js.all (joinOk m) &&
  (dedupBy id (js.map Join.seq) []).length == js.length &&
  !js.any (fun j => s.models.seqs.any (fun q => q.slot == o && q.ctx == x && q.seq == j.seq))

/-- Read the tokens of joins. -/
def State.readJoins (s : State) (dev : Bool) : List Join → Except Nat (List (Join × List Nat × List Nat))
  | [] => .ok []
  | j :: t => match s.bufRead dev j.addr (4 * j.count), s.bufRead dev j.addr2 (4 * j.count2), s.readJoins dev t with
    | .ok a, .ok b, .ok r => .ok ((j, (chunksOf 4 a).map bytesNat, (chunksOf 4 b).map bytesNat) :: r)
    | .error e, _, _ => .error e
    | _, .error e, _ => .error e
    | _, _, .error e => .error e

/-- What a batch step has done so far. `admitted` are its decoder joins, which keep their pages until it completes;
`temp` counts pages of its other joins. -/
structure StepRun where
  seqs : List Seq
  admitted : List Seq := []
  recs : List (List Byte) := []
  jrecs : List (List Byte) := []
  outs : List (Nat × List Byte) := []
  faults : List Nat := []
  temp : Nat := 0
  stepped : Nat := 0
  joins : Nat := 0
  deferred : Nat := 0
  leaves : Nat := 0
  tokens : Nat := 0
  deriving DecidableEq, Repr

/-- An output record (Table 11.7). -/
def outRecord (seq value pos state entry : Nat) : List Byte :=
  natBytes 4 seq ++ natBytes 4 value ++ natBytes 4 pos ++ natBytes 1 state ++ natBytes 1 0 ++ natBytes 2 entry

/-- A sequence of the context in the slot. -/
def Seq.ofCtx (q : Seq) (o x : Nat) : Bool := q.slot == o && q.ctx == x

/-- One leave. -/
def StepRun.leave (o x : Nat) (r : StepRun) (e : Nat × Nat) : StepRun :=
  if r.seqs.any (fun q => q.ofCtx o x && q.seq == e.1) then
    { r with seqs := r.seqs.filter (fun q => !(q.ofCtx o x && q.seq == e.1)), leaves := r.leaves + 1, recs := r.recs ++ [outRecord e.1 0 0 4 e.2] }
  else r

/-- One join: admitted when its pages and, for a decoder, a sequence place are there and none was deferred before. -/
def StepRun.join (m : Slot) (o x : Nat) (r : StepRun) (e : (Join × List Nat × List Nat) × Nat) : StepRun :=
  let j := e.1.1
  let a := e.1.2.1
  let b := e.1.2.2
  let n := m.pagesFor (j.count + j.count2 + j.maxNew)
  let k := hdrKind m.hdr
  let full := decide (m.pool < seqPages r.seqs o + seqPages r.admitted o + r.temp + n) ||
    (k == 3 && decide (256 ≤ r.seqs.length + r.admitted.length))
  if full ∨ r.deferred ≠ 0 then { r with deferred := r.deferred + 1, jrecs := r.jrecs ++ [outRecord j.seq 0 0 3 e.2] }
  else
    let r := { r with joins := r.joins + 1, stepped := r.stepped + 1 }
    if k = 3 then
      let q := m.begin o x j.seq j.maxNew j.seed 0 a
      { r with admitted := r.admitted ++ [q], tokens := r.tokens + 1, jrecs := r.jrecs ++ [outRecord j.seq q.last q.pos (q.outcome m) e.2] }
    else if k = 2 then
      let v := Config.crossScore m.image m.marks a b % 2 ^ 32
      { r with temp := r.temp + n, jrecs := r.jrecs ++ [outRecord j.seq v (j.count + j.count2) 6 e.2] }
    else
      let v := (List.range (hdrOutWidth m.hdr)).flatMap (fun i => natBytes 4 (Config.encoderOut m.image m.marks a i))
      { r with temp := r.temp + n, outs := r.outs ++ [(j.out, v)], jrecs := r.jrecs ++ [outRecord j.seq 0 j.count 6 e.2] }

/-- One continuing sequence. -/
def StepRun.go (m : Slot) (bad : List Nat) (r : StepRun) (q : Seq) : StepRun :=
  let rest := r.seqs.filter (fun x => x != q)
  if bad.contains q.seq then { r with seqs := rest, faults := r.faults ++ [q.seq], recs := r.recs ++ [outRecord q.seq 0 0 5 0xFFFF] }
  else
    let q := q.advance m
    let st := q.outcome m
    { r with seqs := if st = 0 then rest ++ [q] else rest, stepped := r.stepped + 1, tokens := r.tokens + 1,
             recs := r.recs ++ [outRecord q.seq q.last q.pos st 0xFFFF] }

/-- One batch step of context x in slot o (R326). -/
def stepRun (m : Slot) (o x : Nat) (qs : List Seq) (b : List Byte) (bad : List Nat) (js : List (Join × List Nat × List Nat)) : StepRun :=
  let r := ((List.range (stepLeaves b)).map (fun i => (leaveSeq b i, i))).foldl (StepRun.leave o x) { seqs := qs }
  let r := js.zipIdx.foldl (StepRun.join m o x) r
  let cont := sortBy (fun (a c : Seq) => decide (a.seq < c.seq)) (r.seqs.filter (Seq.ofCtx · o x))
  let r := cont.foldl (StepRun.go m bad) r
  { r with seqs := r.seqs ++ r.admitted.filter (fun q => decide (q.outcome m = 0)), recs := r.recs ++ r.jrecs }

/-- Write buffers one after another; none when a host access fails. -/
def State.writeAll (s : State) (dev : Bool) : List (Nat × List Byte) → Option State
  | [] => some s
  | w :: t => match s.bufWrite dev w.1 w.2 with
    | none => none
    | some s => s.writeAll dev t

/-- SPEC0 of MODEL_STEP (Table 3.20). -/
def StepRun.spec0 (r : StepRun) : Nat :=
  r.stepped % 65536 + 65536 * (r.joins % 65536) + 2 ^ 32 * (r.deferred % 65536) + 2 ^ 48 * (r.leaves % 65536)

/-- The addresses of a join's buffers can be reached: segments that the step reads, and the output that an encoder writes (R91, R375). -/
def State.joinReach (s : State) (m : Slot) (dev : Bool) (j : Join) : Bool :=
  !dev || ((j.count == 0 || s.usableSpan j.addr (4 * j.count)) && (j.count2 == 0 || s.usableSpan j.addr2 (4 * j.count2)) &&
    (hdrKind m.hdr != 1 || s.inHostRegion j.out (4 * hdrOutWidth m.hdr)))

/-- The batch step of command c, whose joins' tokens are read: pinned regions back in place, the tables that fail, then its tokens,
states and outputs, all of it or nothing (R329). -/
def State.batchStep (s : State) (c : Cmd) (meet : Sys2Proof.ModelMeet) (ts : List (Join × List Nat × List Nat)) : State :=
  let o := dObject c.desc
  let s := ((s.start c.seq).repin c.part o).tablesFail [o] meet.tables
  let m : Slot := tget {} s.models.slots o
  let s := s.modCmd c.seq (fun c => { c with fallback := m.marks.any id })
  let c := (s.cmd? c.seq).getD c
  if meet.hard then s.refuse c stUncorrectable
  else
    let r := stepRun m o c.ctx s.models.seqs c.block meet.seqs ts
    let out := natBytes 4 r.recs.length ++ natBytes 60 0 ++ r.recs.flatten
    match s.writeAll (dDevAddr c.desc) (r.outs ++ [(dfld c.desc 0x18 0 64, out)]) with
    | none => s.refuse c stHostMemFault
    | some s1 =>
      let s1 := { s1 with models := { s1.models with seqs := r.seqs } }
      let s1 := r.faults.foldl (fun s q => s.event 0x0032 2 10 o q 0) s1
      (s1.stampCopy c.part o).complete c (if r.deferred = 0 then stOk else stOkDeferred) r.spec0 r.tokens true false

/-- MODEL_STEP: one batch step for its slot and context (R329). -/
def modelStep (n : Nat) (meet : Sys2Proof.ModelMeet) (s : State) : State :=
  match s.ready? n (· == opModelStep) with
  | none => s
  | some c =>
    let o := dObject c.desc
    let x := c.ctx
    let b := c.block
    let dev := dDevAddr c.desc
    let m0 : Slot := tget {} s.models.slots o
    let js := (List.range (stepJoins b)).map (joinAt b)
    let g := s.bwRequest c.part [(n, wholeInv)] (s.weightReads [o])
    if m0.state ≠ .ready ∨ !s.modelActive c.part o ∨
       s.earlier c (fun y => dOpcode y.desc == opModelStep && dObject y.desc == o && y.ctx == x) then s
    else if let some code := meet.internal then s.internalStop c code
    else if !s.stepOk m0 o x b then s.refuse c stBadContent
    else match s.readJoins dev js with
      | .error st => (js.foldl (fun (s : State) j => (s.bufMet dev j.addr (4 * j.count)).bufMet dev j.addr2 (4 * j.count2)) s).refuse c st
      | .ok ts =>
        if ts.any (fun t => (t.2.1 ++ t.2.2).any (fun k => decide (hdrVocab m0.hdr ≤ k))) then s.refuse c stBadContent
        else if g.1 then g.2.batchStep c meet ts else g.2

def execModelStep (cmd : Nat) (meet : Sys2Proof.ModelMeet) (s : State) : Outcome := .next (modelStep cmd meet s)

/-! ### Passages (R332) -/

/-- Find an ID's passage among at most n buckets from bucket b: token offset and count. -/
def State.findPassage (s : State) (base lg id : Nat) : Nat → Nat → Except Nat (Option (Nat × Nat))
  | 0, _ => .ok none
  | n + 1, b =>
    let a := base + 64 * (b % 2 ^ lg)
    if !s.hostOk a 64 then .error stHostMemFault
    else
      let es := chunksOf 16 (s.hostRead a 64)
      match es.find? (fun e => getLE e 0 8 == id && getLE e 0 8 != padId) with
      | some e => .ok (some (getLE e 8 4, getLE e 12 2))
      | none => if es.any (fun e => getLE e 0 8 == padId) then .ok none else s.findPassage base lg id n (b + 1)

/-- The passage tokens of an ID under a model's header; none when it has no passage. -/
def State.passage (s : State) (h : List Byte) (id : Nat) : Except Nat (Option (List Nat)) :=
  let lg := hdrPassLog h
  let base := hdrPassAddr h
  if lg = 0 then .ok none
  else match s.findPassage base lg id (min 8 (2 ^ lg)) ((id * 0x9E3779B97F4A7C15 % 2 ^ 64) >>> (64 - lg)) with
    | .error e => .error e
    | .ok none => .ok none
    | .ok (some (off, n)) =>
      let a := base + 64 * 2 ^ lg + 4 * off
      if s.hostOk a (4 * n) then .ok (some ((chunksOf 4 (s.hostRead a (4 * n))).map bytesNat)) else .error stHostMemFault

/-! ### Session state (R304, R307, R337) -/

/-- MiB of saved sequences. -/
def sessionMiB (qs : List (Nat × Seq)) : Nat := cdiv (sumN (qs.map (fun q => q.2.pos * q.2.per))) (2 ^ 20)

/-- SNAPSHOT_SESSION: after every earlier command of its ring. -/
def snapshotSession (n : Nat) (s : State) : State :=
  match s.ready? n (· == opSnapshot) with
  | none => s
  | some c =>
    if dSubop c.desc ≠ 1 ∨ s.jrn.lp ≠ 0 ∨ s.earlier c (fun x => x.ring == c.ring) then s
    else if s.jrn.readOnly then s.refuse c stJrnFail
    else
      let qs := (s.models.seqs.filter (fun q => q.ctx == c.ctx)).map (fun q => ((tget {} s.models.slots q.slot : Slot).modelId, q))
      let y : Snapshot := { part := c.part, session := true, object := c.ctx, label := dfld c.desc 0x08 0 64, seqs := qs }
      let b := s.bwRequest c.part [(n, wholeInv)] [(5, y.stateBytes)]
      if !b.1 then b.2
      else match b.2.commitSnap y with
      | none => b.2.refuse (b.2.again c) stNoSpace
      | some s => s.complete (s.again c) stOk (unitsSpec (sessionMiB qs) (sessionMiB qs)) 0 false false

def execSnapshotSession (cmd : Nat) (s : State) : Outcome := .next (snapshotSession cmd s)

/-- The saved sequences fit: pages in every slot, and the module's 256 decoder sequences. -/
def State.sessionFits (s : State) (kept back : List Seq) : Bool :=
  decide (kept.length + back.length ≤ 256) &&
  back.all (fun q => decide (seqPages kept q.slot + seqPages back q.slot ≤ (tget {} s.models.slots q.slot : Slot).pool))

/-- RESTORE_SESSION: the saved sequences of the ring's context are re-created; one that is active under the same slot and
SEQ is replaced. -/
def restoreSession (n : Nat) (s : State) : State :=
  match s.ready? n (· == opRestore) with
  | none => s
  | some c =>
    if dSubop c.desc ≠ 1 ∨ s.jrn.lp ≠ 0 then s
    else if s.jrn.readOnly then s.refuse c stJrnFail
    else match s.jrn.findSnap c.part true c.ctx (dfld c.desc 0x08 0 64) with
      | none => s.refuse c stNoObject
      | some (_, y) =>
        let holds := fun (q : Nat × Seq) =>
          let m : Slot := tget {} s.models.slots q.2.slot
          decide (m.state = .ready) && m.modelId == q.1 && m.owner == c.part
        let back := y.seqs.map Prod.snd
        let kept := s.models.seqs.filter (fun q => !back.any (fun z => z.slot == q.slot && z.ctx == q.ctx && z.seq == q.seq))
        if !y.seqs.all holds then s.refuse c stBadContent
        else if !s.sessionFits kept back then s.refuse c stNoSpace
        else
          let b := s.bwRequest c.part [(n, wholeInv)] [(5, y.stateBytes)]
          if !b.1 then b.2
          else
          let s := b.2
          let s := { s with models := { s.models with seqs := kept ++ back } }
          s.complete (s.again c) stOk (unitsSpec (sessionMiB y.seqs) (sessionMiB y.seqs)) 0 false false

def execRestoreSession (cmd : Nat) (s : State) : Outcome := .next (restoreSession cmd s)

end Sys2Proof.Machine
end

