-- ==== Sys2Proof/Machine/Units.lean ====
section
/-!
DEFINITION. Units, spares and failures, in-service test, event selection, lifetime records and calendar
(16_reliability_test.md), and what a scan engine's failure does to its segments (R199).
-/

namespace Sys2Proof.Machine

/-! ### Units (R455 to R458) -/

/-- Change unit n. -/
def State.modTest (s : State) (n : Nat) (f : TestUnit → TestUnit) : State :=
  { s with tst := { s.tst with units := tset s.tst.units n (f (s.unit n)) } }

/-- Kind and number of a unit in event records (Table 16.2). -/
def testKind (n : Nat) : Nat := if n < 272 then 1 else if n < 488 then 2 else 3
def testNum (n : Nat) : Nat := if n < 272 then n else if n < 488 then n - 272 else n - 488

/-- Active units of a kind (R57): tiles, engines mapped to slots. -/
def State.tilesActive (s : State) : Nat := ((List.range 272).filter (fun t => decide ((s.unit t).state = .active))).length

/-- Slot k's engine on stack st: SCH_SLOT_MAP (R340). -/
def State.slotEngine (s : State) (st k : Nat) : Option Nat :=
  match bitsOf (lget 0 s.scan.slots st) (2 * k) 2 with
  | 0 => some k
  | 1 => some 16
  | 2 => some 17
  | _ => none

/-- Engines mapped to slots on stack st. -/
def State.mappedEngines (s : State) (st : Nat) : List Nat := (List.range 16).filterMap (s.slotEngine st)

def State.enginesActive (s : State) : Nat := sumN ((List.range 12).map (fun st => (s.mappedEngines st).length))

/-- Test and fault index of engine e of stack st. -/
def engineUnit (st e : Nat) : Nat := 272 + 18 * st + e

/-- Set slot k of stack st to map value v. -/
def State.setSlot (s : State) (st k v : Nat) : State :=
  let w := BitVec.ofNat 32 (lget 0 s.scan.slots st)
  { s with scan := { s.scan with slots := lmod s.scan.slots st (fun _ => (setFld w (2 * k) 2 v).toNat) } }

/-- A spare tile takes the failed tile's entries in every placement (R368). -/
def State.replaceTile (s : State) (bad spare : Nat) : State :=
  (allParts.filter (fun p => (s.part p).tiles.contains bad)).foldl (fun s p =>
    let s := s.applyPlace p ((s.part p).place.map (fun e => if e.1 = bad then (spare, e.2) else e))
    s.event 0x0053 1 7 p (s.part p).epoch bad) s

/-- Record a failure of unit n (R456, R457, R462). -/
def State.recordFailure (s : State) (n cause : Nat) : State :=
  let stamp := (s.unit n).pass
  let s := s.modTest n (fun u => { u with state := .failed, cause := cause, record := true })
  (s.life 15 1).event 0x0013 3 (testKind n) (testNum n) cause stamp

/-- A tile fails (R271, R457, R368). -/
def State.tileFails (s : State) (n : Nat) (spared : Bool) : State :=
  let s := s.abortAll (fun c => (s.tile n).running == some c.seq) stUnitFault false
  let s := s.modTile n (fun t => { t with running := none })
  if spared then s
  else
    match (List.range 17).map (fun i => 17 * (n / 17) + i) |>.find? (fun t => decide ((s.unit t).state = .spare)) with
    | some sp =>
      let s := (s.modTest sp (fun u => { u with state := .active })).boostClip
      (s.event 0x0012 1 1 n n sp).replaceTile n sp
    | none => s.event 0x0011 2 1 n s.tilesActive 0

/-- A scan engine fails: the lowest free spare takes its slot, or the slot is unmapped (R340, R457). -/
def State.engineFails (s : State) (n : Nat) : State :=
  let st := (n - 272) / 18
  let e := (n - 272) % 18
  match (List.range 16).find? (fun k => s.slotEngine st k == some e) with
  | none => s
  | some k =>
    match [16, 17].find? (fun x => decide ((s.unit (engineUnit st x)).state = .spare)) with
    | some x =>
      let s := (s.modTest (engineUnit st x) (fun u => { u with state := .active })).setSlot st k (x - 15)
      s.event 0x0012 1 2 (testNum n) (testNum n) (testNum (engineUnit st x))
    | none =>
      let s := s.setSlot st k 3
      s.event 0x0011 2 2 (testNum n) s.enginesActive 0

/-- UNIT_FAILED (R457): unit n fails with a cause; a unit that has failed already stays as it is. -/
def State.unitFail (s : State) (n cause : Nat) : State :=
  let was := (s.unit n).state
  if was = .failed then s
  else
    let s := s.recordFailure n cause
    if n < 272 then s.tileFails n (decide (was = .spare)) else if n < 488 then s.engineFails n else s

/-- The engines of partition p on stack st that serve one of its slots (R340). -/
def State.partEngines (s : State) (p st : Nat) : List Nat :=
  ((List.range 16).filter (fun k => bitsOf (s.part p).res.toNat (16 + k) 1 == 1)).filterMap (s.slotEngine st)

/-- Engines of a stack that read a segment. -/
def State.busyEngines (s : State) (st : Nat) : List Nat := (s.scan.passes.filter (fun x => x.stack == st)).filterMap Pass.engine

/-- The lowest free engine of partition p on stack st (R174). -/
def State.freeEngine (s : State) (p st : Nat) : Option Nat :=
  let busy := s.busyEngines st
  (sortBy (fun a b => decide (a < b)) (s.partEngines p st)).find? (fun e => !busy.contains e)

/-- Change every probe of the searches that satisfy p. -/
def State.mapProbes (s : State) (p : Cmd → Bool) (f : Probe → Probe) : State :=
  let q1 : QState → QState := fun q => { q with probes := q.probes.map (fun l => l.map f) }
  s.mapCmds (fun c => if p c then { c with query := c.query.map (fun w => { w with qs := w.qs.map q1 }) } else c)

/-- Partition p has no engine left on stack st: the stack is out of service for it (R176). Its segments there end and
its probes go. -/
def State.stackLost (s : State) (p st : Nat) : State :=
  let s := s.mapProbes (fun c => c.part == p) (fun b =>
    if b.onStack = st then (match b.state with
      | .delivered => b
      | .running n => { b with state := .withdrawn, left := some n }
      | _ => { b with state := .withdrawn }) else b)
  s.leavePasses (fun a _ => a.part == p && a.stack == st)

/-- Segments that wait for an engine take the lowest free ones, in order. -/
def State.assignEngines (s : State) : State :=
  (s.scan.passes.filter (fun a => a.engine.isNone)).foldl (fun s a =>
    match s.freeEngine a.part a.stack with
    | none => s
    | some e =>
      let put : Pass → Pass := fun y => if y.id = a.id then { y with engine := some e } else y
      { s with scan := { s.scan with passes := s.scan.passes.map put } }) s

/-- The segment on engine e of stack st after the engine has failed (R199, R176): it goes on, from the last block of
4,096 slots not finished, on a free engine of the partition's set, or waits for one; a second failure in one segment stops
its commands. -/
def State.moveSegments (s : State) (st e : Nat) : State :=
  (s.scan.passes.filter (fun a => a.stack == st && a.engine == some e)).foldl (fun s a =>
    if 1 ≤ a.faults then
      s.abortAll (fun c => a.served.any (fun v => !v.left && v.cmd == c.seq)) stUnitFault false
    else if (s.partEngines a.part st).isEmpty then s.stackLost a.part st
    else
      let at' := max a.first (a.cursor / 4096 * 4096)
      let again : Served → Served := fun v => { v with pos := at', nans := v.nans.filter (fun x => decide (x < at')) }
      let back : Pass → Pass := fun y =>
        if y.id = a.id then { y with engine := none, faults := 1, cursor := at', upto := at', served := y.served.map again } else y
      { s with scan := { s.scan with passes := s.scan.passes.map back } }.assignEngines) s

/-- A scan engine's failure with its segments. -/
def State.engineLost (s : State) (n cause : Nat) : State :=
  let st := (n - 272) / 18
  let s := (s.unitFail n cause).moveSegments st ((n - 272) % 18)
  (allParts.filter (fun p => (s.partEngines p st).isEmpty)).foldl (fun s p => s.stackLost p st) s

/-- A merge unit fails (R218): each search of its partition with a query on it stops. Which queries a unit holds the spec
leaves to the device, but for a partition's only working unit, which holds all (log entry 122). -/
def State.mergeLost (s : State) (n cause : Nat) : State :=
  let f := s.free
  let only := fun (p : Nat) => (s.part p).clusters.all (fun c => c == n - 488 || decide ((s.unit (488 + c)).state = .failed))
  if (s.unit n).state = .failed then s
  else (f.2.unitFail n cause).abortAll (fun x => isSearch (dOpcode x.desc) && decide (x.run ≠ .waiting) &&
    (s.part x.part).clusters.contains (n - 488) && (only x.part || Config.mergeHolds f.1 (n - 488) x.seq)) stUnitFault false

/-- Unit n fails with a cause, with what its failure does to its work (Table 16.6). -/
def State.unitLost (s : State) (n cause : Nat) : State :=
  if n < 272 then s.unitFail n cause else if n < 488 then s.engineLost n cause else s.mergeLost n cause

/-- TST_RETEST (R458). -/
def tstRetest (v : Word32) (s : State) : State :=
  let n := fld v 0 9
  if s.bar0Off then s
  else if fld v 16 16 ≠ 0x3D91 then s.hifErr 2
  else if n < 504 ∧ (s.unit n).record then s.modTest n (fun u => { u with record := false, retest := true }) else s

def execTstRetest (value : Word32) (s : State) : Outcome := .next (tstRetest value s)

/-! ### In-service test (R460 to R463) -/

/-- A set is EMPTY. -/
def setEmpty (a : AccSet) : Bool := decide (a.state = .empty)

/-- Unit n is at a point of rest (R461): no invocation and both sets EMPTY, or no segment. Merge units rest between
rows, where every step of this model stands. -/
def State.atRest (s : State) (n : Nat) : Bool :=
  if n < 272 then (s.tile n).running.isNone && setEmpty (s.tile n).x && setEmpty (s.tile n).y
  else if n < 488 then !s.scan.passes.any (fun a => a.engine.map (engineUnit a.stack) == some n) else true

/-- Slices of a pass (Table 16.7). -/
def passSlices (n : Nat) : Nat := if n < 272 then 128 else if n < 488 then 64 else 32

/-- AGEING_STEP of a tile or engine whose margin is below 3 % (R409). -/
def State.ageStep (s : State) (n : Nat) : State :=
  let r := s.rating n
  if r.ceil < 770 + 5 then
    ({ s with pwr := { s.pwr with ratings := tset s.pwr.ratings n { r with worn := true } } } : State).unitLost n 4
  else
    ({ s with pwr := { s.pwr with ratings := tset s.pwr.ratings n { r with age := r.age + 1 } } } : State).boostClip

/-- TEST_SLICE on unit n: passing or not, and whether the ageing monitor finds too little margin. -/
def testSlice (n : Nat) (pass worn : Bool) (s : State) : State :=
  let u := s.unit n
  let force := 1000000000 * (fld s.tst.ctl 0 16 - fld s.tst.ctl 16 8) ≤ s.hif.timer - u.pass
  if !flag s.tst.ctl 31 ∨ !s.module.rails ∨ u.state = .failed ∨ !s.atRest n ∨ (n < 272 ∧ !force ∧ s.pwr.parked.contains n) then s
  else if !pass then s.unitLost n 1
  else
    let begun := if u.slices = 0 then s.hif.timer else u.begun
    let full := decide (u.slices + 1 = passSlices n)
    let u1 := if full then { u with pass := begun, begun := begun, slices := 0, overdue := false }
              else { u with begun := begun, slices := u.slices + 1 }
    let s := s.modTest n (fun _ => u1)
    let s := if full then { s with tst := { s.tst with passes := (s.tst.passes + 1) % 2 ^ 64 } } else s
    if worn ∧ n < 488 then s.ageStep n else s

def execTestSlice (unit : Fin 504) (pass worn : Bool) (s : State) : Outcome := .next (testSlice unit.val pass worn s)

/-- Test age in s. -/
def State.testAge (s : State) (n : Nat) : Nat := (s.hif.timer - (s.unit n).pass) / 1000000000

/-- Unit n's test age is past PERIOD_S (R461). -/
def State.pastPeriod (s : State) (n : Nat) : Bool :=
  decide (1000000000 * fld s.tst.ctl 0 16 < s.hif.timer - (s.unit n).pass)

/-- TEST_OVERDUE of unit n, once per pass missed. -/
def testOverdue (n : Nat) (s : State) : State :=
  let u := s.unit n
  if u.state = .failed ∨ u.overdue ∨ !s.pastPeriod n ∨ !s.module.rails then s
  else (s.modTest n (fun u => { u with overdue := true })).event 0x0014 2 (testKind n) (testNum n) (s.testAge n) 0

def execTestOverdue (unit : Fin 504) (s : State) : Outcome := .next (testOverdue unit.val s)

/-- A unit holds work and nothing it must wait for applies (Table 16.5, cause 3). -/
def State.mayStall (s : State) (n : Nat) : Bool :=
  s.reasonBits == 0 &&
  (if n < 272 then (match (s.tile n).running.bind s.cmd? with
      | some c => !(s.part c.part).sems.any (fun m => m.2.waiters.any (fun w => w.cmd == c.seq && w.tile == n))
      | none => false)
   else if n < 488 then s.scan.passes.any (fun a => a.engine.map (engineUnit a.stack) == some n)
   else s.qm.cmds.any (fun c => isSearch (dOpcode c.desc) && decide (c.run ≠ .waiting) && (s.part c.part).clusters.contains (n - 488)))

/-- UNIT_STALL of unit n (Table 16.5). -/
def unitStall (n : Nat) (s : State) : State :=
  if s.mayStall n then s.unitLost n 3 else s

def execUnitStall (unit : Fin 504) (s : State) : Outcome := .next (unitStall unit.val s)

/-- TILE_UNIT_FAULT: an uncorrectable scratchpad or accumulator error, or a failed engine of the tile (R271). -/
def tileUnitFault (t : Nat) (s : State) : State := s.unitFail t 2

def execTileUnitFault (tile : Fin 272) (s : State) : Outcome := .next (tileUnitFault tile.val s)

/-- MERGE_UNIT_FAULT of cluster c, which holds queries of the commands given (R218). -/
def mergeUnitFault (c : Nat) (cmds : List Nat) (s : State) : State :=
  if (s.unit (488 + c)).state = .failed then s
  else (s.unitFail (488 + c) 2).abortAll (fun x => cmds.contains x.seq && isSearch (dOpcode x.desc) &&
    (s.part x.part).clusters.contains c) stUnitFault false

def execMergeUnitFault (cluster : Fin 16) (cmds : List Nat) (s : State) : Outcome :=
  .next (mergeUnitFault cluster.val cmds s)

/-! ### Event window (R452) -/

/-- The retained record with sequence number n. -/
def State.eventAt (s : State) (n : Nat) : Option Event := s.mgt.events.find? (fun e => e.seq == n)

/-- A record's 32 bytes (Table 16.2). -/
def eventBytes (e : Event) : List Byte :=
  natBytes 8 e.stamp ++ natBytes 4 e.prSec ++ natBytes 2 e.code ++ natBytes 1 e.sev ++ natBytes 1 e.kind ++
  natBytes 4 e.unit ++ natBytes 4 e.d0 ++ natBytes 8 e.d1

/-- A write of MGT_EVT_SEL. -/
def evtSelect (v : Word64) (s : State) : State :=
  if s.bar0Off then s
  else
    let gone := (s.eventAt v.toNat).isNone
    { s with mgt := { s.mgt with evtSel := v, selGone := gone, evtStatus := if gone then 1 else s.mgt.evtStatus } }

def execEvtSelect (value : Word64) (s : State) : Outcome := .next (evtSelect value s)

/-! ### Seconds, lifetime records and calendar (R469 to R471) -/

/-- ns in a second and in 90 days. -/
def secNs : Nat := 1000000000
def days90Ns : Nat := 90 * 86400 * secNs

/-- Powered seconds in the last 30 days, and the days they cover. -/
def State.poweredRate (s : State) : Nat × Nat := (sumN s.mgt.powered30, 86400 * max 1 s.mgt.powered30.length)

/-- The date at which a quantity that has used `used` of `total` over the powered life runs out, at the powered share
of the last 30 days; 0 when nothing has been used or the rate is 0 (log entry 27). -/
def State.endDate (s : State) (used total : Nat) : Nat :=
  let r := s.poweredRate
  if used = 0 ∨ r.1 = 0 ∨ !s.hif.todSet then 0
  else
    let now := s.hif.tod.toNat + (s.hif.timer - s.hif.todStamp.toNat)
    (now + secNs * (lget 0 s.mgt.life 0 * (total - used) * r.2 / (used * r.1))) % 2 ^ 64

/-- The active unit with the most AGE_STEPS: its steps and those that would set WORN. -/
def State.oldestUnit (s : State) : Nat × Nat :=
  (s.pwr.ratings.filter (fun r => decide ((s.unit r.1).state = .active))).foldl
    (fun (acc : Nat × Nat) r => if acc.1 < r.2.age then (r.2.age, (r.2.fused - 770) / 5 + 1) else acc) (0, 1)

/-- The lifetime records of Table 16.11: AGE_STEPS_MAX is what the active units have now, the others are counted. -/
def State.lifeRecords (s : State) : List Nat := lmod s.mgt.life 16 (fun _ => s.oldestUnit.1)

/-- Table 16.12. -/
def State.calendar (s : State) : List Nat :=
  let a := s.endDate (lget 0 s.mgt.life 10) 10000
  let o := s.oldestUnit
  let b := s.endDate o.1 o.2
  let first := if a = 0 then b else if b = 0 then a else min a b
  [a, b, first - days90Ns, if s.hif.todSet then lget 0 s.mgt.life 17 else 0]

/-- Recompute MGT_CAL. -/
def State.calUpdate (s : State) : State := { s with mgt := { s.mgt with cal := s.calendar } }

/-- PR_SEC_TICK: one second of Primrose's oscillator on standby power (R469, R470). -/
def prSecTick (s : State) : State :=
  if !s.module.standby then s
  else
    let up := s.module.inputValid
    let days := if (s.mgt.prSec + 1) % 86400 = 0 ∨ s.mgt.powered30.isEmpty then (0 :: s.mgt.powered30).take 30 else s.mgt.powered30
    let s := { s with mgt := { s.mgt with prSec := (s.mgt.prSec + 1) % 2 ^ 32, powered30 := lmod days 0 (· + bit up) } }
    s.life (if up then 0 else 1) 1

def execPrSecTick (s : State) : Outcome := .next (prSecTick s)

/-- PR_SEC_STORE: 60 s after the last store. -/
def prSecStore (s : State) : State :=
  if s.module.standby ∧ s.mgt.prStored + 60 ≤ s.mgt.prSec then { s with mgt := { s.mgt with prStored := s.mgt.prSec } } else s

def execPrSecStore (s : State) : Outcome := .next (prSecStore s)

/-- CALENDAR_RECOMPUTE: each hour of Primrose's counter. -/
def calendarRecompute (s : State) : State := if s.module.standby ∧ s.mgt.prSec % 3600 = 0 then s.calUpdate else s

def execCalendarRecompute (s : State) : Outcome := .next (calendarRecompute s)

end Sys2Proof.Machine
end

