-- ==== Sys2Proof/Machine/Search.lean ====
section
/-!
DEFINITION. SEARCH and SEARCH_BATCH (05_search.md, 07_topk_merge.md, R331 to R334): reading the query input, encoding,
routing and dispatch; coverage; and completion with merging, refinement, reranking, rewriting and the result blocks.
Each step of the command runs its next stage that can run. A result block is formed from what the segments delivered (R171, log entry 8).
-/

namespace Sys2Proof.Machine

/-! ### Search parameters -/

/-- DEDUP in effect (R160). -/
def sDedup (c : Cmd) : Bool := dDedup c.desc == 2 || (dDedup c.desc == 0 && qosDedup c.qos == 1)

/-- A stage reads tokens. -/
def sTokens (c : Cmd) : Bool := sEncode c || sRerank c || sRewrite c

/-- The scan parameters of a query. -/
def queryParams (c : Cmd) (w : QueryWork) (q : QState) : QParams :=
  { q32 := q.q32, q64 := q.q64, qbits := q.qbits, k := sK c, refineN := sRefineN c, refineFmt := sRefineFmt c, dedup := sDedup c,
    filter := w.filter, arg := sArg c }

/-! ### Query input (R145, R149) -/

/-- The token section from address a: whether its count is valid, and its tokens. -/
def State.readTokens (s : State) (c : Cmd) (v a : Nat) : Except Nat (Bool × List Nat) :=
  match s.bufRead (dDevAddr c.desc) a 4 with
  | .error e => .error e
  | .ok h =>
    let n := bytesNat h
    let wide := !sEncode c && sBatch c && decide (64 * sStride c < v + roundUp (8 + 4 * n) 64)
    if n = 0 ∨ 8192 < n ∨ (sEncode c ∧ n ≠ sQueryLen c) ∨ wide then .ok (false, [])
    else match s.bufRead (dDevAddr c.desc) (a + 8) (4 * n) with
      | .error e => .error e
      | .ok bs => .ok (true, (chunksOf 4 bs).map bytesNat)

/-- A token lies beyond the vocabulary of a stage that reads it. -/
def State.tokensBad (s : State) (c : Cmd) (ts : List Nat) : Bool :=
  let past := fun (o : Nat) => ts.any (fun t => decide (hdrVocab (s.slot o).hdr ≤ t))
  (sEncode c && past (sEncModel c)) || (sRerank c && past (sRerankModel c)) || (sRewrite c && past (sRewriteModel c))

/-- Read query i of a command once; the vector of an encoded query is formed by the encoder. -/
def State.readQuery (s : State) (c : Cmd) (cfg : CollCfg) (q0 : QState) (i : Nat) : Except Nat QState :=
  let a := sQueryAddr c + i * sStride c * 64
  let n := if sEncode c then 0 else srcBytes cfg
  let v := roundUp n 64
  match s.bufRead (dDevAddr c.desc) a n with
  | .error e => .error e
  | .ok vec =>
    match (if sTokens c then s.readTokens c v (a + v) else .ok (true, [])) with
    | .error e => .error e
    | .ok t =>
      let els := if sEncode c then [] else srcElems cfg vec
      let bad := !t.1 || s.tokensBad c t.2 || els.any (elemBad cfg)
      if bad then .ok { q0 with bad := true }
      else if sEncode c then
        let m := s.slot (sEncModel c)
        let out := (List.range cfg.dim).map (fun j => Config.encoderOut m.image m.marks t.2 j % 2 ^ 32)
        let norm1 := fun (f : Fmt) (x : List Nat) => if cfg.metric = 2 then normalise f x else x
        .ok { q0 with q32 := norm1 .fp32 out, q64 := norm1 .fp64 (out.map (convert .fp32 .fp64)), tokens := t.2 }
      else .ok { q0 with q32 := vecF32 cfg els, q64 := vecF64 cfg els, qbits := vec, tokens := t.2 }

/-- Read every query of a command. -/
def State.readQueries (s : State) (c : Cmd) (cfg : CollCfg) : List (QState × Nat) → Except Nat (List QState)
  | [] => .ok []
  | x :: t => match s.readQuery c cfg x.1 x.2, s.readQueries c cfg t with
    | .ok q, .ok r => .ok (q :: r)
    | .error e, _ => .error e
    | _, .error e => .error e

/-! ### Model stages of a search (R149, R162, R163, R327) -/

/-- A join of n tokens in slot o can be admitted now; decoders also need a sequence place. -/
def State.joinRoom (s : State) (o n : Nat) (decoder : Bool) : Bool :=
  let m := s.slot o
  decide (seqPages s.models.seqs o + m.pagesFor n ≤ m.pool) && (!decoder || decide (s.models.seqs.length < 256))

/-- A stage waits: note since when, for the delay of a deferred join (R327). -/
def State.searchDefer (s : State) (n : Nat) : State :=
  s.modCmd n (fun c => { c with query := c.query.map (fun w => { w with deferSince := some (w.deferSince.getD s.hif.timer) }) })

/-- A stage runs: the wait for its joins ends, and FALLBACK shows its models' states. -/
def State.stageRuns (s : State) (n : Nat) (slots : List Nat) : State :=
  let fb := slots.any (fun o => (s.slot o).marks.any id)
  s.modCmd n (fun c =>
    let wait := match c.query.bind QueryWork.deferSince with | some t => s.hif.timer - t | none => 0
    { c with fallback := c.fallback || fb, deferWait := c.deferWait + wait,
             query := c.query.map (fun w => { w with deferSince := none }) })

/-! ### Dispatch (R150, R151, R153, R169) -/

/-- Stack st is out of service for partition p (R169, R176). -/
def State.stackOutFor (s : State) (p st : Nat) : Bool := (s.memUnit st).oos || (s.partEngines p st).isEmpty

/-- What one pass reads: the stack, the collection, the list or shard, the version bound and the most probes a pass serves. -/
structure PassKey where
  stack : Nat
  coll : Nat
  what : Scanned
  epoch : Nat
  ver : Nat
  qmax : Nat
  deriving DecidableEq, Repr

/-- The pass that a probe of content d on collection o waits for. -/
def passKey (o : Nat) (d : CollData) (b : Probe) : PassKey :=
  { stack := b.onStack, coll := o, what := b.what, epoch := d.epoch, ver := d.ver b.what, qmax := qmax d.cfg }

/-- The probes of partition p that wait, as the passes they wait for. -/
def State.pendingKeys (s : State) (p : Nat) : List PassKey :=
  let of1 := fun (c : Cmd) => match c.query.bind QueryWork.bound with
    | none => []
    | some d => (((c.query.getD {}).qs.flatMap (fun q => q.probes.getD [])).filter (fun b => decide (b.state = .pending))).map (passKey (dObject c.desc) d)
  (s.qm.cmds.filter (fun c => c.part == p && isSearch (dOpcode c.desc))).flatMap of1

/-- The passes that wait on stack st: each list or shard at each version, Qmax probes a pass (R152, R153). -/
def passesOn (ks : List PassKey) (st : Nat) : Nat :=
  let mine := ks.filter (fun k => k.stack == st)
  sumN (mine.eraseDups.map (fun k => cdiv (mine.filter (· == k)).length k.qmax))

/-- The probe of list l: to its stack or to its replica (R153, R169), given the probes that wait. -/
def State.probeOf (s : State) (p : Nat) (d : CollData) (ks : List PassKey) (l : Nat) : Probe :=
  let il := d.lists.getD l {}
  let out := s.stackOutFor p
  let on := match il.replica with
    | none => il.stack
    | some r =>
      if out r then il.stack
      else if out il.stack then r
      else if passesOn ks r < passesOn ks il.stack then r else il.stack
  { what := .list l, stack := il.stack, onStack := on, state := if out on then .withdrawn else .pending }

/-- The probes of a query, its lists and the fresh shard of every stack, and the probes that wait with them. -/
def State.probesOf (s : State) (p o : Nat) (d : CollData) (lists : List Nat) (ks : List PassKey) : List Probe × List PassKey :=
  let add := fun (acc : List Probe × List PassKey) (b : Probe) =>
    (acc.1 ++ [b], if b.state = .pending then acc.2 ++ [passKey o d b] else acc.2)
  let r := lists.foldl (fun acc l => add acc (s.probeOf p d acc.2 l)) ([], ks)
  (List.range 12).foldl (fun acc h =>
    add acc { what := .shard h, stack := h, onStack := h, state := if s.stackOutFor p h then .withdrawn else .pending }) r

/-- The bad lines of a command's query input. -/
def State.inputMet (s : State) (c : Cmd) (cfg : CollCfg) : State :=
  let n := if sEncode c then 0 else srcBytes cfg
  (List.range (sCount c)).foldl (fun (s : State) i =>
    let a := sQueryAddr c + i * sStride c * 64
    let t := a + roundUp n 64
    let m := match s.bufRead (dDevAddr c.desc) t 4 with | .ok h => 8 + 4 * min 8192 (bytesNat h) | .error _ => 4
    (s.bufMet (dDevAddr c.desc) a n).bufMet (dDevAddr c.desc && sTokens c) t m) s

/-- Dispatch one query: its probes, unless it fails or the cut-off has fixed its mask, and the probes that wait with them. -/
def State.dispatchQuery (s : State) (c : Cmd) (d : CollData) (q : QState) (ks : List PassKey) : QState × List PassKey :=
  let out := sumN ((List.range 12).map (fun st => bit (s.stackOutFor c.part st) * 2 ^ st))
  if q.bad ∨ q.fixed.isSome then ({ q with probes := some [] }, ks)
  else
    let r := s.probesOf c.part (dObject c.desc) d (probedLists d q.q32 (sNprobe c)) ks
    ({ q with probes := some r.1, lost := out }, r.2)

/-- Dispatch the queries of a command one after another. -/
def State.dispatchAll (s : State) (c : Cmd) (d : CollData) (qs : List QState) : List QState :=
  (qs.foldl (fun (acc : List QState × List PassKey) q =>
    let r := s.dispatchQuery c d q acc.2
    (acc.1 ++ [r.1], r.2)) ([], s.pendingKeys c.part)).1

/-- The lists that dispatched queries probe. -/
def probedOf (qs : List QState) : List Nat :=
  qs.flatMap (fun q => (q.probes.getD []).filterMap (fun b => match b.what with | .list l => some l | .shard _ => none))

/-- Count the list probes of dispatched queries for replicas (R154). -/
def State.countProbes (s : State) (o : Nat) (qs : List QState) : State :=
  s.modColl o (fun k => { k with probes := (probedOf qs).foldl (fun (t : List (Nat × Nat)) l => tmod 0 t l (· + 1)) k.probes })

/-- Stage 1 runs: its pinned regions in place, the tables that fail, its invocation. -/
def State.encodeStage (s : State) (c : Cmd) (meet : Sys2Proof.ModelMeet) : State :=
  let e := sEncModel c
  if sEncode c then ((s.repin c.part e).tablesFail [e] meet.tables).stageRuns c.seq [e] else s

/-- Read, route and dispatch every query of command c. -/
def State.routeQueries (s : State) (c : Cmd) (w : QueryWork) (d : CollData) : State :=
  match s.readQueries c d.cfg w.qs.zipIdx with
  | .error st => (if st = stUncorrectable then s.inputMet c d.cfg else s).abortCmd c st false
  | .ok qs =>
    let need := s.tableLinesBad (dObject c.desc) ++ routeLinesBad s d
    if qs.any (fun q => !q.bad) ∧ !need.isEmpty then (s.meetRead need).abortCmd c stUncorrectable false
    else
      let qs := s.dispatchAll c d qs
      let dirs := dirLinesBad s d (dedupBy id (probedOf qs) [])
      if !dirs.isEmpty then (s.meetRead dirs).abortCmd c stUncorrectable false
      else
        let s := s.modCmd c.seq (fun c => { c with query := c.query.map (fun w => { w with qs := qs }) })
        let s := if sEncode c then s.stampCopy c.part (sEncModel c) else s
        s.countProbes (dObject c.desc) qs

/-- Encode, read, route and dispatch every query of the command; the weight reads of stage 1 are LC traffic (R155). -/
def State.dispatch (s : State) (c : Cmd) (w : QueryWork) (d : CollData) (meet : Sys2Proof.ModelMeet) : State :=
  let n := c.seq
  let e := sEncModel c
  if sEncode c ∧ (!s.modelActive c.part e ∨ !s.joinRoom e (sQueryLen c) false) then s.searchDefer n
  else
    let s := (s.start n).modCmd n (fun c => { c with spec1 := d.epoch })
    let g := s.bwRequest c.part [(n, wholeInv)] (if sEncode c then s.weightReads [e] else [])
    if !g.1 then g.2
    else
      let s := g.2.encodeStage c meet
      let c := (s.cmd? n).getD c
      if sEncode c ∧ meet.hard then s.abortCmd c stUncorrectable false else s.routeQueries c w d

/-! ### Coverage (R168, R169) -/

/-- The probe has delivered all its candidates. -/
def Probe.done (b : Probe) : Bool := match b.state with | .delivered => true | _ => false

/-- The probe will not deliver any more. -/
def State.probeDead (s : State) (p : Nat) (b : Probe) : Bool :=
  match b.state with
  | .delivered => false
  | .withdrawn => true
  | _ => s.stackOutFor p b.onStack

/-- Bit st of a dispatched query as it stands: some true covered, some false lost, none not yet known. -/
def State.coverBit (s : State) (p : Nat) (q : QState) (st : Nat) : Option Bool :=
  let bs := (q.probes.getD []).filter (fun b => b.stack == st)
  if bitsOf q.lost st 1 = 1 then some false
  else if bs.all Probe.done then some true
  else if bs.any (s.probeDead p) then some false
  else none

/-- The mask of the stacks whose bit is 1 now. -/
def State.coverNow (s : State) (p : Nat) (q : QState) : Nat :=
  sumN ((List.range 12).map (fun st => bit (s.coverBit p q st == some true) * 2 ^ st))

/-- The coverage mask once it is determined. -/
def State.coverage? (s : State) (p : Nat) (q : QState) : Option Nat :=
  match q.fixed with
  | some m => some m
  | none => if (List.range 12).all (fun st => (s.coverBit p q st).isSome) then some (s.coverNow p q) else none

/-! ### Completion (R159 to R166) -/

/-- The lists of a dispatched query, and those read from their replica. -/
def QState.lists (q : QState) : List Nat :=
  (q.probes.getD []).filterMap (fun b => match b.what with | .list l => some l | .shard _ => none)
def QState.fromReplica (q : QState) (l : Nat) : Bool :=
  (q.probes.getD []).any (fun b => decide (b.what = .list l) && b.onStack != b.stack)

/-- What stage 7 makes of ranked entries: entries with reranker scores, NaN scores counted, and the tokens of the longest
join (R162, R333). An entry with a NaN score leaves the selection (R208); VALID stays as stage 6 left it (R210). -/
def State.rerank (s : State) (m : Slot) (toks : List Nat) : List Cand → Except Nat (List Cand × Nat × Nat)
  | [] => .ok ([], 0, 0)
  | a :: t => match s.passage m.hdr a.id, s.rerank m toks t with
    | .error e, _ => .error e
    | _, .error e => .error e
    | .ok p, .ok r =>
      match p with
      | none => .ok ({ a with score := 0xFF800000 } :: r.1, r.2)
      | some ps =>
        let ps := ps.take (hdrTokenLimit m.hdr - toks.length)
        let sc := Config.crossScore m.image m.marks toks ps % 2 ^ 32
        let n := max r.2.2 (toks.length + ps.length)
        if isNaN .fp32 sc then .ok (r.1, r.2.1 + 1, n) else .ok ({ a with score := sc } :: r.1, r.2.1, n)

/-- The passages of entries in rank order (R333). -/
def State.passages (s : State) (h : List Byte) : List Cand → Except Nat (List Nat)
  | [] => .ok []
  | a :: t => match s.passage h a.id, s.passages h t with
    | .ok p, .ok r => .ok (p.getD [] ++ r)
    | .error e, _ => .error e
    | _, .error e => .error e

/-- The output of stage 8 for query i. -/
def rewriteTokens (m : Slot) (c : Cmd) (i maxNew : Nat) (prompt : List Nat) : List Nat :=
  let p := prompt.take (hdrTokenLimit m.hdr - maxNew)
  m.generate maxNew (m.begin (sRewriteModel c) c.ctx 0 maxNew (sSeed c) i p)

/-- One query's outcome: VALID, the last selection and its mode, the final entries with FP64 scores, counts, exclusions, output
tokens, and the tokens that the joins of stages 7 and 8 hold pages for. -/
structure Answer where
  status : Nat
  valid : Nat := 0
  wide : Bool := false
  ranked : List Cand := []
  entries : List (Nat × Nat) := []
  invalid : Nat := 0
  excls : List Excl := []
  cover : Nat := 0
  out : List Nat := []
  join1 : Nat := 0
  join2 : Nat := 0
  deriving DecidableEq, Repr

/-- Where the rewrite output of a block lies, and the tokens it has room for (R163). -/
def outOffset (c : Cmd) : Nat := 0x440 + 16 * sK c
def outRoom (m : Slot) (c : Cmd) : Nat := min (hdrOutputLimit m.hdr) ((sResultSize c - outOffset c) / 4)

/-- Why a query stops its command: the status, the bad lines it read, and the model slots whose stages had run. -/
structure AnswerStop where
  status : Nat
  lines : List Nat := []
  ran : List Nat := []
  deriving DecidableEq, Repr

/-- Stages 5 to 8 of query i over a coverage mask. -/
def State.answer (s : State) (c : Cmd) (w : QueryWork) (d : CollData) (q : QState) (i cover : Nat) : Except AnswerStop Answer :=
  let p := queryParams c w q
  let r := rankQuery s.lineBad d p q cover
  let scaled := decide (0 < p.refineN) && (d.cfg.resFmt == 5 || d.cfg.resFmt == 6)
  let bad := if scaled then s.badLines d.resScaleDpa (4 * d.cfg.dim) else []
  if r.stop ∨ !bad.isEmpty then .error { status := stUncorrectable, lines := bad ++ r.excls.map Excl.line }
  else
    let rr : Except Nat (List Cand × Nat × Nat) := if sRerank c then
        (match s.rerank (s.slot (sRerankModel c)) q.tokens r.cands with
         | .ok x => .ok (sortBy (ranksBefore true 32) x.1, x.2)
         | .error e => .error e)
      else .ok (r.cands, 0, 0)
    match rr with
    | .error e => .error { status := e }
    | .ok x =>
      let wide := r.wide && !sRerank c
      let st := if r.cover = 0xFFF ∧ r.excls.isEmpty then stOk else stOkPartial
      let a : Answer := { status := st, valid := r.cands.length, wide := wide, ranked := x.1, entries := x.1.map (fun e => (e.id, scoreF64 wide e.score)), invalid := r.nans + x.2.1,
                          excls := r.excls, cover := r.cover, join1 := x.2.2 }
      if !sRewrite c then .ok a
      else
        let m := s.slot (sRewriteModel c)
        match s.passages m.hdr x.1 with
        | .error e => .error { status := e, ran := if sRerank c then [sRerankModel c] else [] }
        | .ok ps =>
          let pr := q.tokens ++ ps
          let n := outRoom m c
          .ok { a with out := rewriteTokens m c i n pr, join2 := min pr.length (hdrTokenLimit m.hdr - n) + n }

/-- Lines of residual records that refining query i reads (R379). -/
def State.refineLines (s : State) (c : Cmd) (w : QueryWork) (d : CollData) (q : QState) (cover : Nat) : Nat :=
  (rankQuery s.lineBad d (queryParams c w q) q cover).reads * (recordSize d.cfg / 64)

/-- The models of stages 7 and 8 are active. -/
def State.stagesActive (s : State) (c : Cmd) : Bool :=
  (!sRerank c || s.modelActive c.part (sRerankModel c)) && (!sRewrite c || s.modelActive c.part (sRewriteModel c))

/-- Every join of an answer fits (R327). -/
def State.answerFits (s : State) (c : Cmd) (a : Answer) : Bool :=
  (!sRerank c || s.joinRoom (sRerankModel c) a.join1 false) && (!sRewrite c || s.joinRoom (sRewriteModel c) a.join2 true)

/-- The block of query i is written: what it adds to the record (Table 3.20, R164). -/
def State.blockWritten (s : State) (c : Cmd) (i : Nat) (a : Answer) : State :=
  let bad := a.status == stBadContent
  let note : QueryWork → QueryWork := fun w =>
    { w with qs := lmod w.qs i (fun q => { q with written := true }), next := i + 1,
             invalid := w.invalid + a.invalid, excl := w.excl + a.excls.length,
             cover := if bad then w.cover else w.cover &&& a.cover, anyCover := w.anyCover || !bad, anyBad := w.anyBad || bad,
             anyPartial := w.anyPartial || a.status == stOkPartial, anyTrunc := w.anyTrunc || decide (64 < a.excls.length) }
  s.modCmd c.seq (fun c =>
    let w := note (c.query.getD {})
    let valid := if sBatch c then w.next else a.valid
    { c with query := some w,
             spec0 := valid % 65536 + 65536 * satN 16 w.invalid + 2 ^ 32 * (if w.anyCover then w.cover else 0) + 2 ^ 48 * satN 16 w.excl })

/-- The command's status when every block is written (R165). -/
def searchStatus (w : QueryWork) : Nat := if w.anyBad then stBadContent else if w.anyPartial then stOkPartial else stOk

/-- Complete the command when every query's block is written. -/
def State.searchEnd (s : State) (n : Nat) : State :=
  match s.cmd? n with
  | none => s
  | some c =>
    let w := c.query.getD {}
    if w.next < w.qs.length then s else s.complete c (searchStatus w) c.spec0 c.spec1 true w.anyTrunc

/-- The registers of an Aster unit after a selection: at most 256 entries each, or 128 in wide mode (R204, R205). -/
def asterRegs (wide : Bool) (es : List AsterEntry) : List (List AsterEntry) :=
  let n := if wide then 128 else 256
  piecesOf n (cdiv es.length n) es

/-- The merge unit that serves partition p: the first of its clusters' that works (log entry 133: R203 leaves it to the device). -/
def State.mergeUnit (s : State) (p : Nat) : Option Nat := (s.part p).clusters.find? (fun u => decide ((s.unit (488 + u)).state ≠ .failed))

/-- The merge unit of partition p holds the entries of a selection. -/
def State.asterHold (s : State) (p : Nat) (wide : Bool) (es : List AsterEntry) : State :=
  match s.mergeUnit p with
  | none => s
  | some u => { s with scan := { s.scan with aster := tset s.scan.aster u (wide, asterRegs wide es) } }

/-- The last selection of a query as Aster holds it: each entry's source stack and its position (Table 7.1). -/
def asterRow (l : List Cand) : List AsterEntry :=
  l.zipIdx.map (fun x => { score := x.1.score, index := 2 ^ 24 * x.1.stack + x.2, id := x.1.id })

/-- A fallback detected after blocks of the command were written takes effect for all of it (R247): its blocks are formed again. -/
def QueryWork.restart (w : QueryWork) : QueryWork :=
  { w with qs := w.qs.map (fun q => { q with written := false }), next := 0, invalid := 0, excl := 0, cover := 0xFFF, anyCover := false,
           anyBad := false, anyPartial := false, anyTrunc := false }

/-- Write one result block with its outputs, hold its row in the merge unit, and end the command after its last block (R103, R166). -/
def State.putBlock (s : State) (c : Cmd) (w : QueryWork) (d : CollData) (a : Answer) : State :=
  let at' := sResultAddr c + w.next * sResultSize c
  let off := if sRewrite c && a.status != stBadContent then outOffset c else 0
  let blk := resultBlock (sK c) (similarity d.cfg || sRerank c) a.status d.epoch a.cover a.valid a.invalid a.entries a.excls off (4 * a.out.length)
  let outs := if a.out.isEmpty then [] else [(at' + off, a.out.flatMap (natBytes 4))]
  match (s.meetRead (a.excls.map Excl.line)).writeAll (dDevAddr c.desc) ((at', blk) :: outs) with
  | none => s.abortCmd c stHostMemFault false
  | some s => ((s.asterHold c.part a.wide (asterRow a.ranked)).blockWritten c w.next a).searchEnd c.seq

/-- Stages ran for command c: the state, and the command as it now stands. -/
def State.ranStages (s : State) (c : Cmd) (os : List Nat) : State × Cmd :=
  let s := s.stageRuns c.seq os
  (s, (s.cmd? c.seq).getD c)

/-- What an answer does, with rd lines read for refinement and the stages in `slots` run: its block, or the status that stops the
command. -/
def State.putAnswer (s : State) (c : Cmd) (w : QueryWork) (d : CollData) (rd : Nat) (slots : List Nat) (hard : Bool) :
    Except AnswerStop Answer → State
  | .error e =>
    let r := ((s.randServed rd).meetRead e.lines).ranStages c e.ran
    r.1.abortCmd r.2 e.status false
  | .ok a =>
    let r := (s.randServed rd).ranStages c slots
    if !slots.isEmpty ∧ hard then r.1.abortCmd r.2 stUncorrectable false
    else (slots.foldl (fun s o => s.stampCopy c.part o) r.1).putBlock r.2 w d a

/-- The slots whose models stages 7 and 8 of a search run. -/
def lastSlots (c : Cmd) : List Nat := (if sRerank c then [sRerankModel c] else []) ++ (if sRewrite c then [sRewriteModel c] else [])

/-- An answer whose outputs have no room yet waits. -/
def State.answerWaits (s : State) (c : Cmd) : Except AnswerStop Answer → Bool
  | .ok a => !s.answerFits c a
  | .error _ => false

/-- The last stages of a query whose mask is determined, once the memory requests of refinement, rerank and rewrite proceed (R155,
R352). A search whose tables fail in its course starts its blocks again, so that it is wholly fallback (R247). -/
def State.lastStages (s : State) (c : Cmd) (w : QueryWork) (d : CollData) (q : QState) (cover : Nat) (meet : Sys2Proof.ModelMeet) : State :=
  let slots := lastSlots c
  let rd := s.refineLines c w d q cover
  let g := s.bwRequest c.part [(c.seq, wholeInv)] ((2, 64 * rd) :: s.weightReads slots)
  let s1 := (slots.foldl (fun s o => s.repin c.part o) g.2).tablesFail slots meet.tables
  let fell := slots.any (fun o => (s.slot o).marks != (s1.slot o).marks)
  let r := s1.answer c w d q w.next cover
  if !g.1 then g.2
  else if fell ∧ 0 < w.next then s1.modCmd c.seq (fun c => { c with query := c.query.map QueryWork.restart })
  else if s.answerWaits c r then s.searchDefer c.seq
  else s1.putAnswer c w d rd slots meet.hard r

/-- Write the next query's block when its coverage is determined and its stages can run. -/
def State.searchNext (s : State) (n : Nat) (meet : Sys2Proof.ModelMeet) : State :=
  match s.cmd? n with
  | none => s
  | some c =>
    let w := c.query.getD {}
    match w.bound, w.qs[w.next]? with
    | some d, some q =>
      if q.bad then s.putBlock c w d { status := stBadContent }
      else match s.coverage? c.part q with
        | none => s
        | some cover => if s.stagesActive c then s.lastStages c w d q cover meet else s
    | _, _ => s

/-- No merge unit of the partition works (R218). -/
def State.noMerge (s : State) (p : Nat) : Bool := (s.part p).clusters.all (fun k => decide ((s.unit (488 + k)).state = .failed))

/-- The next stage of a search, at most k blocks in the completion stage. -/
def searchStep (n k : Nat) (op : Nat) (meet : Sys2Proof.ModelMeet) (s : State) : State :=
  match s.ready? n (· == op) with
  | none => s
  | some c =>
    let w := c.query.getD {}
    if !w.met then s
    else if let some code := meet.internal then s.internalStop c code
    else match w.bound with
      | none => s.refuse c stBusy
      | some d =>
        if s.noMerge c.part then s.abortCmd c stUnitFault false
        else if w.qs.any (fun q => q.probes.isNone) then s.dispatch c w d meet
        else (List.range k).foldl (fun s _ => s.searchNext n meet) s

/-- SEARCH: its next stage. -/
def execSearch (cmd : Nat) (meet : Sys2Proof.ModelMeet) (s : State) : Outcome := .next (searchStep cmd 1 opSearch meet s)

/-- SEARCH_BATCH: its next stage, at most `count` blocks at its end. -/
def execSearchBatch (cmd count : Nat) (meet : Sys2Proof.ModelMeet) (s : State) : Outcome :=
  .next (searchStep cmd count opSearchBatch meet s)

/-! ### The cut-off (R168, R170) -/

/-- Fix the mask of one unfinished query: its pending and running probes go, with the candidates of lost stacks. -/
def State.fixQuery (s : State) (p : Nat) (q : QState) : QState :=
  if q.written ∨ q.fixed.isSome ∨ q.bad ∨ (q.probes.isSome ∧ (s.coverage? p q).isSome) then q
  else
    let m := if q.probes.isSome then s.coverNow p q else 0
    let keep := fun (st : Nat) => bitsOf m st 1 == 1
    let leave : Probe → Probe := fun b =>
      { b with state := .withdrawn, left := match b.state with | .running n => some n | _ => none }
    { q with fixed := some m, theta := q.theta.filter (fun t => keep t.1), held := q.held.filter (fun a => keep a.stack),
             nans := q.nans.filter (fun x => keep x.1), excls := q.excls.filter (fun x => keep x.1),
             probes := q.probes.map (fun l => l.map (fun b => if keep b.stack then b else leave b)) }

/-- Queries of command n with nothing pending, running or left on a stack hold no threshold table entry there (R191). -/
def State.freeTheta (s : State) (n : Nat) : State :=
  let live := fun (q : QState) (st : Nat) => (q.probes.getD []).any (fun b => b.onStack == st && (b.left.isSome || (match b.state with
    | .pending => true | .running _ => true | _ => false)))
  s.modCmd n (fun c => { c with query := c.query.map (fun w => { w with qs := w.qs.map (fun q =>
    { q with thetaSlots := q.thetaSlots.filter (live q) }) }) })

/-- COVERAGE_CUTOFF of a command: at F + 0.85 b and the time it was held, with PARTIAL_OK = 1. -/
def coverageCutoff (n : Nat) (s : State) : State :=
  match s.cmd? n with
  | none => s
  | some c =>
    let due := decide (c.stamp + 850 * qosBound c.qos + c.heldFor ≤ s.hif.timer)
    if !isSearch (dOpcode c.desc) ∨ !qosPartial c.qos ∨ !due ∨ !ctxRuns (s.ctx c.ctx) then s
    else
      let qs := (c.query.getD {}).qs.map (s.fixQuery c.part)
      let s := s.modCmd n (fun c => { c with query := c.query.map (fun w => { w with qs := qs }) })
      let gone := fun (a : Pass) (v : Served) => v.cmd == n && (match qs[v.q]? with
        | some q => (q.probes.getD []).any (fun b => b.left == some a.pass)
        | none => false)
      ((s.leavePasses gone).freeTheta n).assignEngines

def execCoverageCutoff (cmd : Nat) (s : State) : Outcome := .next (coverageCutoff cmd s)

end Sys2Proof.Machine
end

