-- ==== Sys2Proof/Machine/Fetch.lean ====
section
/-!
DEFINITION. Fetching a descriptor: which ring pair it comes from (R348), its validation in the order of R91 with the
checks each chapter assigns, and its acceptance or its completion with the status of the first check that fails.
-/

namespace Sys2Proof.Machine

/-! ### Check 2: reserved bits and invalid encodings (R90, R93, R96) -/

/-- Fields of the SEARCH opcodes as (bit, width) (Table 3.17). -/
def searchBits : List (Nat × Nat) :=
  [(32, 16), (48, 12), (64, 64), (128, 64), (192, 32), (224, 16), (240, 16), (256, 16), (272, 7), (288, 16), (304, 16),
   (320, 16), (336, 16), (352, 16), (368, 16), (384, 64), (448, 32)]

/-- Fields of an opcode beyond the header as (bit, width): OBJECT at bit 32, SUBOP at bit 48, byte 0x08 at bit 64 (Tables
3.17, 3.18). -/
def opBits (op : Nat) : List (Nat × Nat) :=
  if isSearch op then searchBits
  else if isMutation op then [(32, 16), (64, 64), (128, 64), (192, 32), (224, 16)]
  else match op with
    | 0x14 => [(32, 16), (48, 9), (64, 64), (128, 32)]
    | 0x20 => [(32, 16), (48, 2), (64, 64), (128, 32), (160, 32), (192, 32)]
    | 0x21 => [(32, 16), (64, 64), (128, 32)]
    | 0x22 => [(32, 16), (64, 32), (96, 32)]
    | 0x23 => [(32, 16), (48, 1), (64, 64)]
    | 0x24 => [(32, 16), (48, 1), (64, 64)]
    | 0x30 => [(32, 16), (48, 2), (64, 64), (128, 32)]
    | 0x31 => [(32, 16), (64, 64), (128, 32), (192, 64), (256, 32)]
    | 0x40 => [(48, 3), (64, 64), (128, 64)]
    | 0x41 => [(48, 1)]
    | 0x42 => [(48, 8), (64, 16), (96, 32)]
    | 0x50 => [(48, 1), (64, 64), (128, 32)]
    | 0x51 => [(48, 1), (64, 12), (80, 16)]
    | 0x60 => [(32, 16)]
    | 0x61 => [(32, 16)]
    | 0x70 => [(48, 2), (64, 12)]
    | 0x71 => [(48, 1), (64, 12)]
    | _ => []

/-- Header fields (Table 3.15): OPCODE, IRQ, DEVADDR and DEDUP, TAG. -/
def headBits : List (Nat × Nat) := [(0, 8), (8, 4), (16, 16)]

/-- No bit outside an opcode's fields is 1. -/
def rsvClear (d : Desc) (op : Nat) : Bool := sumN ((headBits ++ opBits op).map (fun f => fld d f.1 f.2 * 2 ^ f.1)) == d.toNat

/-- Check 2 of R91. -/
def descOk (d : Desc) (op : Nat) : Bool :=
  rsvClear d op && decide (dDedup d ≠ 3) && !(isSearch op && decide (2 < dfld d 0x22 0 4)) &&
  !(op == opAtomic && decide (4 < dSubop d))

/-! ### Shared checks -/

/-- The status of the first check that fails. -/
def firstFail (l : List (Bool × Nat)) : Option Nat := (l.find? Prod.fst).map Prod.snd

/-- A buffer the command reads can be reached (R91, R375). -/
def State.canRead (s : State) (d : Desc) (a n : Nat) : Bool :=
  if dDevAddr d then decide (n = 0) || s.usableSpan a n else decide (a + n ≤ 2 ^ 64)

/-- A buffer the command writes can be reached: under DEVADDR it lies in the host region (R375). -/
def State.canWrite (s : State) (d : Desc) (a n : Nat) : Bool :=
  if dDevAddr d then s.inHostRegion a n else decide (a + n ≤ 2 ^ 64)

/-- Collection o belongs to another partition; a FREE number belongs to none (R116). -/
def State.collForeign (s : State) (p o : Nat) : Bool := decide ((s.coll o).state ≠ .free ∧ (s.coll o).owner ≠ p)

/-- No collection o exists. -/
def State.collAbsent (s : State) (o : Nat) : Bool := decide ((s.coll o).state = .free)

/-- Model slot o belongs to another partition (R315). -/
def State.slotForeign (s : State) (p o : Nat) : Bool := decide ((s.slot o).state ≠ .free ∧ (s.slot o).owner ≠ p)

/-- Model slot o holds no loaded model. -/
def State.slotAbsent (s : State) (o : Nat) : Bool := decide (255 < o ∨ (s.slot o).state ≠ .ready)

/-! ### Checks 3 to 8 of each opcode -/

/-- The model slots that the stages requested by a search name. -/
def sModels (c : Cmd) : List Nat :=
  (if sEncode c then [sEncModel c] else []) ++ (if sRerank c then [sRerankModel c] else []) ++
  (if sRewrite c then [sRewriteModel c] else [])

/-- Bytes of a query input that are known at fetch (Table 5.1). -/
def sInput (c : Cmd) (cfg : CollCfg) : Nat :=
  if sEncode c then roundUp (8 + 4 * sQueryLen c) 64 else roundUp (srcBytes cfg) 64

/-- Check 5 of a search fails (Table 5.1). -/
def State.searchParamBad (s : State) (c : Cmd) (cfg : CollCfg) : Bool :=
  let k := sK c
  let h := (s.slot (sEncModel c)).hdr
  let kind := fun (o : Nat) => hdrKind (s.slot o).hdr
  (!sBatch c && decide (dSubop c.desc ≠ 0 ∨ sStride c ≠ 0)) || decide (k = 0 ∨ 4096 < k ∨ cfg.listCount < sNprobe c) ||
  decide (sRefineN c ≠ 0 ∧ (sRefineN c < k ∨ 4032 < sRefineN c ∨ cfg.resFmt = 0)) ||
  (sEncode c && decide (cfg.metric = 3 ∨ kind (sEncModel c) ≠ 1 ∨ hdrOutWidth h ≠ cfg.dim)) ||
  (sRerank c && decide (kind (sRerankModel c) ≠ 2)) || (sRewrite c && decide (kind (sRewriteModel c) ≠ 3)) ||
  (if sEncode c then decide (sQueryLen c = 0 ∨ 8192 < sQueryLen c ∨ hdrTokenLimit h < sQueryLen c) else decide (sQueryLen c ≠ cfg.dim)) ||
  (sBatch c && decide (64 * sStride c < sInput c cfg)) || decide (sResultSize c % 64 ≠ 0)

/-- SEARCH and SEARCH_BATCH (Table 5.1). -/
def State.searchCheck (s : State) (c : Cmd) : Option Nat :=
  let d := c.desc
  let k := s.coll (dObject d)
  let cfg := k.data.cfg
  let span := (sCount c - 1) * sStride c * 64 + sInput c cfg
  firstFail
    [(s.collForeign c.part (dObject d) || (sModels c).any (s.slotForeign c.part), stNotPermitted),
     (s.collAbsent (dObject d), stNoObject),
     (decide (sFilter c ≠ 0xFFFF) && !k.data.filters.any (fun f => f.1 == sFilter c), stNoObject),
     ((sModels c).any s.slotAbsent, stNoObject),
     (s.searchParamBad c cfg, stBadParam),
     (decide (sQueryAddr c % 64 ≠ 0 ∨ sResultAddr c % 64 ≠ 0) || !s.canRead d (sQueryAddr c) span ||
       !s.canWrite d (sResultAddr c) (sCount c * sResultSize c), stBadAddress),
     (decide (sResultSize c < 64 + 16 * sK c + 1024 + 64 * bit (sRewrite c)), stBadBuffer)]

/-- INSERT, DELETE, UPSERT, ATTR_SET (R97, R272). -/
def State.mutCheck (s : State) (c : Cmd) : Option Nat :=
  let d := c.desc
  let o := dObject d
  let cfg := (s.coll o).data.cfg
  let a := dfld d 0x10 0 64
  let bytes := dfld d 0x18 0 32
  let n := dfld d 0x1C 0 16
  firstFail
    [(s.collForeign c.part o, stNotPermitted), (s.collAbsent o, stNoObject),
     (decide (n = 0 ∨ bytes ≠ n * recSize cfg (dOpcode d) ∨ (dOpcode d = opAttrSet ∧ cfg.attrBytes = 0)), stBadParam),
     (decide (65536 < bytes), stTooLarge), (decide (a % 8 ≠ 0) || !s.canRead d a bytes, stBadAddress)]

/-- FILTER_DEFINE (Table 6.7). -/
def State.filterCheck (s : State) (c : Cmd) : Option Nat :=
  let d := c.desc
  let o := dObject d
  let k := s.coll o
  let del := bitsOf (dSubop d) 8 1 == 1
  let a := dfld d 0x08 0 64
  let n := dfld d 0x10 0 32
  firstFail
    [(s.collForeign c.part o, stNotPermitted),
     (s.collAbsent o || (del && !k.data.filters.any (fun f => f.1 == dSubop d % 256)), stNoObject),
     (decide (k.data.cfg.attrBytes = 0 ∨ n % 16 ≠ 0 ∨ 288 < n) || (del && decide (a ≠ 0 ∨ n ≠ 0)), stBadParam),
     (decide (a % 64 ≠ 0) || !s.canRead d a n, stBadAddress), (!del && decide (n < 48), stBadBuffer)]

/-- TRAIN (Table 10.6). -/
def State.trainCheck (s : State) (c : Cmd) : Option Nat :=
  let d := c.desc
  let o := dObject d
  let k := s.coll o
  let cfg := k.data.cfg
  let quant := bitsOf (dSubop d) 0 1 == 1
  let cents := bitsOf (dSubop d) 1 1 == 1
  let a := dfld d 0x08 0 64
  let n := dfld d 0x10 0 32
  let iters := dfld d 0x14 0 32
  let least := max (if cents then cfg.listCount else 0)
    (if quant then (if cfg.codeType = 0 then 256 else if cfg.codeType = 1 then 16 else 0) else 0)
  let sample := if a = 0 then decide (cfg.resFmt = 0 ∧ cfg.codeType ≠ 4) || decide ((liveEntries k.data).length < n) else decide (n = 0)
  firstFail
    [(s.collForeign c.part o, stNotPermitted), (s.collAbsent o, stNoObject),
     (!(quant || cents) || (quant && decide (cfg.codeType = 4)) || sample || decide (n ≠ 0 ∧ n < least) ||
       decide (iters = 0 ∨ 1024 < iters), stBadParam),
     (decide (a ≠ 0) && !s.canRead d a (n * roundUp (contentBytes cfg) 64), stBadAddress)]

/-- COMPACT (R292). -/
def State.compactCheck (s : State) (c : Cmd) : Option Nat :=
  let d := c.desc
  let o := dObject d
  let n := (s.coll o).data.cfg.listCount
  let first := dfld d 0x08 0 32
  firstFail
    [(s.collForeign c.part o, stNotPermitted), (s.collAbsent o, stNoObject),
     (decide (n ≤ first ∨ n < first + dfld d 0x0C 0 32), stBadParam)]

/-- SNAPSHOT and RESTORE: a collection, or the session state that OBJECT 0xFFFF names. RESTORE takes a FREE collection number
(R306). -/
def State.snapCheck (s : State) (c : Cmd) : Option Nat :=
  let o := dObject c.desc
  if dSubop c.desc = 1 then firstFail [(decide (o ≠ 0xFFFF), stNoObject)]
  else
    let none := if dOpcode c.desc = opRestore then decide (1023 < o) else s.collAbsent o
    firstFail [(s.collForeign c.part o, stNotPermitted), (none, stNoObject)]

/-- MODEL_LOAD (R315, R317, R318): a slot that is LOADING serves no command (Table 11.1). -/
def State.loadCheck (s : State) (c : Cmd) : Option Nat :=
  let d := c.desc
  let o := dObject d
  let unload := bitsOf (dSubop d) 1 1 == 1
  let a := dfld d 0x08 0 64
  let n := dfld d 0x10 0 32
  firstFail
    [(s.slotForeign c.part o, stNotPermitted), (decide (255 < o ∨ (s.slot o).state = .loading), stNoObject),
     (unload && decide (a ≠ 0 ∨ n ≠ 0), stBadParam), (!unload && !s.canRead d a n, stBadAddress),
     (!unload && decide (n < 256), stBadBuffer)]

/-- MODEL_STEP, the descriptor's own fields (R315, R328). -/
def State.stepCheck (s : State) (c : Cmd) : Option Nat :=
  let d := c.desc
  let o := dObject d
  firstFail
    [(s.slotForeign c.part o, stNotPermitted), (s.slotAbsent o, stNoObject),
     (decide (dfld d 0x10 0 32 < 64 ∨ dfld d 0x18 0 64 % 64 ≠ 0), stBadParam),
     (!s.canRead d (dfld d 0x08 0 64) (dfld d 0x10 0 32) || !s.canWrite d (dfld d 0x18 0 64) (dfld d 0x20 0 32), stBadAddress)]

/-- Bytes of an ATOMIC's operand (Table 13.5). -/
def atomicSize (t : Nat) : Nat := lget 64 [4, 2, 4, 8, 64] t

/-- ATOMIC (R381, R383). -/
def State.atomicCheck (s : State) (c : Cmd) : Option Nat :=
  let d := c.desc
  let n := atomicSize (dSubop d)
  let t := dfld d 0x08 0 64
  let x := dfld d 0x10 0 64
  firstFail
    [(decide (t % n ≠ 0) || !s.inHostRegion t n || (dSubop d == 4 && (decide (x % 64 ≠ 0) || !s.canRead d x 64)), stBadAddress)]

/-- SANITISE and FORMAT: a collection, one that awaits recovery included (R302), or the whole store. -/
def State.maintCheck (s : State) (c : Cmd) : Option Nat :=
  let o := dObject c.desc
  let k := s.coll o
  let here := decide (k.state ≠ .free) || k.recovering
  if o = 0xFFFF then none
  else firstFail [(here && decide (k.owner ≠ c.part), stNotPermitted), (!here, stNoObject)]

/-- PAUSE and RESUME (R358). -/
def State.ctlCheck (s : State) (c : Cmd) : Option Nat :=
  let t := ctlTarget c.desc
  let q := s.part c.part
  let busy := decide (q.state = .resetting ∨ q.state = .draining)
  if ctlPartScope c.desc then firstFail [(decide (t ≠ c.part), stNotPermitted), (decide (q.state = .off), stNoObject), (busy, stBusy)]
  else
    let k := s.ctx t
    firstFail [(decide (k.part ≠ c.part), stNotPermitted), (decide (k.state = .free), stNoObject), (busy, stBusy)]

/-- The checks on a descriptor's own fields from check 3 on. -/
def State.fieldCheck (s : State) (c : Cmd) : Option Nat :=
  let d := c.desc
  let op := dOpcode d
  if isAdmin op && !cfgAdmin (s.ring c.ring).cfg then some stNotPermitted
  else if isSearch op then s.searchCheck c
  else if isMutation op then s.mutCheck c
  else if op = opFilter then s.filterCheck c
  else if op = opTrain then s.trainCheck c
  else if op = opBuild then
    let o := dObject d
    let n := dfld d 0x10 0 32
    firstFail
      [(s.collForeign c.part o, stNotPermitted), (decide (1023 < o ∨ (s.coll o).state ≠ .free ∨ 128 < n), stBadParam),
       (!s.canRead d (dfld d 0x08 0 64) n, stBadAddress), (decide (n < 128), stBadBuffer)]
  else if op = opCompact then s.compactCheck c
  else if op = opSnapshot ∨ op = opRestore then s.snapCheck c
  else if op = opModelLoad then s.loadCheck c
  else if op = opModelStep then s.stepCheck c
  else if op = opAtomic then s.atomicCheck c
  else if op = opBarrier then
    firstFail [(decide (dfld d 0x08 0 16 < 2 ∨ 4096 < dfld d 0x08 0 16), stBadParam)]
  else if op = opDigest then firstFail [(!s.canWrite d (dfld d 0x08 0 64) 64, stBadAddress)]
  else if op = opProgress then
    let r := dfld d 0x08 0 12
    firstFail [(dSubop d == 0 && bitsOf (s.part c.part).res.toNat (32 + r / 256) 1 == 0, stNotPermitted)]
  else if op = opSanitise ∨ op = opFormat then s.maintCheck c
  else if isControl op then s.ctlCheck c
  else none

/-! ### Parameter buffers (R91) -/

/-- The buffers that a configuration block names, as (address, bytes): source records, centroids, codebook or scale table,
placement bytes, residual scales (R116). -/
def cfgExtents (b : List Byte) : List (Nat × Nat) :=
  let c := cfgOf b
  let n := cfgCount b
  [(cfgSource b, if n = 0 then 0 else (n - 1) * cfgStride b + contentBytes c), (cfgCent b, 4 * c.listCount * c.dim),
   (cfgCode b, codebookBytes c), (cfgPlace b, c.listCount), (cfgRes b, resScaleBytes c)]

/-- BUILD: the block and its PLACE_ADDR bytes, checked in the order of R116. -/
def State.buildBlock (s : State) (c : Cmd) : Except Nat (List Byte) :=
  let d := c.desc
  match s.bufRead (dDevAddr d) (dfld d 0x08 0 64) 128 with
  | .error st => .error st
  | .ok b =>
    if !cfgOk b then .error stBadParam
    else if (cfgExtents b).any (fun e => e.1 != 0 && !s.canRead d e.1 e.2) then .error stBadAddress
    else if cfgPlace b = 0 then .ok b
    else match s.bufRead (dDevAddr d) (cfgPlace b) (cfgOf b).listCount with
      | .error st => .error st
      | .ok pl => if pl.any (fun x => decide (11 < x.toNat)) then .error stBadParam else .ok (b ++ pl)

/-- MODEL_STEP: STEP_BYTES and OUTPUT_SIZE against the step header, then the addresses that its joins name (R91, R327, R328). -/
def State.stepBlock (s : State) (c : Cmd) : Except Nat (List Byte) :=
  let d := c.desc
  let a := dfld d 0x08 0 64
  let n := dfld d 0x10 0 32
  match s.bufRead (dDevAddr d) a 64 with
  | .error st => .error st
  | .ok h =>
    if stepBytes h ≠ n then .error stBadParam
    else if dfld d 0x20 0 32 < 64 + 16 * (stepLeaves h + stepJoins h + 256) then .error stBadBuffer
    else match s.bufRead (dDevAddr d) a n with
      | .error st => .error st
      | .ok b =>
        if ((List.range (stepJoins b)).map (joinAt b)).all (s.joinReach (s.slot (dObject d)) (dDevAddr d)) then .ok b else .error stBadAddress

/-- The parameter block that a descriptor's opcode reads at validation. -/
def State.paramBlock (s : State) (c : Cmd) : Except Nat (List Byte) :=
  let d := c.desc
  let op := dOpcode d
  if op = opBuild then s.buildBlock c
  else if op = opModelStep then s.stepBlock c
  else if op = opFilter ∧ bitsOf (dSubop d) 8 1 = 0 then s.bufRead (dDevAddr d) (dfld d 0x08 0 64) (dfld d 0x10 0 32)
  else .ok []

/-- A parameter block that could not be read meets the uncorrectable lines of its buffers (R398). -/
def State.paramMet (s : State) (c : Cmd) : State :=
  let d := c.desc
  let op := dOpcode d
  let n := if op = opBuild then 128 else dfld d 0x10 0 32
  let s1 := s.bufMet (dDevAddr d) (dfld d 0x08 0 64) n
  match (if op = opBuild then s.bufRead (dDevAddr d) (dfld d 0x08 0 64) 128 else .error 0) with
  | .ok b => s1.bufMet (dDevAddr d && cfgPlace b != 0) (cfgPlace b) (cfgOf b).listCount
  | .error _ => s1

/-- Validation of a descriptor at fetch (R91): the status of the first check that fails, or the parameter block. -/
def State.validate (s : State) (c : Cmd) : Except Nat (List Byte) :=
  let op := dOpcode c.desc
  if !opcodes.contains op then .error stBadOpcode
  else if !descOk c.desc op then .error stBadDesc
  else match s.fieldCheck c with
    | some st => .error st
    | none => s.paramBlock c

/-! ### DESCRIPTOR_FETCH (R78, R87, R105, R348 to R351) -/

/-- The device fetches descriptors of partition p at all (R58, R70, R73, R344, R487). -/
def State.fetches (s : State) (p : Nat) : Bool :=
  !s.bar0Off && !s.hif.viral && !s.hif.d3 && !s.sec.ideHold && flag s.hif.control 0 && s.module.rails && !s.module.flushing &&
  decide ((s.part p).state = .active)

/-- The candidate with the least V, a tie to the lower context (R348). -/
def State.pickCtx (s : State) (p : Nat) : Option Nat :=
  ((s.ctxsOfPart p).filter s.isCandidate).foldl (fun (m : Option Nat) x =>
    match m with
    | none => some x
    | some y => if (s.ctx x).v < (s.ctx y).v then some x else some y) none

/-- The next ring pair of context x after the one it fetched from last (R348). -/
def State.pickRing (s : State) (x : Nat) : Option Nat :=
  let rs := s.fetchRings x
  match rs.find? (fun r => decide ((s.ctx x).lastRing < r)) with
  | some r => some r
  | none => rs.head?

/-- Bucket of a waiting time in µs (R351). -/
def waitBucket (us : Nat) : Nat := if us = 0 then 0 else min 15 (Nat.log2 us + 1)

/-- A command needs the journal store (R313). -/
def needsStore (op : Nat) : Bool := isMutation op || op == opSnapshot || op == opRestore || op == opSanitise || op == opFormat

/-- UNITS_TOTAL and the index epoch of a unit-counting command as they stand at its fetch, which a progress-reporting record shows
when it stops before it starts (R102, Tables 3.20, 10.9; log entry 140). -/
def State.unitsAtFetch (s : State) (c : Cmd) (block : List Byte) : Nat × Nat :=
  let d := c.desc
  let k := s.coll (dObject d)
  match dOpcode d with
  | 0x20 => (trainUnits (dSubop d) (dfld d 0x14 0 32) (liveEntries k.data).length, k.data.epoch)
  | 0x21 => (cfgCount block, 0)
  | 0x22 =>
    let r := compactRange k.data.lists.length (dfld d 0x08 0 32) (dfld d 0x0C 0 32)
    ((s.compactPlan k r.1 r.2).lists.length, k.data.epoch)
  | 0x23 => if dSubop d = 0 then (imageMiB k.data, k.data.epoch) else (0, 0)
  | 0x24 =>
    if dSubop d = 0 then
      (match s.jrn.findSnap c.part false (dObject d) (dfld d 0x08 0 64) with
       | some x => (imageMiB x.2.image.data, k.data.epoch)
       | none => (0, k.data.epoch))
    else (0, 0)
  | 0x60 => (s.maintUnits (dObject d), 0)
  | 0x61 => (s.maintUnits (dObject d), 0)
  | 0x30 => (if bitsOf (dSubop d) 1 1 = 0 then cdiv (dfld d 0x10 0 32) (2 ^ 20) else 0, 0)
  | _ => (0, 0)

/-- A command that passed validation: its filter program and queries (R187), a store in LOW_POWER wakes (R312), and what can
bind does. -/
def State.accept (s : State) (c : Cmd) (block : List Byte) : State :=
  let op := dOpcode c.desc
  let k := s.coll (dObject c.desc)
  let prog := ((k.data.filters.find? (fun f => f.1 == sFilter c)).map Prod.snd)
  let w : Option QueryWork := if isSearch op then some { filter := prog, qs := List.replicate (sCount c) {} } else none
  let u := s.unitsAtFetch c block
  let s := s.modCmd c.seq (fun c => { c with block := block, query := w, spec0 := 2 ^ 32 * (u.1 % 2 ^ 32), spec1 := u.2 })
  let s := if needsStore op ∧ s.jrn.lp = 2 then { s with jrn := { s.jrn with lp := 3 } } else s
  s.bindAll

/-- Put a command among those in flight, in fetch order (R105). -/
def State.addCmd (s : State) (c : Cmd) : State :=
  let q := s.qm
  { s with qm := { q with cmds := q.cmds.filter (fun x => !c.before x) ++ c :: q.cmds.filter (fun x => c.before x), nextSeq := q.nextSeq + 1 } }

/-- Fetch the entry at ring r's SQ head for context x of partition p. -/
def State.fetchFrom (s : State) (p x r : Nat) : State :=
  let g := s.ring r
  let a := (g.sqBase.toNat / 4096) * 4096 + 64 * g.sqHead
  if !s.hostOk a 64 then s.ringError r 2
  else
    let now := s.hif.timer
    let us := (now - tget now g.cover g.sqHead) / 1000
    let c : Cmd := { seq := s.qm.nextSeq, ring := r, ctx := x, part := p, desc := descOfBytes (s.hostRead a 64), stamp := now, qos := g.qos,
                     pEpoch := (s.part p).epoch }
    let s := s.modCtx x (fun k => { k with lastRing := r, waits := lmod k.waits (waitBucket us) (fun n => satN 32 (n + 1)) })
    let s := s.modRing r (fun g => { g with sqHead := (g.sqHead + 1) % g.sqSize, inflight := g.inflight + 1, cover := tdel g.cover g.sqHead })
    let s := s.addCmd c
    match s.validate c with
    | .error st => (if st = stUncorrectable then s.paramMet c else s).complete c st 0 0 false false
    | .ok block => if c.pEpoch = 0 then s.complete c stUnitFault 0 0 false false else s.accept c block

/-- DESCRIPTOR_FETCH of partition p. `stores` are host writes made before it. -/
def descriptorFetch (stores : List Host.Cell) (p : Nat) (s : State) : State :=
  let s := s.hostStores stores
  if !s.fetches p then s
  else
    let s := s.candRefresh p
    match s.pickCtx p with
    | none => s
    | some x => match s.pickRing x with
      | none => s
      | some r => (s.fetchFrom p x r).candRefresh p

def execDescriptorFetch (stores : List Host.Cell) (part : BitVec 4) (s : State) : Outcome :=
  .next (descriptorFetch stores part.toNat s)

end Sys2Proof.Machine
end

