-- ==== Sys2Proof/Machine/Memory.lean ====
section
/-!
DEFINITION. Memory events, repair, margining, the host region and host CXL.mem accesses (13_memory_system.md and the
HDM rules of 02_host_attachment.md).
-/

namespace Sys2Proof.Machine

/-! ### Links and channels (R393) -/

/-- Delay of cause 0x7 for the commands a memory event holds up, as (command, ns). -/
def State.linkDelay (s : State) (l : List (Nat × Nat)) : State :=
  l.foldl (fun s d => s.modCmd d.1 (addDelay 7 d.2)) s

/-- LINK_REPLAY of a transfer on unit u: after 8 consecutive failed replays the link or channel retrains. -/
def linkReplay (u : Nat) (ok : Bool) (delay : List (Nat × Nat)) (s : State) : State :=
  let s := s.linkDelay delay
  let m := s.memUnit u
  if m.oos ∨ m.retrain then s
  else if ok then s.modUnit u (fun m => { m with replays := 0 })
  else if m.replays + 1 < 8 then s.modUnit u (fun m => { m with replays := m.replays + 1 })
  else (s.modUnit u (fun m => { m with replays := 0, retrain := true })).errLog u 2 0 0

def execLinkReplay (unit : Fin 20) (ok : Bool) (delay : List (Nat × Nat)) (s : State) : Outcome :=
  .next (linkReplay unit.val ok delay s)

/-- RETRAIN_DONE of unit u: a failed retrain takes a stack out of service, or fails the far-tier channel. -/
def retrainDone (u : Nat) (ok : Bool) (s : State) : State :=
  if !(s.memUnit u).retrain then s
  else
    let s := s.modUnit u (fun m => { m with retrain := false })
    if ok then s else if u < 12 then s.stackOut u 1 else s.channelFail u 0

def execRetrainDone (unit : Fin 20) (ok : Bool) (s : State) : Outcome := .next (retrainDone unit.val ok s)

/-- EVACUATION_DONE: blocks with lines that could not be read become missing (R394). -/
def evacuationDone (u : Nat) (lost : List Nat) (s : State) : State :=
  if (s.memUnit u).evac = none then s
  else lost.foldl (State.missBlock · false) (s.modUnit u (fun m => { m with evac := none }))

def execEvacuationDone (stack : Fin 12) (lost : List Nat) (s : State) : Outcome :=
  .next (evacuationDone stack.val lost s)

/-! ### Scrub (R399) -/

/-- The margin test under way on unit u pauses its scrub (R400). -/
def State.margining (s : State) (u : Nat) : Bool :=
  lget none s.mem.marginOn (if u < 12 then 0 else 1) == some (unitNum u)

/-- SCRUB_PATROL reads one usable line. -/
def scrubPatrol (a : Nat) (err : Sys2Proof.MemErr) (s : State) : State :=
  let line := a / 64 * 64
  let u := s.unitOfLine line
  if !flag (lget 0 s.mem.scrub (if u < 12 then 0 else 1)) 31 ∨ !s.usable line ∨ s.margining u then s
  else match err with
    | .none => if s.mem.bad.contains line then s.meetBad line else s
    | .corrected => s.meetCorrected line
    | .uncorrectable => s.meetBad line

def execScrubPatrol (line : Word64) (err : Sys2Proof.MemErr) (s : State) : Outcome :=
  .next (scrubPatrol line.toNat err s)

/-! ### Missing blocks (R396) -/

/-- The collection that holds block b; 1024 for none. -/
def State.collOfBlock (s : State) (b : Nat) : Nat :=
  ((s.colls.find? (fun c => c.2.data.runs.any (fun e => e.has b))).map Prod.fst).getD 1024

/-- BLOCK_REBUILD starts the next rebuild, in ascending collection number and block address. -/
def blockRebuild (s : State) : State :=
  let lt := fun (a b : Missing) => decide (s.collOfBlock a.block < s.collOfBlock b.block) ||
    (s.collOfBlock a.block == s.collOfBlock b.block && decide (a.block < b.block))
  match sortBy lt (s.mem.missing.filter s.canRebuild) with
  | [] => s
  | m :: _ =>
    let mark := fun (s : State) => { s with mem := { s.mem with missing := s.mem.missing.map (fun (x : Missing) => if x.block = m.block then { x with running := true } else x) } }
    if m.room then
      match s.reserve (tierOf m.block) 1 with
      | (some e, s) => mark { s with mem := { s.mem with taken := s.mem.taken ++ [(m.block, e.first)] } }
      | (none, s) => s
    else mark s

def execBlockRebuild (s : State) : Outcome := .next (blockRebuild s)

/-- The block returns to service with every line written. -/
def State.blockBack (s : State) (b : Nat) : State :=
  { s with mem := { s.mem with
      missing := s.mem.missing.filter (fun m => m.block != b),
      bad := s.mem.bad.filter (fun l => l / blockBytes != b), told := s.mem.told.filter (fun l => l / blockBytes != b) } }

/-- BLOCK_REBUILD_DONE: the rebuild that has run longest completes. -/
def blockRebuildDone (s : State) : State :=
  match s.mem.missing.find? (fun m => m.running) with
  | some m => s.blockBack m.block
  | none => s

def execBlockRebuildDone (s : State) : Outcome := .next (blockRebuildDone s)

/-- LINE_INITIALISATION completes after COLD (R401): every usable line reads as written or zero. -/
def lineInitialisation (s : State) : State := { s with mem := { s.mem with initing := false } }

def execLineInitialisation (s : State) : Outcome := .next (lineInitialisation s)

/-! ### Control registers of the tiers -/

/-- STK_REPAIR_CTL or FAR_REPAIR_CTL (R397). -/
def repairCtl (far : Bool) (v : Word32) (s : State) : State :=
  let u := if far then 12 + fld v 8 5 else fld v 0 4
  let ch := if far then 0 else fld v 8 5
  if s.hif.inReset.isSome then s
  else if fld v 16 16 ≠ 0x7C2E then s.hifErr 2
  else if !flag v 15 ∨ 20 ≤ u ∨ (!far ∧ 12 ≤ u) then s
  else s.modUnit u (fun m => { m with retest := m.retest ||| 2 ^ ch })

def execRepairCtlRetest (far : Bool) (value : Word32) (s : State) : Outcome := .next (repairCtl far value s)

/-- Signed OFFSET of a margin control word. -/
def marginOffset (v : Word32) : Int := let o := fld v 14 8; if o < 128 then o else (o : Int) - 256

/-- A BULK task is in flight (Table 13.2). -/
def State.bulkBusy (s : State) : Bool :=
  !s.jrn.recov.isEmpty || s.jrn.maint.active || s.jrn.xfer.state == 1 || s.mem.missing.any (fun m => m.running) ||
  (List.range 20).any (fun u => (s.memUnit u).evac.isSome)

/-- Why a margin test is refused (R400). -/
def State.marginRefused (s : State) (far : Bool) (v : Word32) : Bool :=
  let t := fld v 24 4
  let u := if far then 12 + t else t
  let lim : Int := if fld v 22 2 < 2 then 32 else 40
  flag s.hif.control 0 || !s.qm.cmds.isEmpty || s.bulkBusy || decide (lim < marginOffset v ∨ marginOffset v < -lim) ||
  decide (20 ≤ u ∨ (!far ∧ 12 ≤ u)) || (s.memUnit u).oos || (far && (s.memUnit u).active == 0)

/-- A write of STK_MARGIN_CTL or FAR_MARGIN_CTL (R400): its RW fields are stored; GO while a test runs starts no other (log entry
90). -/
def marginTest (far : Bool) (v : Word32) (s : State) : State :=
  let i := if far then 1 else 0
  let old := lget 0 s.mem.margin i
  let kept := (v &&& 0x0FFFC000) ||| (old &&& 0x70000000)
  let put := fun (s : State) (w : Word32) => { s with mem := { s.mem with margin := lmod s.mem.margin i (fun _ => w) } }
  if s.hif.inReset.isSome then s
  else if !flag v 31 ∨ flag old 30 then put s kept
  else if s.marginRefused far v then put s (setFld kept 28 2 3)
  else { put s (setFld (kept ||| 0x40000000) 28 2 0) with
         mem := { (put s (setFld (kept ||| 0x40000000) 28 2 0)).mem with marginOn := lmod s.mem.marginOn i (fun _ => some (fld v 24 4)) } }

def execMarginTest (far : Bool) (value : Word32) (s : State) : Outcome := .next (marginTest far value s)

/-- MARGIN_TEST_DONE with the lines transferred and those in error. -/
def marginTestDone (far : Bool) (lines errors : Nat) (s : State) : State :=
  let i := if far then 1 else 0
  let c := lget 0 s.mem.margin i
  if !flag c 30 then s
  else
    let w := setFld (setFld c 30 1 0) 28 2 (if errors = 0 then 1 else 2)
    { s with mem := { s.mem with margin := lmod s.mem.margin i (fun _ => w), marginOn := lmod s.mem.marginOn i (fun _ => none),
                                 marginRes := lmod s.mem.marginRes i (fun _ => (lines, errors)) } }

def execMarginTestDone (far : Bool) (lines errors : Word32) (s : State) : Outcome :=
  .next (marginTestDone far lines.toNat errors.toNat s)

/-- The largest UNITS a write to FAR_HOST would be granted (R375). -/
def State.farHostMax (s : State) : Nat :=
  let held := (s.usedRuns ++ s.takenRuns).filter (fun e => decide (farFirstBlock ≤ e.first ∧ 0 < e.count))
  held.foldl (fun n e => min n ((e.first - farFirstBlock) / 128)) s.farUnits

/-- A write of FAR_HOST (R375): it takes effect only while QM_ENABLE = 0. -/
def farHostWrite (v : Word32) (s : State) : State :=
  let n := fld v 0 16
  let s1 := { s with mem := { s.mem with farRefused := s.mem.farRefused && !flag v 31 } }
  if s.hif.inReset.isSome then s
  else if flag s.hif.control 0 then s1
  else if s.farHostMax < n then { s1 with mem := { s1.mem with farRefused := true } }
  else { s1 with mem := { s1.mem with farHost := n } }

def execFarHostWrite (value : Word32) (s : State) : Outcome := .next (farHostWrite value s)

/-! ### HDM decoders, bias and host CXL.mem (R49 to R53, R70, R396, R398) -/

/-- Device physical start of decoder i: the skips and sizes of the decoders below it, as they stand. CXL 2.0 commits in
ascending order, so every decoder below a committed one is committed too; where an uncommit breaks that order, the
spec gives no start and the model still counts every lower decoder (log entry 124). -/
def decoderStart (ds : List Decoder) (i : Nat) : Nat := sumN ((ds.take i).map (fun d => d.skip + d.size))

/-- The device physical address a host address decodes to (R49). -/
def hdmDecode (ds : List Decoder) (a : Nat) : Option Nat :=
  (ds.foldl (fun (acc : Nat × Option Nat) d =>
    let base := acc.1 + d.skip
    (base + d.size, if acc.2.isNone ∧ d.committed ∧ d.base ≤ a ∧ a < d.base + d.size then some (base + (a - d.base)) else acc.2))
    (0, none)).2

/-- Why decoder i does not commit (R49, Table 2.5): a span past DVSEC Range 2, alignment other than 256 MiB, interleaving,
or, as CXL 2.0 has it (log entry 124), a decoder below it that is not committed or reaches past its base. -/
def State.commitBad (s : State) (i : Nat) : Bool :=
  let d := lget {} s.hif.decoders i
  decide (s.dpaEnd < decoderStart s.hif.decoders i + d.skip + d.size ∨ d.base % 2 ^ 28 ≠ 0 ∨ d.size % 2 ^ 28 ≠ 0 ∨
          d.ways ≠ 0) ||
  (s.hif.decoders.take i).any (fun x => !x.committed || decide (d.base < x.base + x.size))

/-- Change one decoder. -/
def State.modDecoder (s : State) (i : Nat) (f : Decoder → Decoder) : State :=
  { s with hif := { s.hif with decoders := lmod s.hif.decoders i f } }

/-- Commit decoder i as programmed, or report Commit Error; a lock asked for takes hold at the commit. -/
def State.hdmCommit (s : State) (i : Nat) : State :=
  let bad := s.commitBad i
  s.modDecoder i (fun d => { d with committed := !bad, locked := d.lockOn && !bad, error := bad })

/-- DECODER_COMMIT: decoder i is programmed and committed (R49). A locked decoder stays as it is. -/
def decoderCommit (i base size skip ways : Nat) (lock : Bool) (s : State) : State :=
  if (lget {} s.hif.decoders i).locked ∨ s.hif.inReset.isSome then s
  else (s.modDecoder i (fun d => { d with base := base, size := size, skip := skip, ways := ways, lockOn := lock })).hdmCommit i

def execDecoderCommit (index : Fin 4) (base size skip : Word64) (ctl : DecoderCtl) (s : State) : Outcome :=
  .next (decoderCommit index.val base.toNat size.toNat skip.toNat ctl.ways.toNat ctl.lock s)

/-- Offset in BAR0 of the HDM decoder capability: CXL 2.0 puts it where a capability pointer says, which the spec does not
give (log entry 39). -/
def hdmBase : Nat := 0xC1000 + 16 * (Config.hdmPointer % 0xF7)

/-- Word k of decoder d: base low and high, size low and high, control, skip low and high (log entry 39). -/
def Decoder.reg (d : Decoder) (k : Nat) : Nat :=
  match k with
  | 0 => d.base % 2 ^ 32
  | 1 => d.base / 2 ^ 32 % 2 ^ 32
  | 2 => d.size % 2 ^ 32
  | 3 => d.size / 2 ^ 32 % 2 ^ 32
  | 4 => d.gran % 16 + 16 * (d.ways % 16) + 256 * bit d.lockOn + 512 * bit (d.committed || d.error) + 1024 * bit d.committed +
         2048 * bit d.error
  | 5 => d.skip % 2 ^ 32
  | 6 => d.skip / 2 ^ 32 % 2 ^ 32
  | _ => 0

/-- A word of the HDM decoder capability: 4 decoders of one target each, the global control, then each decoder's words. -/
def State.hdmReg (s : State) (o : Nat) : Nat :=
  if o = 0 then 0x12 else if o = 4 then s.hif.hdmGlobal
  else if o < 0x10 ∨ 0x90 ≤ o then 0
  else (lget {} s.hif.decoders ((o - 0x10) / 0x20)).reg ((o - 0x10) % 0x20 / 4)

/-- A number of two 32-bit halves with one half replaced, its 28 low bits clear. -/
def putHalf (old : Nat) (high : Bool) (v : Nat) : Nat :=
  if high then old % 2 ^ 32 + 2 ^ 32 * v else old / 2 ^ 32 * 2 ^ 32 + v / 2 ^ 28 * 2 ^ 28

/-- A write of a word of the HDM decoder capability: a locked decoder keeps its words, a committed one all but its
control, and a commit bit that rises commits (R49). -/
def hdmWrite (o : Nat) (v : Word32) (s : State) : State :=
  let i := (o - 0x10) / 0x20
  let d := lget {} s.hif.decoders i
  let n := v.toNat
  if o = 4 then { s with hif := { s.hif with hdmGlobal := n % 4 } }
  else if o < 0x10 ∨ 0x90 ≤ o ∨ d.locked then s
  else match (o - 0x10) % 0x20 / 4 with
    | 4 =>
      let s1 := s.modDecoder i (fun d => { d with gran := fld v 0 4, ways := fld v 4 4, lockOn := flag v 8 })
      if !flag v 9 then s1.modDecoder i (fun d => { d with committed := false, error := false })
      else if d.committed then s else s1.hdmCommit i
    | k =>
      if d.committed then s
      else s.modDecoder i (fun d => match k with
        | 0 => { d with base := putHalf d.base false n }
        | 1 => { d with base := putHalf d.base true n }
        | 2 => { d with size := putHalf d.size false n }
        | 3 => { d with size := putHalf d.size true n }
        | 5 => { d with skip := putHalf d.skip false n }
        | 6 => { d with skip := putHalf d.skip true n }
        | _ => d)

/-- No host CXL.mem service: during COLD, WARM and CXL_RESET, before memory is active, or on a link trained with CXL.io
only (Table 2.18, R40, R70). -/
def State.cxlMemOff (s : State) : Bool :=
  !s.hif.memActive || !s.hif.link.cacheMem || (match s.hif.inReset with | some .cold | some .warm | some .cxl => true | _ => false)

/-- All-ones data. -/
def allOnes : BitVec 512 := BitVec.allOnes 512

/-- HOST_MEM_READ of the line at host address a. -/
def hostMemRead (a : Nat) (err : Sys2Proof.MemErr) (s : State) : State :=
  let answer := fun (s : State) (d : BitVec 512) => { s with hif := { s.hif with rline := some d } }
  if s.cxlMemOff then answer s allOnes
  else match hdmDecode s.hif.decoders (a / 64 * 64) with
    | none => answer (s.hifErr 3) allOnes
    | some d =>
      if !s.usable d then answer (s.hifErr 3) allOnes
      else if s.lineGone d then answer s allOnes
      else if s.mem.bad.contains d ∨ err = .uncorrectable then answer (s.meetBad d) allOnes
      else
        let v := BitVec.ofNat 512 (bytesNat (s.devRead d 64))
        answer (if err = .corrected then s.meetCorrected d else s) v

def execHostMemRead (addr : Word64) (err : Sys2Proof.MemErr) (s : State) : Outcome :=
  .next (hostMemRead addr.toNat err s)

/-- The line with the bytes of a write merged in. -/
def mergeLine (old : List Byte) (data : BitVec 512) (mask : Nat) : List Byte :=
  (List.range 64).map (fun i => if bitsOf mask i 1 = 1 then BitVec.ofNat 8 (bitsOf data.toNat (8 * i) 8) else old.getD i 0)

/-- A host write of a line of a missing block with no source: the block returns once every line is written (R396). -/
def State.hostRefill (s : State) (d : Nat) : State :=
  let b := d / blockBytes
  let add := fun (m : Missing) => if m.block = b ∧ !m.written.contains d then { m with written := m.written ++ [d] } else m
  let s := { s with mem := { s.mem with missing := s.mem.missing.map add } }
  if s.mem.missing.any (fun m => m.block == b && m.written.length == blockBytes / 64) then s.blockBack b else s

/-- HOST_MEM_WRITE of a line (R52, R53, R375, R396, R398). -/
def hostMemWrite (a : Nat) (data : BitVec 512) (mask : Nat) (s : State) : State :=
  if s.cxlMemOff then s
  else match hdmDecode s.hif.decoders (a / 64 * 64) with
    | none => s.hifErr 3
    | some d =>
      if !s.usable d then s.hifErr 3
      else if !s.inHostRegion d 64 then s.hifErr 4
      else
        let full := mask % 2 ^ 64 == 2 ^ 64 - 1
        let put := fun (s : State) =>
          let s := { s with mem := { s.mem with dev := memWrite s.mem.dev d (mergeLine (memBytes s.mem.dev d 64) data mask) } }
          if full then s.lineWritten d else s
        match s.mem.missing.find? (fun m => m.block == d / blockBytes) with
        | none => put s
        | some m => if m.source ∨ !full then s else (put s).hostRefill d

def execHostMemWrite (addr : Word64) (data : BitVec 512) (mask : Word64) (s : State) : Outcome :=
  .next (hostMemWrite addr.toNat data mask.toNat s)

/-- A block that may not be flipped to host bias: any but the host region's (R52, R375). -/
def State.blockProtected (s : State) (b : Nat) : Bool := !s.inHostRegion (b * blockBytes) blockBytes

/-- A write of HIF_BIAS_CTL (R51, R52). -/
def biasFlip (v : Word32) (s : State) : State :=
  let b := fld v 0 22
  let host := flag v 30
  let s1 := { s with hif := { s.hif with biasCtl := v &&& 0x403FFFFF } }
  if s.hif.inReset.isSome then s
  else if !flag v 31 then s1
  else if s.hif.biasFlip.isSome then s.hifErr 5
  else if s.dpaEnd ≤ b * blockBytes then s1.hifErr 3
  else if host && s.blockProtected b then s1.hifErr 6
  else { s1 with hif := { s1.hif with biasFlip := some (b, host) } }

def execBiasFlip (value : Word32) (s : State) : Outcome := .next (biasFlip value s)

/-- BIAS_FLIP_DONE: the block takes its new bias. -/
def biasFlipDone (s : State) : State :=
  match s.hif.biasFlip with
  | none => s
  | some (b, host) =>
    let l := s.hif.hostBias.filter (· != b)
    { s with hif := { s.hif with biasFlip := none, hostBias := if host then insertBy (fun x y => decide (x < y)) b l else l } }

def execBiasFlipDone (s : State) : Outcome := .next (biasFlipDone s)

end Sys2Proof.Machine
end

