-- ==== Sys2Proof/Machine/Reset.lean ====
section
/-!
DEFINITION. Reset levels (Table 2.18), power input, hold-up, standby, clock, link and configuration space
(02_host_attachment.md, 18_module_electrical.md). What a start does after a reset stands in Start.lean.
-/

namespace Sys2Proof.Machine

/-! ### Firmware at a start (R480 to R483) -/

/-- A bank is valid for a component (R480). -/
def bankValid (revoked : Nat) (c : Comp) (b : Bank) : Bool :=
  b.sound && decide (b.root < 4) && bitsOf revoked b.root 1 == 0 && decide (c.minSvn ≤ b.svn)

/-- The active, the other and the running bank. -/
def Comp.active (c : Comp) : Bank := if c.activeB then c.b else c.a
def Comp.other (c : Comp) : Bank := if c.activeB then c.a else c.b
def Comp.run (c : Comp) : Bank := if c.runB then c.b else c.a

/-- Verify the active bank and load it, or the other bank, or neither (R481). A staged bank that is fallen back to runs, so it
awaits no activation. -/
def Comp.boot (revoked : Nat) (c : Comp) : Comp :=
  if bankValid revoked c c.active then { c with runB := c.activeB, fallback := false, failed := false }
  else if bankValid revoked c c.other then { c with runB := !c.activeB, fallback := true, failed := false, staged := false, activate := false }
  else { c with failed := true }

/-- Activation at COLD or WARM of a component staged in the bank it does not run from (R483). -/
def Comp.switch (c : Comp) : Comp :=
  if c.staged && c.activate then { c with activeB := !c.runB, staged := false, activate := false } else c

/-- A component at COLD or WARM: the ROM verifies PRIMROSE when standby power is applied, so here it boots again only where it
switches banks (R481, R483). -/
def Comp.bootDeep (revoked : Nat) (primrose : Bool) (c : Comp) : Comp :=
  if primrose && !(c.staged && c.activate) then c else c.switch.boot revoked

/-- SECURE_BOOT_VERIFY at COLD and WARM. -/
def Sec.boot (x : Sec) : Sec :=
  x.noted { x with comps := x.comps.zipIdx.map (fun p => p.1.bootDeep x.revoked (decide (p.2 = 0))), conns := [0, 0, 0], sessions := [], delayed := [], ide := 0, ideSet := [0, 0, 0], ideHold := false }

/-! ### What a level leaves of each block -/

/-- Rank of a level, highest first (R71). -/
def levelRank : ResetLevel → Nat
  | .cold => 0 | .warm => 1 | .cxl => 2 | .flr => 3 | .device => 4

/-- Every frame still held persists before a reset other than a power loss (R277, R282). -/
def Jrn.persistAll (j : Jrn) : Jrn :=
  let fs := j.frames.map (fun f => { f with place := .nand, persisted := true })
  { j with frames := fs, h := maxL (j.h :: fs.map (fun f => f.first + f.count - 1)) }

/-- The frames at a loss of input: all with HOLDUP_READY = 1 (`up`); else those programmed or persisted and, while the bank
still holds a flush (`drain`), those of the drain of R283. H is then the last frame programmed or persisted (R282, R283). -/
def Jrn.atLoss (j : Jrn) (up drain : Bool) : Jrn :=
  let keep := fun (f : Frame) => up || f.persisted || decide (f.place = .nand) ||
    (drain && decide (f.first + f.count - 1 ≤ j.flushTo))
  let fs := (j.frames.filter keep).map (fun f => if f.place = .nand then { f with persisted := true } else f)
  { j with frames := fs, h := maxL (j.h :: (fs.filter Frame.persisted).map (fun f => f.first + f.count - 1)) }

/-- The journal registers and transient state after a level (R312, R314, R447). -/
def Jrn.afterReset (j : Jrn) : Jrn :=
  { j with ready := false, lp := 0, lastUse := 0, ctl := 100, locks := [], peak := 0, collSel := 0, snapSel := 0,
           twin := j.twin &&& 0xC0000001, latched := [], xfer := {}, maint := { j.maint with cmd := none, resumed := false } }

/-- A memory unit after a level: counters cleared; at COLD and WARM failed stacks are tried again, at COLD a channel
whose map-out record was cleared is trained again (R397, R401, R403). -/
def MemUnit.afterReset (lv : ResetLevel) (farU : Bool) (m : MemUnit) : MemUnit :=
  let m := { m with ce := 0, replays := 0, retrain := false, evac := none, rows := [], rowsFrom := 0 }
  if lv = .cold then
    let back := m.retest &&& m.out
    let n := ((List.range 17).filter (fun c => bitsOf back c 1 == 1)).length
    let m := { m with active := m.active ||| back, out := m.out - back, retest := 0, units := if farU then 0 else m.units + 12 * n }
    { m with oos := !farU && decide (((List.range 17).filter (fun c => bitsOf m.active c 1 == 1)).length < 8) }
  else if lv = .warm then
    { m with oos := !farU && decide (((List.range 17).filter (fun c => bitsOf m.active c 1 == 1)).length < 8) }
  else m

/-- The memory system after a level; `clear` says contents are lost or zeroed. -/
def Mem.afterReset (lv : ResetLevel) (clear : Bool) (m : Mem) : Mem :=
  { m with units := tmap (fun u x => x.afterReset lv (decide (12 ≤ u))) m.units, errs := [{}, {}],
           scrub := [0x80000018, 0x80000018], margin := [0, 0], marginOn := [none, none], marginRes := [(0, 0), (0, 0)], farRefused := false,
           randLines := 0, wcb := [], streams := [], dev := if clear then [] else m.dev, bad := if clear then [] else m.bad,
           told := if clear ∨ lv = .warm then [] else m.told, missing := if clear then [] else m.missing,
           taken := if clear then [] else m.taken, initing := decide (lv = .cold) }

/-- A collection after a level (Table 10.8); none means FREE. One whose SANITISE or FORMAT was cut short reads FREE after the
loss of the stacks until the operation resumes (R133, R311); a COMPACT or TRAIN whose image is committed stays EXCLUSIVE
until the start completes it (R301). -/
def collAfter (imgs : List (Nat × Image)) (clear : Bool) (n : Nat) (k : Coll) : Option Coll :=
  let img : Image := tget {} imgs n
  let has := imgs.any (fun i => i.1 == n)
  let wait : Option Coll := if has then some { recovering := true, owner := img.owner, data := { cfg := img.data.cfg } } else none
  if k.recovering then wait
  else match k.state with
    | .free => none
    | .building => if clear then none else some { k with state := .failed, busyOp := 0, data := { cfg := k.data.cfg }, phys := {} }
    | .failed => if clear then none else some { k with drift := k.drift.afterReset }
    | .ready => if clear then wait else some { k with drift := k.drift.afterReset }
    | .exclusive =>
      if k.busyOp = opCompact ∨ k.busyOp = opTrain then
        (if clear then wait
         else if img.pub.isSome then some { k with drift := k.drift.afterReset }
         else some { k with state := .ready, busyOp := 0, drift := k.drift.afterReset })
      else if k.busyOp = opRestore then wait
      else if clear then none else some { k with drift := k.drift.afterReset }

/-- The host interface after a level (Table 2.18). The device cache holds lines of completion records, which host memory
holds as well (R42), so its write-back changes no byte. -/
def Hif.afterReset (lv : ResetLevel) (memClr : Bool) (h : Hif) : Hif :=
  let deep := decide (lv = .cold ∨ lv = .warm)
  let base : Hif := { inReset := some lv, lastReset := levelRank lv, memClr := memClr }
  { base with
    timer := if lv = .cold then 0 else h.timer, tod := if lv = .cold then 0 else h.tod,
    todStamp := if lv = .cold then 0 else h.todStamp, todSet := if lv = .cold then false else h.todSet,
    viral := if deep then false else h.viral,
    memActive := if deep ∨ lv = .cxl then false else h.memActive, hostBias := if deep ∨ lv = .cxl then [] else h.hostBias,
    cache := if lv = .flr then h.cache else [], dvsec := if deep then [] else h.dvsec,
    hdmGlobal := if deep then 0 else h.hdmGlobal, link := if deep then {} else h.link, cfgRetry := if lv = .device then h.cfgRetry else true,
    d3 := if deep ∨ lv = .flr then false else h.d3,
    cfg := if deep ∨ lv = .flr then [] else h.cfg, msixFuncMask := if deep ∨ lv = .flr then false else h.msixFuncMask,
    msix := if deep ∨ lv = .flr then [] else h.msix, msgs := h.msgs,
    decoders := if deep then List.replicate 4 {} else h.decoders, aer := if lv = .cold then [] else h.aer,
    selftestFail := if deep then false else h.selftestFail }

/-- Primrose's registers after a level; records, counters and lifetime values stay (R68, R452). -/
def Mgt.afterReset (m : Mgt) : Mgt :=
  { m with ctl := 1, evtStatus := 0, evtSel := 0, selGone := true, lifeSel := 0, cal := List.replicate 4 0 }

/-- The SEC registers after a level: staging in band ends and leaves its bank invalid. -/
def Sec.afterReset (x : Sec) : Sec :=
  { x with fwuAddr := 0, fwuLen := 0, fwuState := if x.fwuOob then x.fwuState else 0, fwuErr := 0,
           fwuMib := if x.fwuOob then x.fwuMib else 0, ideHold := false, held := [] }

/-- Apply a reset level (Table 2.18, R316, R344). `loss` says a power loss has dealt with the frames. PWR_STATUS.ALERT and
its fraction follow the VR_ALERT_N wire, which no level drives (R406), and TIMER_GAP stays while the reference clock is
absent (R66): log entry 123. -/
def State.applyReset (s : State) (lv : ResetLevel) (memClr loss : Bool) : State :=
  let clear := decide (lv = .cold) || (decide (lv = .cxl) && memClr)
  let j := (if loss then s.jrn else s.jrn.persistAll).afterReset
  let deep := decide (lv = .cold ∨ lv = .warm)
  let keepColl := fun (p : Nat × Coll) => (collAfter s.jrn.images clear p.1 p.2).map (fun k => (p.1, k))
  let cs := s.colls.filterMap keepColl
  let sec := s.sec.afterReset
  { s with
    hif := { s.hif.afterReset lv memClr with timerGap := !s.module.refclk }
    qm := {}
    sch := {}
    pwr := { ({} : Pwr) with alert := s.pwr.alert, alertFrac := s.pwr.alertFrac, ratings := s.pwr.ratings }
    thm := { ({} : Thm) with tripLast := s.thm.tripLast }
    mgt := s.mgt.afterReset
    tst := { ({} : Tst) with since := s.tst.since, units := s.tst.units }
    scan := { ({} : Scan) with slots := s.scan.slots, nextPass := s.scan.nextPass }
    colls := cs
    jrn := { j with recov := (cs.filter (fun c => c.2.recovering)).map Prod.fst }
    mem := s.mem.afterReset lv clear
    models := {}
    tiles := []
    sec := if deep then sec.boot else sec
    fmt := {} }

/-- A level arrives: one of equal or lower rank than the level in progress has no effect (R71). -/
def State.resetTo (s : State) (lv : ResetLevel) (memClr : Bool) : State :=
  match s.hif.inReset with
  | some r => if levelRank r ≤ levelRank lv then s else s.applyReset lv memClr false
  | none => s.applyReset lv memClr false

/-! ### Levels other than COLD (R59, R68) -/

/-- WARM: PERST_N asserted (`perst`), a hot reset, or link down; while a loss of input is handled it has no effect
(R503). -/
def warm (perst : Bool) (s : State) : State :=
  if !s.module.rails ∨ s.module.flushing then s
  else { (s.resetTo .warm false) with module := { s.module with perstN := s.module.perstN && !perst } }

def execWarm (perst : Bool) (s : State) : Outcome := .next (warm perst s)

/-- CXL_RESET, with Mem Clr or without. -/
def cxlReset (memClr : Bool) (s : State) : State :=
  if s.module.rails && s.hif.link.up then s.resetTo .cxl memClr else s

def execCxlReset (memClr : Bool) (s : State) : Outcome := .next (cxlReset memClr s)

/-- FLR. -/
def flr (s : State) : State := if s.module.rails && s.hif.link.up then s.resetTo .flr false else s

def execFlr (s : State) : Outcome := .next (flr s)

/-- DEVICE_RESET: the keyed write of HIF_RESET (R59, R70, R71). -/
def deviceReset (v : Word32) (s : State) : State :=
  if !flag v 0 then s
  else if fld v 16 16 = 0xA5C3 then (if s.module.rails then s.resetTo .device false else s)
  else if s.bar0Off then s else s.hifErr 2

def execDeviceReset (value : Word32) (s : State) : Outcome := .next (deviceReset value s)

/-! ### Sideband outputs (R494, R496); none is high-impedance, as without standby power -/

/-- PWR_GOOD: released (high) while every rail is in regulation, low from the power-fail signal on (R504). -/
def State.pwrGood (s : State) : Option Bool := if s.module.standby then some (s.module.rails && !s.module.flushing) else none

/-- THERMTRIP_N: low while a thermal trip holds the latch (R501). -/
def State.thermTripN (s : State) : Option Bool := if s.module.standby then some (!decide (s.module.latch = .thermal)) else none

/-- Primrose's 7-bit SMBus address, from the straps sampled when standby power was applied (R496). -/
def State.smbusAddr (s : State) : Option Nat := if s.module.standby then some (0x58 + s.module.straps) else none

/-! ### Input power (R499 to R504) -/

/-- The bank holds the 4.46 J of a full flush (R283): ½ C (V² − 30²), C in µF, V in mV. -/
def bankFlushes (capUF mv : Nat) : Bool := decide (892 * 10 ^ 10 + 9 * 10 ^ 8 * capUF ≤ capUF * mv * mv)

/-- The module stops on a loss of its input, a trip or an open breaker (R282, R418, R504): fetching stops, the
write-combining buffer is written, and the journal flush runs if HOLDUP_READY = 1 or a drain of R283 is under way, else
unprogrammed frames are lost. POWER_LOSSES counts a flush, SHORT_LOSSES and the event's DETAIL0 a loss with HOLDUP_READY = 0 (R470). -/
def State.powerLoss (s : State) : State :=
  if !s.module.rails ∨ s.module.flushing then s
  else
    let full := s.module.holdupReady
    let drain := s.jrn.flush && bankFlushes s.module.capUF s.module.bankMV
    let up := full || drain
    let j := s.jrn.atLoss full drain
    let hAfter := if up then j.persistAll.h else j.h
    let e : Event := { seq := 0, stamp := 0, prSec := s.mgt.prSec, code := 0x0063, sev := 0, kind := 0, unit := 0, d0 := bit (!full), d1 := hAfter }
    let s := { s with jrn := { j with flush := up }, mgt := { s.mgt with pendingStart := s.mgt.pendingStart ++ [e] } }
    let s := (s.life 3 (bit up)).life 4 (bit (!full))
    let s := s.applyReset .cold false true
    { s with module := { s.module with flushing := true, holdupAtLoss := up } }

/-- INPUT_LOSS: the input stays below 43.0 V for 5 µs. -/
def inputLoss (s : State) : State :=
  let s := s.powerLoss
  { s with module := { s.module with inputValid := false } }

def execInputLoss (s : State) : Outcome := .next (inputLoss s)

/-- HOLDUP_FLUSH_DONE: staging and the buffer are in NAND (R282), and the rails go off. -/
def holdupFlushDone (s : State) : State :=
  if !s.module.flushing then s
  else
    let j := if s.module.holdupAtLoss then s.jrn.persistAll else s.jrn
    { s with jrn := { j with flush := false },
             module := { s.module with flushing := false, rails := false, holdupReady := false, bankMV := 0 } }

def execHoldupFlushDone (s : State) : Outcome := .next (holdupFlushDone s)

/-- INPUT_BREAKER_TRIP: handled as a loss, and the module is latched off (R499, R501). -/
def inputBreakerTrip (s : State) : State :=
  if !s.module.rails then s
  else
    let s := s.powerLoss
    { s with module := { s.module with latch := .breaker } }

def execInputBreakerTrip (s : State) : Outcome := .next (inputBreakerTrip s)

/-- LATCH_RELEASE: the input has stayed below 43.0 V for 100 ms (R501). -/
def latchRelease (s : State) : State :=
  if s.module.latch = .none ∨ s.module.rails then s
  else { s with module := { s.module with latch := .none, inputValid := false } }

def execLatchRelease (s : State) : Outcome := .next (latchRelease s)

/-- Records that wait for a start are written with STAMP 0 (R454). -/
def State.writePending (s : State) : State :=
  let s1 := s.mgt.pendingStart.foldl State.pushEvent s
  { s1 with mgt := { s1.mgt with pendingStart := [] } }

/-- COLD: a valid input with Primrose ready and no latch starts the power-up sequence (R499, R502). A rail that fails
turns all rails off and latches the module off. -/
def cold (railFail : Option Nat) (s : State) : State :=
  if s.module.rails ∨ !s.module.standby ∨ !s.module.primroseReady ∨ s.module.latch ≠ .none then s
  else match railFail with
    | some r => { s with module := { s.module with inputValid := true, latch := .rail, railFailed := some r } }
    | none =>
      let s := (s.applyReset .cold false true).life 2 1
      let m := { s.module with inputValid := true, rails := true, railFailed := none, tripped := false }
      ({ s with module := m, thm := { s.thm with tripLast := s.module.tripped } }).writePending

def execCold (railFail : Option (Fin 45)) (s : State) : Outcome := .next (cold (railFail.map Fin.val) s)

/-! ### Hold-up bank (R500) -/

/-- The bank holds 4.5 J: ½ C (V² − 30²), C in µF, V in mV. -/
def bankEnough (capUF mv : Nat) : Bool := decide (9 * 10 ^ 12 + 9 * 10 ^ 8 * capUF ≤ capUF * mv * mv)

/-- The bank's state changes: HOLDUP_READY follows R500, and losing it starts the drain of R283. -/
def State.bankNow (s : State) (capUF mv : Nat) : State :=
  let ok := bankEnough capUF mv && s.module.rails
  let lost := s.module.holdupReady && !ok
  { s with module := { s.module with capUF := capUF, bankMV := mv, holdupReady := ok },
           jrn := { s.jrn with flush := if lost then true else if ok then false else s.jrn.flush,
                               flushTo := if lost then maxL ((s.jrn.frames.filter (fun f =>
                                 decide (f.place = .staging ∨ f.place = .buffer))).map (fun f => f.first + f.count - 1)) else s.jrn.flushTo } }

/-- HOLDUP_CHARGED to a voltage. -/
def holdupCharged (mv : Nat) (s : State) : State :=
  if s.module.rails && !s.module.flushing then s.bankNow s.module.capUF mv else s

def execHoldupCharged (mv : Nat) (s : State) : Outcome := .next (holdupCharged mv s)

/-- HOLDUP_MEASURE at a COLD start and every 24 h of PR_SEC. -/
def holdupMeasure (capUF mv : Nat) (s : State) : State :=
  let due := decide (s.hif.inReset = some .cold ∨ s.module.lastMeasure + 86400 ≤ s.mgt.prSec)
  if s.module.rails && !s.module.flushing && due then
    let s := s.bankNow capUF mv
    { s with module := { s.module with lastMeasure := s.mgt.prSec } }
  else s

def execHoldupMeasure (capUF mv : Nat) (s : State) : Outcome := .next (holdupMeasure capUF mv s)

/-- HOLDUP_LOST: the bank's voltage has fallen so far that its energy is below 4.5 J. -/
def holdupLost (mv : Nat) (s : State) : State :=
  if s.module.holdupReady && !bankEnough s.module.capUF mv then s.bankNow s.module.capUF mv else s

def execHoldupLost (mv : Nat) (s : State) : Outcome := .next (holdupLost mv s)

/-! ### Standby, clock, PERST_N and link (R41, R66, R496 to R498, R503) -/

/-- STANDBY_POWER_ON: Primrose starts, samples the straps, verifies its bank and resumes PR_SEC as stored. -/
def standbyPowerOn (straps : Nat) (s : State) : State :=
  if s.module.standby then s
  else
    let cs := lmod s.sec.comps 0 (Comp.boot s.sec.revoked)
    let ok := !(lget {} cs 0).failed
    let x : Sec := { s.sec with
      comps := cs, conns := [0, 0, 0], sessions := [], delayed := [], reply := none,
      tokenSec := min s.sec.tokenSec s.mgt.prStored, aakBusy := decide (1024 ≤ s.sec.aakNext ∧ s.sec.dikNext < 65536) }
    { s with
      module := { s.module with standby := true, primroseReady := ok, strapPins := straps, straps := straps, eidSmbus := 0, eidI3c := 0, i3cAddr := none }
      mgt := { s.mgt with prSec := s.mgt.prStored }
      sec := s.sec.noted x }

def execStandbyPowerOn (straps : BitVec 3) (s : State) : Outcome := .next (standbyPowerOn straps.toNat s)

/-- STANDBY_POWER_LOSS: both sources are absent, so the 54 V input is down; the latch is released (R498, R501). -/
def standbyPowerLoss (s : State) : State :=
  if !s.module.standby ∨ s.module.rails then s
  else { s with
    module := { s.module with standby := false, primroseReady := false, latch := .none, inputValid := false }
    sec := { s.sec with conns := [0, 0, 0], sessions := [], delayed := [], reply := none, aakBusy := false,
                        fwuState := if s.sec.fwuState = 1 then 0 else s.sec.fwuState, fwuOob := false } }

def execStandbyPowerLoss (s : State) : Outcome := .next (standbyPowerLoss s)

/-- REFCLK_LOSS (R66). -/
def refclkLoss (s : State) : State :=
  { s with module := { s.module with refclk := false }, hif := { s.hif with timerGap := true } }

def execRefclkLoss (s : State) : Outcome := .next (refclkLoss s)

/-- REFCLK_RETURN (R66). -/
def refclkReturn (s : State) : State := { s with module := { s.module with refclk := true } }

def execRefclkReturn (s : State) : Outcome := .next (refclkReturn s)

/-- PERST_N_DEASSERT, or the end of a hot reset (R503). -/
def perstNDeassert (s : State) : State := { s with module := { s.module with perstN := true } }

def execPerstNDeassert (s : State) : Outcome := .next (perstNDeassert s)

/-- LINK_TRAINING_DONE at a rate, width and protocol set of Table 2.1 (R40, R41, R72). -/
def linkTrainingDone (rate width : Nat) (cacheMem : Bool) (s : State) : State :=
  if !s.module.rails ∨ !s.module.perstN ∨ !s.module.refclk ∨ !([32, 16, 8].contains rate && [16, 8, 4].contains width) then s
  else
    let l : Link := { up := true, rate := rate, width := width, cacheMem := cacheMem }
    let s := { s with hif := { s.hif with link := l, cfgRetry := false, memActive := s.hif.memActive && cacheMem } }
    if rate < 32 ∨ width < 16 then s.event 0x0002 2 11 0 (rate + 256 * width) 0 else s

def execLinkTrainingDone (rate width : Nat) (cacheMem : Bool) (s : State) : Outcome :=
  .next (linkTrainingDone rate width cacheMem s)

/-- The viral state begins (R73). -/
def State.enterViral (s : State) : State :=
  if s.hif.viral ∨ !s.module.rails then s
  else { s with hif := { s.hif with viral := true } }.event 0x0005 4 11 0 0 0

/-- VIRAL (R73). An uncorrectable CXL.cache or CXL.mem error that the device itself detects is logged in AER with a LINK_ERROR
record as well (Table 16.1); whether it is that, and its AER status, is a free value (log entry 141). -/
def viral (s : State) : State :=
  if s.hif.viral ∨ !s.module.rails then s
  else
    let f := s.free
    let e := f.1 % 2 ^ 32
    (if e = 0 then f.2 else { f.2 with hif := { f.2.hif with aer := f.2.hif.aer ++ [e] } }.event 0x0004 3 11 0 e 0).enterViral

def execViral (s : State) : Outcome := .next (viral s)

/-- POWER_STATE_CHANGE between D0 and D3hot (R74). -/
def powerStateChange (d3 : Bool) (s : State) : State :=
  if s.hif.link.up then { s with hif := { s.hif with d3 := d3 } } else s

def execPowerStateChange (d3 : Bool) (s : State) : Outcome := .next (powerStateChange d3 s)

/-- HIF_TOD_COMMIT (R67, R470, R471). -/
def hifTodCommit (v : Word64) (s : State) : State :=
  if s.bar0Off then s
  else
    let s := { s with hif := { s.hif with tod := v, todStamp := BitVec.ofNat 64 s.hif.timer, todSet := true } }
    let s := if lget 0 s.mgt.life 17 = 0 then { s with mgt := { s.mgt with life := lmod s.mgt.life 17 (fun _ => v.toNat) } } else s
    s.calUpdate

def execHifTodCommit (value : Word64) (s : State) : Outcome := .next (hifTodCommit value s)

/-! ### Temperatures (R415 to R418) -/

/-- A hub or base-die sensor at 110 °C or a stack DRAM sensor at 115 °C. -/
def tripTemp (hub base dram : List Int) : Option Int :=
  match (hub ++ base).find? (fun t => decide (440 ≤ t)) with
  | some t => some t
  | none => dram.find? (fun t => decide (460 ≤ t))

/-- A temperature record raises vector 0 only under PWR_CTL.THR_EVT (R451). -/
def State.thmFlag (s : State) (b : Nat) : State :=
  let s := { s with thm := { s.thm with status := s.thm.status ||| BitVec.ofNat 32 (2 ^ b) } }
  if pwrThrEvt s.pwr.ctl then s.event 0x0060 0 0 0 b 0 else s

/-- The largest of a list of temperatures. -/
def maxT (l : List Int) : Int := match l with | [] => 0 | x :: t => t.foldl max x

/-- Thermal cycles: 40 °C above the last minimum, which then resets (Table 16.11). -/
def State.cycles (s : State) : State :=
  let h := maxT s.thm.hub
  let d := maxT s.thm.dram
  let hMin := min s.mgt.hubMin h
  let dMin := min s.mgt.stkMin d
  let hUp := decide (hMin + 160 ≤ h)
  let dUp := decide (dMin + 160 ≤ d)
  let s := { s with mgt := { s.mgt with hubMin := if hUp then h else hMin, stkMin := if dUp then d else dMin } }
  (s.life 5 (bit hUp)).life 6 (bit dUp)

/-- THERMAL_REPORT of every sensor. -/
def thermalReport (hub base dram far : List Int) (nand inlet : Int) (s : State) : State :=
  if !s.module.rails ∨ s.module.flushing then s
  else
    let hub := padTo 0 16 hub
    let base := padTo 0 12 base
    let dram := padTo 0 12 dram
    let ht : Int := 4 * (thmHubThrot s.thm.ctl : Int)
    let st : Int := 4 * (thmStkThrot s.thm.ctl : Int)
    let was3 := s.reasonActive 3
    let was4 := s.reasonActive 4
    let crit := dram.any (fun t => decide (420 < t))
    let hf := hub.map (fun t => heatFrac (t - ht))
    let sf := base.map (fun t => heatFrac (t - ht))
    let df := dram.map (fun t => if 420 < t then 224 else heatFrac (t - st))
    let wasCrit := s.thm.dram.any (fun t => decide (420 < t))
    let thm1 := { s.thm with hub := hub, base := base, dram := dram, far := padTo 0 8 far, nand := nand, inlet := inlet }
    let thm2 := { thm1 with hubMax := List.zipWith max s.thm.hubMax hub, dramMax := List.zipWith max s.thm.dramMax dram }
    let s := ({ s with thm := { thm2 with hubFrac := hf, stkFrac := sf, dramHot := df } } : State).boostDrop
    let s := if s.reasonActive 3 && !was3 then s.thmFlag 0 else s
    let s := if s.reasonActive 4 && !was4 then s.thmFlag 1 else s
    let s := if crit && !wasCrit then s.thmFlag 2 else s
    let s := s.cycles
    match tripTemp hub base dram with
    | none => s
    | some t =>
      let e : Event := { seq := 0, stamp := 0, prSec := s.mgt.prSec, code := 0x0062, sev := 4, kind := 0, unit := 0, d0 := BitVec.toNat (BitVec.ofInt 32 t), d1 := 0 }
      let s := { s with mgt := { s.mgt with pendingStart := s.mgt.pendingStart ++ [e] } }
      let s := (s.life 7 1).powerLoss
      { s with module := { s.module with latch := .thermal, tripped := true }, sec := { s.sec with sessions := [] } }

def execThermalReport (hub base dram far : List Int) (nand inlet : Int) (s : State) : Outcome :=
  .next (thermalReport hub base dram far nand inlet s)

/-! ### Configuration space (R39, R44, R45, R48, R72) -/

/-- Keys of the configuration registers that hold written values; those of the DVSECs are 16 and above. -/
def cfgKey : Sys2Proof.CfgReg → Nat
  | .command => 0
  | .bar n => 1 + n.val
  | .msixControl => 8
  | .deviceControl => 9
  | .cxlControl => 16
  | .cxlControl2 => 17
  | .cxlLock => 18
  | .rangeBaseHigh n => 20 + n.val
  | .rangeBaseLow n => 22 + n.val
  | _ => 31

/-- Bytes of DVSEC range n (R48): the stacks, and the far tier as built. -/
def State.rangeBytes (s : State) (n : Nat) : Nat := if n = 0 then farBase else 8 * s.farStep * 2 ^ 28

/-- PCIe code of a link rate. -/
def rateCode (r : Nat) : Nat := if r = 32 then 5 else if r = 16 then 4 else 3

/-- AER's uncorrectable status: every error logged and not cleared. -/
def Hif.aerBits (h : Hif) : Nat := h.aer.foldl (· ||| ·) 0

/-- The value a configuration read answers, laid out as PCIe and CXL 2.0 lay these registers out (log entry 31). Table 2.1
fixes: payload of at most 256 bytes, function level reset, 10-bit tags, 32 GT/s by 16 lanes with no ASPM, No_Soft_Reset,
two HDM ranges, CXL Reset with Mem Clr and a timeout of 100 s, viral, and a device cache of 1 MiB. -/
def State.cfgValue (s : State) (r : Sys2Proof.CfgReg) : Word32 :=
  let w := BitVec.ofNat 32 (tget 0 s.hif.cfg (cfgKey r))
  let dw := BitVec.ofNat 32 (tget 0 s.hif.dvsec (cfgKey r))
  match r with
  | .deviceVendor => 0x50161F3C
  | .revisionClass => 0x120000A1
  | .subsystem => if s.module.farVariant4 then 0x16041F3C else 0x16021F3C
  | .command => w
  | .bar n =>
    match n.val with
    | 0 => (w &&& 0xFFE00000) ||| 4
    | 2 => (w &&& 0xFF000000) ||| 4
    | 1 | 3 => w
    | _ => 0
  | .msixControl => BitVec.ofNat 32 (2047 + 16384 * bit s.hif.msixFuncMask + 32768 * (tget 0 s.hif.cfg 8 % 2))
  | .deviceCap => 0x10008001
  | .deviceControl => BitVec.ofNat 32 (tget 0x2810 s.hif.cfg 9)
  | .deviceCap2 => 0x30000
  | .linkCap => 0x105
  | .linkStatus => BitVec.ofNat 32 (65536 * (rateCode s.hif.link.rate + 16 * s.hif.link.width))
  | .powerControl => if s.hif.d3 then 0xB else 0x8
  | .aerUncorrectable => BitVec.ofNat 32 s.hif.aerBits
  | .cxlCapability => 0x4CAF0000
  | .cxlControl => (dw ||| 2) ||| (if s.hif.viral then 0x40000000 else 0)
  | .cxlControl2 => dw ||| (if s.hif.lastReset = 2 ∧ s.hif.inReset = none then 0x20000 else 0)
  | .cxlLock => dw ||| 0x01020000
  | .rangeSizeHigh n => BitVec.ofNat 32 (s.rangeBytes n.val / 2 ^ 32)
  | .rangeSizeLow _ => BitVec.ofNat 32 (0x4001 + 2 * bit s.hif.memActive)
  | .rangeBaseHigh _ => dw
  | .rangeBaseLow _ => dw &&& 0xF0000000
  | .flexBusCapability => 0x00270007
  | .flexBusStatus => if s.hif.link.cacheMem then 0x270000 else 0x220000
  | .registerLocatorLow => 0x000C0100
  | .registerLocatorHigh => 0

/-- Unmasking the function sends one message for each pending vector that is not itself masked (R55). -/
def State.funcUnmask (s : State) : State :=
  let due := (s.hif.msix.filter (fun e => e.2.pend && !e.2.mask)).map Prod.fst
  due.foldl (fun s v =>
    let e : MsixEntry := tget {} s.hif.msix v
    ({ s with hif := { s.hif with msix := tset s.hif.msix v { e with pend := false } } }).msixSend v) s

/-- The CDAT: one DSMAS entry for each DVSEC range (R39), as (range, device physical base, bytes). -/
def State.cdatEntries (s : State) : List (Nat × Nat × Nat) := [(0, 0, s.rangeBytes 0), (1, farBase, s.rangeBytes 1)]

/-- Store the value of a configuration register. -/
def State.cfgPut (s : State) (r : Sys2Proof.CfgReg) (v : Word32) : State :=
  { s with hif := { s.hif with cfg := tset s.hif.cfg (cfgKey r) v.toNat } }

/-- Store the value of a DVSEC control register, unless the DVSEC is locked. -/
def State.dvsecPut (s : State) (r : Sys2Proof.CfgReg) (v : Word32) : State :=
  if tget 0 s.hif.dvsec 18 % 2 = 1 then s
  else { s with hif := { s.hif with dvsec := tset s.hif.dvsec (cfgKey r) v.toNat } }

/-- A configuration write. Initiate Function Level Reset, Initiate CXL Reset with Mem Clr, and the power state act as
FLR, CXL_RESET and POWER_STATE_CHANGE do. -/
def cfgWrite (r : Sys2Proof.CfgReg) (v : Word32) (s : State) : State :=
  match r with
  | .command => s.cfgPut r (v &&& 0x7FF)
  | .bar n => if n.val < 4 then s.cfgPut r v else s
  | .msixControl =>
    let s1 := { s with hif := { s.hif with msixFuncMask := flag v 14, cfg := tset s.hif.cfg 8 (fld v 15 1) } }
    if flag v 14 then s1 else s1.funcUnmask
  | .deviceControl =>
    let s1 := s.cfgPut r (v &&& 0x7FFF)
    if flag v 15 then flr s1 else s1
  | .powerControl => if fld v 0 2 = 3 then powerStateChange true s else if fld v 0 2 = 0 then powerStateChange false s else s
  | .aerUncorrectable => { s with hif := { s.hif with aer := (s.hif.aer.map (fun a => (w1c (BitVec.ofNat 32 a) v (-1)).toNat)).filter (· != 0) } }
  | .cxlControl => s.dvsecPut r (v &&& 0x4FFD)
  | .cxlControl2 =>
    let s1 := s.dvsecPut r (v &&& 9)
    if flag v 2 then cxlReset (flag v 3) s1 else s1
  | .cxlLock => s.dvsecPut r (v &&& 1)
  | .rangeBaseHigh _ => s.dvsecPut r v
  | .rangeBaseLow _ => s.dvsecPut r (v &&& 0xF0000000)
  | _ => s

/-- CONFIG_REQUEST: retry status (no value) until the function answers (R72). -/
def configRequest (req : Sys2Proof.CfgReq) (s : State) : State :=
  match req with
  | .read r => { s with hif := { s.hif with cfgRead := if s.hif.cfgRetry then none else some (s.cfgValue r) } }
  | .write r v => if s.hif.cfgRetry then s else cfgWrite r v s
  | .cdat => if s.hif.cfgRetry then s else { s with hif := { s.hif with cdat := s.cdatEntries } }

def execConfigRequest (req : Sys2Proof.CfgReq) (s : State) : Outcome := .next (configRequest req s)

end Sys2Proof.Machine
end

