-- ==== Sys2Proof/Machine/Twins.lean ====
section
/-!
DEFINITION. The state digest and resync transfers between journal stores, and QUERY_PROGRESS (15_twins_fleet.md, R102,
R467).
-/

namespace Sys2Proof

/-- The body of a snapshot transfer image, and what an import reads in a body: its format is internal (R443; log entry
23). -/
opaque Config.snapBody : Machine.Image → List Byte
opaque Config.snapRead : List Byte → Option Machine.Image

end Sys2Proof

namespace Sys2Proof.Machine

/-! ### Digest (R436 to R439) -/

/-- K over the present configuration (R438). -/
def State.configDigest (s : State) : List Byte :=
  let ps := (allParts.filter (fun p => decide ((s.part p).state ≠ .off))).flatMap (fun p =>
    natBytes 1 p ++ natBytes 8 (s.part p).res.toNat ++ natBytes 4 (s.part p).mem.toNat)
  let ms := (s.models.slots.filter (fun m => decide (m.2.state = .ready))).flatMap (fun m =>
    natBytes 1 m.1 ++ natBytes 1 m.2.owner ++ natBytes 8 m.2.modelId ++ (m.2.hdr.drop 4).take 60)
  shake512 (ps ++ ms)

/-- The contributing collections. -/
def State.contributors (s : State) : List (Nat × Coll) :=
  s.colls.filter (fun c => decide (c.2.state = .ready ∨ c.2.state = .exclusive))

/-- M from contributions of number, epoch and chain value. -/
def State.moduleDigest (s : State) (cs : List (Nat × Nat × List Byte)) : List Byte :=
  shake512 (natBytes 1 0x4D ++ s.configDigest ++ cs.flatMap (fun c => natBytes 2 c.1 ++ natBytes 4 c.2.1 ++ padTo 0 64 c.2.2))

/-- A collection's contribution at an epoch: none when it has no such epoch, and none inside when it has lost the
checkpoint. -/
def Coll.checkAt (k : Coll) (epoch : Nat) : Option (Option Check) :=
  let e := min epoch k.data.epoch
  if e = 0 then none else some (k.checks.find? (fun c => c.epoch == e))

/-- DIGEST. -/
def digest (n : Nat) (s : State) : State :=
  match s.ready? n (· == opDigest) with
  | none => s
  | some c =>
    if s.qm.cmds.any (fun x => x.before c && x.ring == c.ring && isMutation (dOpcode x.desc)) then s
    else if !s.jrn.recov.isEmpty then s.refuse c stBusy
    else
      let cs := s.contributors
      let out := fun (bs : List Byte) (spec0 spec1 : Nat) =>
        match s.bufWrite (dDevAddr c.desc) (dfld c.desc 0x08 0 64) bs with
        | none => s.complete c stHostMemFault 0 0 false false
        | some s => s.complete c stOk spec0 spec1 true false
      if dSubop c.desc = 0 then
        out (s.moduleDigest (cs.map (fun k => (k.1, k.2.data.epoch, k.2.g)))) (maxL (cs.map (fun k => k.2.applied)))
          (maxL (cs.map (fun k => k.2.data.epoch)))
      else
        let e := dfld c.desc 0x10 0 32
        let ks := cs.filterMap (fun k => (k.2.checkAt e).map (fun x => (k.1, x)))
        if ks.any (fun k => k.2.isNone) then s.refuse c stNoObject
        else
          let us := ks.filterMap (fun k => k.2.map (fun x => (k.1, x)))
          out (s.moduleDigest (us.map (fun u => (u.1, u.2.epoch, u.2.g)))) (maxL (us.map (fun u => u.2.jseq))) e

def execDigest (cmd : Nat) (s : State) : Outcome := .next (digest cmd s)

/-! ### QUERY_PROGRESS (R102, R467) -/

/-- State and SPEC0 of the command with a tag on a ring pair. -/
def State.progressOf (s : State) (ring tag : Nat) : Nat × Nat :=
  match s.qm.cmds.find? (fun c => c.ring == ring && dTag c.desc == tag) with
  | some c => (if c.run = .waiting then 1 else 2, c.spec0)
  | none => match s.qm.done.find? (fun d => d.ring == ring && d.tag == tag) with
    | some d => (3, d.spec0)
    | none => (0, 0)

/-- QUERY_PROGRESS. -/
def queryProgress (n : Nat) (s : State) : State :=
  match s.ready? n (· == opProgress) with
  | none => s
  | some c =>
    if dSubop c.desc = 1 then s.complete c stOk s.jrn.h 0 false false
    else
      let r := (s.start n).progressOf (dfld c.desc 0x08 0 12) (dfld c.desc 0x0A 0 16)
      s.complete c stOk r.2 r.1 false false

def execQueryProgress (cmd : Nat) (s : State) : Outcome := .next (queryProgress cmd s)

/-! ### Transfer images (R443) -/

/-- Header of Table 15.3. -/
def xferHeader (kind coll total label epoch since til : Nat) (chain : List Byte) : List Byte :=
  natBytes 4 0x53575831 ++ natBytes 1 kind ++ natBytes 1 0 ++ natBytes 2 coll ++ natBytes 8 total ++ natBytes 8 label ++
  natBytes 4 epoch ++ natBytes 4 0 ++ natBytes 8 since ++ natBytes 8 til ++ natBytes 16 0 ++ padTo 0 64 chain ++ natBytes 128 0

/-- An image: header, body and CHECK. -/
def xferImage (kind coll label epoch since til : Nat) (chain body : List Byte) : List Byte :=
  let h := xferHeader kind coll (256 + body.length + 64) label epoch since til chain ++ body
  h ++ shake512 h

/-- The entry of one frame. -/
def frameEntry (f : Frame) : List Byte :=
  let n := f.bytes.length
  natBytes 1 f.op ++ natBytes 1 0 ++ natBytes 2 f.count ++ natBytes 4 n ++ natBytes 8 f.hseq ++ natBytes 48 0 ++
  padTo 0 (roundUp n 64) f.bytes

/-- Start a transfer with an image to write. -/
def Xfer.begins (x : Xfer) (bs : List Byte) (last : Nat) : Xfer :=
  { x with state := 1, image := bs, total := cdiv bs.length x.half, last := last }

/-- A transfer that fails. -/
def Xfer.fail (x : Xfer) (e : Nat) : Xfer := { x with state := 3, err := e, abort := false }

/-- EXPORT_SNAP at GO. -/
def State.exportSnap (s : State) (x : Xfer) : Xfer :=
  match s.jrn.snaps.find? (fun y => y.1 == s.jrn.snapSel) with
  | some (_, y) =>
    if y.session then x.fail 2
    else x.begins (xferImage 1 y.object y.label y.epoch y.image.hseq y.image.hseq y.image.g (Config.snapBody y.image)) 0
  | none => x.fail 2

/-- EXPORT_FRAMES at GO; RESTORE markers are no mutation and have no entry. -/
def State.exportFrames (s : State) (x : Xfer) : Xfer :=
  let o := fld x.ctl 0 10
  let k := s.coll o
  let i : Image := tget {} s.jrn.images o
  let since := x.start.toNat
  let til := if x.stop = 0 then k.hseq else x.stop.toNat
  if k.state ≠ .ready ∧ k.state ≠ .exclusive then x.fail 3
  else if (since < i.markHseq ∧ !s.jrn.retain) ∨ til ≤ since ∨ k.hseq < til then x.fail 4
  else
    let fs := s.jrn.frames.filter (fun f => f.coll == o && isMutation f.op && decide (since < f.hseq ∧ f.hseq ≤ til))
    let g := match fs.getLast? with | some f => f.chain | none => k.g
    let upTo := match fs.getLast? with | some f => f.hseq | none => til
    x.begins (xferImage 2 o 0 0 since upTo g (fs.flatMap frameEntry)) (maxL (fs.map Frame.last))

/-- A write of JRN_XFER_CTL (R441 to R444): GO while a transfer runs is discarded with ERR 1. -/
def xferCtl (v : Word32) (s : State) : State :=
  let x := s.jrn.xfer
  if s.hif.inReset.isSome then s
  else if flag v 31 ∧ x.state = 1 then { s with jrn := { s.jrn with xfer := { x with err := 1 } } }
  else
    let x := { x with ctl := v &&& 0x3FF003FF, abort := x.abort || (flag v 30 && x.state == 1) }
    if !flag v 31 then { s with jrn := { s.jrn with xfer := x } }
    else
      let x := { x with host := 0, dev := 0, total := 0, err := 0, state := 0, image := [], abort := false, last := 0, op := fld v 28 2,
                        base := x.addr.toNat, half := 2 ^ (19 + min 10 (fld v 20 4)), owner := fld v 24 4 }
      let x := match x.op with
        | 1 => s.exportSnap x
        | 2 => { x with state := 1 }
        | 3 => s.exportFrames x
        | _ => x
      { s with jrn := { s.jrn with xfer := x, lastUse := s.hif.timer, lp := if s.jrn.lp = 2 ∧ x.state = 1 then 3 else s.jrn.lp } }

def execExportSnap (value : Word32) (s : State) : Outcome := .next (xferCtl value s)
def execExportFrames (value : Word32) (s : State) : Outcome := .next (xferCtl value s)
def execImportSnap (value : Word32) (s : State) : Outcome := .next (xferCtl value s)
def execXferAbort (value : Word32) (s : State) : Outcome := .next (xferCtl value s)

/-- XFER_HOST_CHUNK: the host has filled or copied chunks and writes HOST. -/
def xferHost (v : Nat) (s : State) : State :=
  if s.hif.inReset.isSome then s else { s with jrn := { s.jrn with xfer := { s.jrn.xfer with host := v } } }

def execXferHostChunk (stores : List Host.Cell) (value : Word32) (s : State) : Outcome :=
  .next (xferHost value.toNat (s.hostStores stores))

/-- The import commits the snapshot its image holds (R441, R444). -/
def State.importCommit (s : State) (x : Xfer) : State :=
  let b := x.image
  let n := getLE b 8 8
  let set := fun (s : State) (x : Xfer) => { s with jrn := { s.jrn with xfer := x } }
  if shake512 (b.take (n - 64)) ≠ (b.drop (n - 64)).take 64 then set s (x.fail 5)
  else match Config.snapRead ((b.drop 256).take (n - 320)) with
    | none => set s (x.fail 5)
    | some i =>
      let img := { i with epoch := getLE b 0x18 4, hseq := getLE b 0x28 8, g := (b.drop 0x40).take 64, owner := x.owner }
      let y : Snapshot := { part := x.owner, object := getLE b 6 2, label := getLE b 0x10 8, epoch := getLE b 0x18 4, image := img }
      if s.jrn.readOnly then set s (x.fail 6)
      else match s.commitSnap y with
        | none => set s (x.fail 6)
        | some s => set s { x with state := 2, image := [] }

/-- One chunk of an import. -/
def State.importChunk (s : State) (x : Xfer) : State :=
  let set := fun (x : Xfer) => { s with jrn := { s.jrn with xfer := x, lastUse := s.hif.timer } }
  let a := x.base + (x.dev % 2) * x.half
  let head := if x.dev = 0 then s.hostRead a 256 else x.image.take 256
  let n := getLE head 8 8
  let len := min x.half (n - x.dev * x.half)
  if x.host ≤ x.dev then s
  else if !s.hostOk a (if x.dev = 0 then 256 else len) then set (x.fail 7)
  else if x.dev = 0 ∧ (getLE head 0 4 ≠ 0x53575831 ∨ getLE head 4 1 ≠ 1 ∨ n < 320 ∨ 1024 ≤ getLE head 6 2) then set (x.fail 5)
  else if !s.hostOk a len then set (x.fail 7)
  else
    let x := { x with image := x.image ++ s.hostRead a len, dev := x.dev + 1, total := cdiv n x.half }
    if x.dev = x.total then (set x).importCommit x else set x

/-- One chunk of an export, once every frame of its range has persisted. -/
def State.exportChunk (s : State) (x : Xfer) : State :=
  let a := x.base + (x.dev % 2) * x.half
  let bs := (x.image.drop (x.dev * x.half)).take x.half
  let set := fun (s : State) (x : Xfer) => { s with jrn := { s.jrn with xfer := x, lastUse := s.hif.timer } }
  if x.host + 2 ≤ x.dev ∨ s.jrn.h < x.last then s
  else if !s.hostOk a bs.length then set s (x.fail 7)
  else
    let x := { x with dev := x.dev + 1 }
    set (s.hostWrite a bs) (if x.dev = x.total then { x with state := 2, image := [] } else x)

/-- XFER_DEVICE_CHUNK: the device finishes its next chunk, or stops at it on an ABORT. -/
def xferDeviceChunk (s : State) : State :=
  let x := s.jrn.xfer
  if x.state ≠ 1 then s
  else if x.abort then { s with jrn := { s.jrn with xfer := x.fail 8 } }
  else if s.jrn.lp ≠ 0 then s
  else if x.op = 2 then s.importChunk x
  else s.exportChunk x

def execXferDeviceChunk (s : State) : Outcome := .next (xferDeviceChunk s)

end Sys2Proof.Machine
end

