-- ==== Sys2Proof/Machine/Security.lean ====
section
/-!
DEFINITION. Signatures and their accounting, SPDM, CXL IDE, firmware update and the sideband buses
(17_security_management.md). Numbers that SPDM and PLDM fix are PRESUMED (log entry 37).
-/

namespace Sys2Proof.Machine

/-! ### Transports (R484, R488) -/

/-- Primrose runs: on standby power with a valid PRIMROSE bank (R481, R488). -/
def State.primrose (s : State) : Bool := s.module.standby && s.module.primroseReady

/-- Transport t reaches Primrose: the DOE mailbox over the trained link, SMBus, or I3C once it has an address. -/
def State.reaches (s : State) (t : Nat) : Bool :=
  s.primrose && (if t = 0 then s.module.rails && s.hif.link.up && !s.hif.cfgRetry
                 else if t = 1 then true else s.module.i3cAddr.isSome)

/-- What Primrose answers. -/
def State.reply (s : State) (r : Reply) : State := { s with sec := { s.sec with reply := some r } }

/-- SPDM ERROR codes (DSP0274; log entry 37). -/
def spdmInvalid : Nat := 0x01
def spdmSession : Nat := 0x02
def spdmBusy : Nat := 0x03
def spdmUnexpected : Nat := 0x04
def spdmUnspecified : Nat := 0x05
def spdmDecrypt : Nat := 0x06
def spdmSessionLimit : Nat := 0x0A
def spdmNotReady : Nat := 0x42

/-- SPDM progress of transport t. -/
def State.conn (s : State) (t : Nat) : Nat := lget 0 s.sec.conns t

/-- A request on transport t that needs the given progress. -/
def State.spdm (s : State) (t need : Nat) (f : State → State) : State :=
  if !s.reaches t then s
  else if s.conn t < need then s.reply (.error spdmUnexpected)
  else f s

/-! ### Signatures (R475 to R478, R485) -/

/-- Use the next AAK index and a token; index 1,023 starts the generation of a new key while the DIK has an index
(R475 to R477). -/
def Sec.sign (x : Sec) : Sec :=
  x.noted { x with aakNext := x.aakNext + 1, tokens := x.tokens - 1,
                   aakBusy := decide (1024 ≤ x.aakNext + 1 ∧ x.dikNext < 65536) }

/-- The bank a component does not run from: the inactive bank of an update (R483). -/
def Comp.inactive (c : Comp) : Bank := if c.runB then c.a else c.b

/-- The blocks of Table 17.3. Block 5 lists the four running SVNs, then the four minimums; block 6 holds revocation,
FALLBACK and staged flags, one byte each, and a zero byte (log entry 38). -/
def State.measurement (s : State) (i : Nat) : List Byte :=
  let cs := s.sec.comps
  if i ≤ 4 then natBytes 48 (lget {} cs (i - 1)).run.image
  else if i = 5 then cs.flatMap (fun c => natBytes 1 c.run.svn) ++ cs.flatMap (fun c => natBytes 1 c.minSvn)
  else if i = 6 then
    natBytes 1 s.sec.revoked ++ natBytes 1 (maskOf (cs.map Comp.fallback)) ++ natBytes 1 (maskOf (cs.map Comp.staged)) ++ natBytes 1 0
  else if i = 7 then s.configDigest
  else cs.flatMap (fun c => natBytes 48 (if c.staged then c.inactive.image else 0))

/-- The response to a measurement request: 0 asks for the number of blocks, 0xFF for all, 1 to 8 for one. -/
def State.measured (s : State) (which : Nat) (sig : Option (Nat × Nat)) : Reply :=
  if which = 0 then .measurementCount 8 sig
  else if which = 0xFF then .measurements ((List.range 8).map (fun i => (i + 1, s.measurement (i + 1)))) sig
  else .measurements [(which, s.measurement which)] sig

/-- Form a signed response, which is released in this step. -/
def State.signed (s : State) (t : Nat) (a : Asked) : State :=
  let g := s.sec.aakGen
  let i := s.sec.aakNext
  let s1 := { s with sec := s.sec.sign }
  match a with
  | .challenge => s1.reply (.challengeAuth g i)
  | .measurements w => s1.reply (s.measured w (some (g, i)))
  | .keyExchange =>
    let n := s.sec.nextSession
    let ses : Session := { id := n, transport := t, up := false }
    { s1 with sec := { s1.sec with sessions := s1.sec.sessions ++ [ses], nextSession := n + 1 } }.reply (.keyExchange n g i)

/-- A signed request (R476 to R478): Unspecified when both keys are used up, ResponseNotReady while a key is being
generated, Busy on an empty bucket. -/
def State.signRequest (s : State) (t : Nat) (a : Asked) : State :=
  if s.sec.exhausted then s.reply (.error spdmUnspecified)
  else if s.sec.aakBusy then
    { s with sec := { s.sec with delayed := tset s.sec.delayed t a } }.reply (.error spdmNotReady)
  else if s.sec.tokens = 0 then s.reply (.error spdmBusy)
  else s.signed t a

/-- SIGN_TOKEN_REFILL: one token per 8 s of PR_SEC, at most 1,024 (R477). -/
def signTokenRefill (s : State) : State :=
  if s.module.standby && decide (s.sec.tokenSec + 8 ≤ s.mgt.prSec) then
    { s with sec := { s.sec with tokens := min 1024 (s.sec.tokens + 1), tokenSec := s.sec.tokenSec + 8 } }
  else s

def execSignTokenRefill (s : State) : Outcome := .next (signTokenRefill s)

/-- AAK_GENERATION_DONE: the new key takes one DIK index for its certificate (R476). -/
def aakGenerationDone (s : State) : State :=
  if s.primrose && s.sec.aakBusy then
    { s with sec := s.sec.noted { s.sec with aakBusy := false, aakNext := 0, aakGen := satN 16 (s.sec.aakGen + 1),
                                             dikNext := s.sec.dikNext + 1 } }
  else s

def execAakGenerationDone (s : State) : Outcome := .next (aakGenerationDone s)

/-! ### SPDM requests (R484, R485) -/

/-- GET_VERSION restarts the connection on its transport: versions 1.1 and 1.2. -/
def getVersion (t : Nat) (s : State) : State :=
  s.spdm t 0 (fun s =>
    { s with sec := { s.sec with conns := lmod s.sec.conns t (fun _ => 1), delayed := tdel s.sec.delayed t,
                                 sessions := s.sec.sessions.filter (fun x => x.transport != t) } }.reply (.version [0x11, 0x12]))

def execGetVersion (transport : Fin 3) (s : State) : Outcome := .next (getVersion transport.val s)

/-- GET_CAPABILITIES. -/
def getCapabilities (t : Nat) (s : State) : State :=
  s.spdm t 1 (fun s => { s with sec := { s.sec with conns := lmod s.sec.conns t (max 2) } }.reply .capabilities)

def execGetCapabilities (transport : Fin 3) (s : State) : Outcome := .next (getCapabilities transport.val s)

/-- NEGOTIATE_ALGORITHMS: `common` says that the requester offers the algorithms of Table 17.2. -/
def negotiateAlgorithms (t : Nat) (common : Bool) (s : State) : State :=
  s.spdm t 2 (fun s =>
    if common then { s with sec := { s.sec with conns := lmod s.sec.conns t (max 3) } }.reply .algorithms
    else s.reply (.error spdmInvalid))

def execNegotiateAlgorithms (transport : Fin 3) (common : Bool) (s : State) : Outcome :=
  .next (negotiateAlgorithms transport.val common s)

/-- GET_DIGESTS. -/
def getDigests (t : Nat) (s : State) : State := s.spdm t 3 (fun s => s.reply (.digests s.sec.aakGen))

def execGetDigests (transport : Fin 3) (s : State) : Outcome := .next (getDigests transport.val s)

/-- GET_CERTIFICATE of slot 0, the only one (R484). -/
def getCertificate (t slot : Nat) (s : State) : State :=
  s.spdm t 3 (fun s => s.reply (if slot = 0 then .certificate s.sec.aakGen else .error spdmInvalid))

def execGetCertificate (transport : Fin 3) (slot : BitVec 4) (s : State) : Outcome :=
  .next (getCertificate transport.val slot.toNat s)

/-- CHALLENGE of slot 0. -/
def challenge (t slot : Nat) (s : State) : State :=
  s.spdm t 3 (fun s => if slot = 0 then s.signRequest t .challenge else s.reply (.error spdmInvalid))

def execChallenge (transport : Fin 3) (slot : BitVec 4) (s : State) : Outcome := .next (challenge transport.val slot.toNat s)

/-- GET_MEASUREMENTS, signed when requested; unsigned ones are always answered (R478). -/
def getMeasurements (t which : Nat) (sig : Bool) (s : State) : State :=
  s.spdm t 3 (fun s =>
    if 8 < which ∧ which ≠ 0xFF then s.reply (.error spdmInvalid)
    else if sig then s.signRequest t (.measurements which)
    else s.reply (s.measured which none))

def execGetMeasurements (transport : Fin 3) (which : BitVec 8) (signed : Bool) (s : State) : Outcome :=
  .next (getMeasurements transport.val which.toNat signed s)

/-- KEY_EXCHANGE: at most four sessions over DOE and MCTP together (Table 17.2). -/
def keyExchange (t : Nat) (s : State) : State :=
  s.spdm t 3 (fun s => if 4 ≤ s.sec.sessions.length then s.reply (.error spdmSessionLimit) else s.signRequest t .keyExchange)

def execKeyExchange (transport : Fin 3) (s : State) : Outcome := .next (keyExchange transport.val s)

/-- A session of transport t, established or not as asked. -/
def State.session? (s : State) (t n : Nat) (up : Bool) : Bool :=
  s.sec.sessions.any (fun x => x.id == n && x.transport == t && x.up == up)

/-- Change one session. -/
def State.modSession (s : State) (n : Nat) (f : Session → Session) : State :=
  { s with sec := { s.sec with sessions := s.sec.sessions.map (fun x => if x.id = n then f x else x) } }

/-- End one session. -/
def State.dropSession (s : State) (n : Nat) : State :=
  { s with sec := { s.sec with sessions := s.sec.sessions.filter (fun x => x.id != n) } }

/-- A request of a session. -/
def State.inSession (s : State) (t n : Nat) (up : Bool) (f : State → State) : State :=
  s.spdm t 3 (fun s => if s.session? t n up then f s else s.reply (.error spdmSession))

/-- FINISH: establishes the session when its HMAC verifies, else ends it. -/
def finish (t n : Nat) (hmac : Bool) (s : State) : State :=
  s.inSession t n false (fun s =>
    if hmac then (s.modSession n (fun x => { x with up := true })).reply (.finish n)
    else (s.dropSession n).reply (.error spdmDecrypt))

def execFinish (transport : Fin 3) (session : Nat) (hmac : Bool) (s : State) : Outcome :=
  .next (finish transport.val session hmac s)

/-- KEY_UPDATE. -/
def keyUpdate (t n : Nat) (s : State) : State :=
  s.inSession t n true (fun s => (s.modSession n (fun x => { x with updates := x.updates + 1 })).reply (.keyUpdate n))

def execKeyUpdate (transport : Fin 3) (session : Nat) (s : State) : Outcome := .next (keyUpdate transport.val session s)

/-- HEARTBEAT. -/
def heartbeat (t n : Nat) (s : State) : State := s.inSession t n true (fun s => s.reply (.heartbeat n))

def execHeartbeat (transport : Fin 3) (session : Nat) (s : State) : Outcome := .next (heartbeat transport.val session s)

/-- END_SESSION. -/
def endSession (t n : Nat) (s : State) : State :=
  s.inSession t n true (fun s => (s.dropSession n).reply (.endSession n))

def execEndSession (transport : Fin 3) (session : Nat) (s : State) : Outcome := .next (endSession transport.val session s)

/-- RESPOND_IF_READY: the response delayed by ResponseNotReady, once the key is ready. -/
def respondIfReady (t : Nat) (s : State) : State :=
  s.spdm t 3 (fun s =>
    match s.sec.delayed.find? (fun d => d.1 == t) with
    | none => s.reply (.error spdmUnexpected)
    | some (_, a) => { s with sec := { s.sec with delayed := tdel s.sec.delayed t } }.signRequest t a)

def execRespondIfReady (transport : Fin 3) (s : State) : Outcome := .next (respondIfReady transport.val s)

/-! ### CXL IDE (R486, R487); streams: 0 link, 1 selective, 2 CXL.cache and CXL.mem -/

/-- State of stream i in SEC_IDE_STATUS: 0 off, 1 secure, 2 insecure. -/
def ideState (r : Word32) (i : Nat) : Nat := fld r (2 + 2 * i) 2

/-- The requests that were held go out, in order. -/
def State.releaseHeld (s : State) : State :=
  let hs := s.sec.held
  let s := { s with sec := { s.sec with ideHold := false, held := [] } }
  hs.foldl (fun s r => match r with
    | .write a bs => s.hostWrite a bs
    | .msg v => { s with hif := { s.hif with msgs := s.hif.msgs ++ [v] } }) s

/-- IDE_KEY_PROGRAM over an established session on DOE: the keys go into the stream's other key set and it switches to that
(R486); the stream is secure, and with no stream insecure the device's
requests go on. -/
def ideKeyProgram (n i : Nat) (skid : Bool) (s : State) : State :=
  if !(s.reaches 0 && s.session? 0 n true) then s
  else
    let r := setFld s.sec.ide (2 + 2 * i) 2 1
    let r := if i = 2 then setFld r 8 2 (if skid then 2 else 1) else r
    let s := { s with sec := { s.sec with ide := r, ideSet := lmod s.sec.ideSet i (1 - ·) } }
    if s.sec.ideHold && (List.range 3).all (fun k => ideState r k != 2) then s.releaseHeld else s

def execIdeKeyProgram (session : Nat) (stream : Fin 3) (skid : Bool) (s : State) : Outcome :=
  .next (ideKeyProgram session stream.val skid s)

/-- IDE_INTEGRITY_FAILURE of a secure stream; in skid mode a CXL.cache or CXL.mem failure is viral too (R73). -/
def ideIntegrityFailure (i : Nat) (aer : Word32) (s : State) : State :=
  if ideState s.sec.ide i ≠ 1 ∨ !s.module.rails then s
  else
    let s := { s with hif := { s.hif with aer := s.hif.aer ++ [aer.toNat] },
                      sec := { s.sec with ide := setFld s.sec.ide (2 + 2 * i) 2 2, ideHold := true } }
    let s := s.event 0x0004 3 11 0 aer.toNat 0
    if i = 2 ∧ fld s.sec.ide 8 2 = 2 then s.enterViral else s

def execIdeIntegrityFailure (stream : Fin 3) (aer : Word32) (s : State) : Outcome :=
  .next (ideIntegrityFailure stream.val aer s)

/-! ### Firmware update (R483, Table 17.8) -/

/-- PLDM completion codes (DSP0240, DSP0267; log entry 37). -/
def pldmOk : Nat := 0x00
def pldmAlready : Nat := 0x81
def pldmState : Nat := 0x84

/-- Change the bank a component does not run from. -/
def Comp.setInactive (c : Comp) (b : Bank) : Comp := if c.runB then { c with a := b } else { c with b := b }

/-- Staging starts: the inactive banks of the components it names are being written, so they hold no sound image. -/
def Sec.stage (x : Sec) (comps : Nat) (oob : Bool) (len : Nat) : Sec :=
  let wipe : Nat × Comp → Comp := fun p =>
    let c := p.2.setInactive { p.2.inactive with sound := false }
    if bitsOf comps p.1 1 = 1 then { c with staged := false, activate := false } else p.2
  x.noted { x with comps := ((List.range x.comps.length).zip x.comps).map wipe, fwuState := 1, fwuErr := 0, fwuMib := 0, fwuOob := oob,
                   fwuBase := x.fwuAddr.toNat / 4096 * 4096, fwuTotal := len }

/-- FWU_GO: a second update is refused with ERR 1. -/
def fwuGo (comps : Nat) (s : State) : State :=
  if s.bar0Off ∨ !s.primrose then s
  else if s.sec.fwuState = 1 then { s with sec := { s.sec with fwuErr := 1 } }
  else { s with sec := s.sec.stage comps false s.sec.fwuLen.toNat }

def execFwuGo (comps : BitVec 4) (s : State) : Outcome := .next (fwuGo comps.toNat s)

/-- FWU_ABORT: staging stops and the inactive bank stays invalid. -/
def fwuAbort (s : State) : State :=
  if s.bar0Off ∨ s.sec.fwuState ≠ 1 then s else { s with sec := { s.sec with fwuState := 3, fwuErr := 5, fwuOob := false } }

def execFwuAbort (s : State) : Outcome := .next (fwuAbort s)

/-- FWU_ACTIVATE: the staged components named become active at the next COLD or WARM; ERR 6 when one is not staged. -/
def fwuActivate (mask : Nat) (s : State) : State :=
  if s.bar0Off then s
  else
    let ask : Nat × Comp → Comp := fun p => if bitsOf mask p.1 1 = 1 ∧ p.2.staged then { p.2 with activate := true } else p.2
    let cs := (List.range s.sec.comps.length).zip s.sec.comps
    let bad := cs.any (fun p => bitsOf mask p.1 1 == 1 && !p.2.staged)
    { s with sec := { s.sec with comps := cs.map ask, fwuErr := if bad then 6 else s.sec.fwuErr } }

def execFwuActivate (comps : BitVec 4) (s : State) : Outcome := .next (fwuActivate comps.toNat s)

/-- One image is written to its inactive bank; a valid one is staged (R480). -/
def Sec.putImage (x : Sec) (im : Sys2Proof.FwImage) : Sec :=
  let b : Bank := { sound := im.sound, svn := im.svn.toNat, commit := im.commit, root := im.root.toNat, image := im.digest.toNat }
  x.noted { x with comps := lmod x.comps im.comp.val (fun c => { c.setInactive b with staged := bankValid x.revoked c b }) }

/-- FWU_STAGING_DONE with the package's images. -/
def fwuStagingDone (malformed : Bool) (images : List Sys2Proof.FwImage) (s : State) : State :=
  if s.sec.fwuState ≠ 1 ∨ !s.primrose then s
  else
    let err := fun (e : Nat) (x : Sec) => { x with fwuState := if e = 0 then 2 else 3, fwuErr := e, fwuOob := false, fwuMib := satN 16 (x.fwuTotal / 1048576) }
    if !s.sec.fwuOob && !s.hostOk s.sec.fwuBase s.sec.fwuTotal then { s with sec := err 4 s.sec }
    else if malformed then { s with sec := err 2 s.sec }
    else
      let x := images.foldl Sec.putImage s.sec
      let ok := images.all (fun im => (lget {} x.comps im.comp.val).staged)
      { s with sec := err (if ok then 0 else 3) x }

def execFwuStagingDone (malformed : Bool) (images : List Sys2Proof.FwImage) (s : State) : Outcome :=
  .next (fwuStagingDone malformed images s)

/-- MCTP binding of a PLDM request. -/
def State.pldm (s : State) (i3c : Bool) (f : State → State) : State := if s.reaches (1 + bit i3c) then f s else s

/-- PLDM_FIRMWARE_UPDATE: out of band, refused with ALREADY_IN_UPDATE_MODE while an update runs. -/
def pldmFirmwareUpdate (i3c : Bool) (comps len : Nat) (s : State) : State :=
  s.pldm i3c (fun s =>
    if s.sec.fwuState = 1 then s.reply (.pldm pldmAlready)
    else { s with sec := s.sec.stage comps true len }.reply (.pldm pldmOk))

def execPldmFirmwareUpdate (i3c : Bool) (comps : BitVec 4) (bytes : Word32) (s : State) : Outcome :=
  .next (pldmFirmwareUpdate i3c comps.toNat bytes.toNat s)

/-- ACTIVATE_FIRMWARE: every staged component. -/
def activateFirmware (i3c : Bool) (s : State) : State :=
  s.pldm i3c (fun s =>
    if s.sec.comps.any Comp.staged then
      { s with sec := { s.sec with comps := s.sec.comps.map (fun (c : Comp) => { c with activate := c.activate || c.staged }) } }.reply (.pldm pldmOk)
    else s.reply (.pldm pldmState))

def execActivateFirmware (i3c : Bool) (s : State) : Outcome := .next (activateFirmware i3c s)

/-! ### Sideband addresses (R488, R496) -/

/-- SET_ENDPOINT_ID on a binding; the null and the broadcast EID are no endpoint's. -/
def setEndpointId (i3c : Bool) (eid : Nat) (s : State) : State :=
  if !s.reaches (1 + bit i3c) ∨ eid = 0 ∨ eid = 0xFF then s
  else if i3c then { s with module := { s.module with eidI3c := eid } }
  else { s with module := { s.module with eidSmbus := eid } }

def execSetEndpointId (i3c : Bool) (eid : BitVec 8) (s : State) : Outcome := .next (setEndpointId i3c eid.toNat s)

/-- I3C_DYNAMIC_ADDRESS from the bus owner. -/
def i3cDynamicAddress (a : Nat) (s : State) : State :=
  if s.primrose then { s with module := { s.module with i3cAddr := some a } } else s

def execI3cDynamicAddress (addr : BitVec 7) (s : State) : Outcome := .next (i3cDynamicAddress addr.toNat s)

/-! ### SEC registers (Tables 17.7, 17.8) -/

/-- SEC_SVN. -/
def State.secSvn (s : State) : Nat :=
  bytesNat (s.sec.comps.map (fun c => BitVec.ofNat 8 c.run.svn)) + 2 ^ 32 * bytesNat (s.sec.comps.map (fun c => BitVec.ofNat 8 c.minSvn))

/-- SEC_SIG_DIK. -/
def State.secDik (s : State) : Nat := s.sec.dikNext + 2 ^ 32 * (65536 - s.sec.dikNext)

/-- SEC_SIG_AAK. -/
def State.secAak (s : State) : Nat := s.sec.aakNext + 2 ^ 16 * s.sec.tokens + 2 ^ 48 * s.sec.aakGen

/-- SEC_FWU_STATUS. -/
def State.fwuStatus (s : State) : Nat := s.sec.fwuState + 16 * s.sec.fwuErr + 65536 * s.sec.fwuMib

end Sys2Proof.Machine
end

