-- ==== Sys2Proof/Machine/RegRead.lean ====
section
/-!
DEFINITION. What every set-up register reads as (Tables 2.6 to 2.17, 3.1 to 3.11, 6.12 to 6.19, 8.12 to 8.16, 10.11 to
10.24, 12.1 to 12.4, 13.14, 13.15, 14.5 to 14.8, 15.6, 15.7, 16.13 to 16.15, 17.7, 17.8). Offsets are from BAR0
(Table 2.3); a write-only field reads 0 (R8).
-/

namespace Sys2Proof.Machine

/-- Index i with o = base + step × i, for i below n. -/
def regIdx (base step n o : Nat) : Option Nat :=
  if base ≤ o ∧ o < base + step * n ∧ (o - base) % step = 0 then some ((o - base) / step) else none

/-- Value v at bit lo of a register. -/
def at' (lo v : Nat) : Nat := v <<< lo

/-! ### Values that several blocks show -/

/-- Cluster or base die with no unit in SPARE. -/
def State.noSpare (s : State) : Bool :=
  (List.range 16).any (fun c => !(List.range 17).any (fun i => decide ((s.unit (17 * c + i)).state = .spare))) ||
  (List.range 12).any (fun d => !(List.range 18).any (fun e => decide ((s.unit (engineUnit d e)).state = .spare)))

/-- HIF_STATUS.DEGRADED (R459). -/
def State.degraded (s : State) : Bool :=
  decide (s.hif.link.rate < 32 ∨ s.hif.link.width < 16) || s.noSpare ||
  (List.range 12).any (fun d => let m := s.memUnit d
    m.oos || decide (m.out ≠ 0) || !(List.range 17).any (fun c => bitsOf (m.active ||| m.out ||| m.failed) c 1 == 0)) ||
  (List.range 8).any (fun c => (s.memUnit (12 + c)).active != 1) ||
  (List.range 16).any (fun c => decide ((s.unit (488 + c)).state = .failed))

/-- HIF_STATUS (Table 2.9). -/
def State.hifStatus (s : State) : Nat :=
  bit s.hif.ready + at' 1 (bit s.hif.memActive) + at' 2 (bit s.hif.selftestFail) + at' 3 (bit s.jrn.ready) +
  at' 4 (bit s.module.holdupReady) + at' 5 (bit s.degraded) + at' 6 (bit s.hif.viral) + at' 7 (bit s.hif.timerGap) +
  at' 8 s.hif.lastReset + at' 16 s.hif.bootStage

/-- Active far-tier channels. -/
def State.farActive (s : State) : Nat := maskOf ((List.range 8).map (fun c => (s.memUnit (12 + c)).active == 1))

/-- Bits set in a mask of n bits. -/
def popN (n v : Nat) : Nat := ((List.range n).filter (fun i => bitsOf v i 1 == 1)).length

/-- Code of a ring state (Table 3.9). -/
def ringCode : RingState → Nat
  | .free => 0 | .active => 1 | .draining => 2 | .error => 3

/-- Code of a partition state (Table 12.2). -/
def partCode : PartState → Nat
  | .off => 0 | .active => 1 | .pausing => 2 | .paused => 3 | .resetting => 4 | .draining => 5

/-- Code of a context state (Table 12.7). -/
def ctxCode : CtxState → Nat
  | .free => 0 | .active => 1 | .yielded => 2 | .saved => 3 | .borrowed => 4 | .tornDown => 5 | .pausing => 6

/-- Code of a unit state (Table 16.15). -/
def unitCode : UnitState → Nat
  | .active => 0 | .spare => 1 | .failed => 2

/-- A temperature in 12 bits (R415). -/
def temp12 (t : Int) : Nat := (t % 4096).toNat

/-- E(p, φ) in 0.1 W, rounded to nearest (log entry 40). -/
def State.estReg (s : State) (k : Nat) : Nat :=
  satN 16 ((f32Rat (s.est k).toNat * 10 + 1 / 2).floor.toNat)

/-- The pair PWR_PHASE_SEL selects. -/
def State.phaseKey (s : State) : Nat := 6 * fld s.pwr.phaseSel 0 4 + fld s.pwr.phaseSel 4 3

/-- Units that are tested and not FAILED. -/
def State.testedUnits (s : State) : List Nat := (List.range 504).filter (fun n => decide ((s.unit n).state ≠ .failed))

/-- TST_STATUS. -/
def State.tstStatus (s : State) : Nat :=
  (s.testedUnits.filter s.pastPeriod).length +
  at' 16 (satN 16 (maxL (s.testedUnits.map s.testAge)))

/-- MiB in use, rounded up. -/
def mib (n : Nat) : Nat := cdiv n (2 ^ 20)

/-- The catalog entry JRN_SNAP_SEL selects. -/
def State.snapNow (s : State) : Option Snapshot := (s.jrn.snaps.find? (fun x => x.1 == s.jrn.snapSel)).map Prod.snd

/-- The record MGT_EVT_SEL selects, as bytes; zero where it is not retained. -/
def State.eventNow (s : State) : List Byte :=
  match s.eventAt s.mgt.evtSel.toNat with
  | some e => eventBytes e
  | none => []

/-- An ERR_INFO register. -/
def errInfo (e : ErrReg) : Nat :=
  at' 31 (bit e.valid) + at' 30 (bit e.overflow) + at' 26 e.type + at' 22 e.unit + at' 17 e.channel

/-- A REPAIR register of unit u. -/
def State.repairReg (s : State) (u : Nat) : Nat :=
  let m := s.memUnit u
  let left := if u < 12 then minL (((List.range 17).filter (fun c => bitsOf m.active c 1 == 1)).map (m.l2At u)) else m.l2At u 0
  m.l1 + at' 16 m.l2 + at' 32 left + at' 48 m.retired

/-! ### 32-bit registers -/

/-- HIF and QM. -/
def State.reg32a (s : State) (o : Nat) : Nat :=
  let r := s.ring s.qm.ringSel
  match o with
  | 0x0000 => 0x0016A100 + (if s.module.farVariant4 then 4 else 2)
  | 0x0004 => s.tilesActive + at' 16 s.enginesActive + at' 24 (popN 8 s.farActive)
  | 0x0008 => s.hifStatus
  | 0x000C => s.hif.control.toNat
  | 0x0014 => s.hif.errStatus.toNat
  | 0x0018 => s.hif.errMask.toNat
  | 0x0040 => s.hif.biasCtl.toNat
  | 0x0044 => bit s.hif.biasFlip.isSome + at' 1 (bit (s.hif.hostBias.contains (fld s.hif.biasCtl 0 22)))
  | 0x0140 => s.farUnits
  | 0x10000 => s.qm.ringSel
  | 0x10018 => r.cfg.toNat
  | 0x1001C => r.irq.toNat
  | 0x10020 => r.qos.toNat
  | 0x10028 => ringCode r.state + at' 3 (bit r.refused) + at' 8 r.errCause
  | 0x1002C => r.inflight
  | 0x10030 => r.sqHead + at' 16 r.cqTail
  | _ => match regIdx 0x0100 4 12 o with
    | some n => s.stkUnits n
    | none => 0

/-- SCH. -/
def State.reg32b (s : State) (o : Nat) : Nat :=
  let q := s.part s.sch.partSel
  let k := s.ctx s.sch.ctxSel
  match o with
  | 0x20000 => s.sch.partSel
  | 0x20010 => q.cfg.toNat
  | 0x20014 => q.mem.toNat
  | 0x2001C => partCode q.state + at' 8 q.err + at' 16 (satN 8 q.old.length)
  | 0x20028 => q.epoch
  | 0x20060 => s.sch.wdog.toNat
  | 0x20100 => s.sch.ctxSel
  | 0x20104 => k.cfg.toNat
  | 0x2010C => ctxCode k.state + at' 8 k.err + at' 16 (satN 16 (s.heldCount s.sch.ctxSel))
  | _ => match regIdx 0x20040 4 6 o, regIdx 0x20080 4 12 o, regIdx 0x20140 4 16 o with
    | some n, _, _ => (lget {} q.bw n).reg.toNat
    | none, some n, _ => lget 0 s.scan.slots n
    | none, none, some b => lget 0 k.waits b
    | none, none, none => 0

/-- PWR and THM. -/
def State.reg32c (s : State) (o : Nat) : Nat :=
  match o with
  | 0x30000 => s.pwr.ctl.toNat
  | 0x30004 => s.pwr.cap.toNat
  | 0x30008 => let s := s.capRefresh; s.pwr.capDyn + at' 8 s.reasonBits + at' 16 (bit s.pwr.alert)
  | 0x3000C => s.pwr.input.toNat
  | 0x30010 => s.pwr.phaseSel.toNat
  | 0x30014 => s.estReg s.phaseKey
  | 0x30018 => s.pwr.ramp.toNat
  | 0x30388 => s.pwr.ringSel
  | 0x40000 => s.thm.ctl.toNat
  | 0x40004 => s.thm.status.toNat % 8 + at' 3 (bit s.thm.tripLast)
  | 0x401E0 => temp12 s.thm.nand + at' 16 (temp12 s.thm.inlet)
  | _ => match regIdx 0x30040 4 16 o, regIdx 0x31000 4 488 o, regIdx 0x40100 4 16 o, regIdx 0x401C0 4 8 o with
    | some p, _, _, _ => (s.mode p).toNat
    | none, some n, _, _ => let r := s.rating n; r.ceil + at' 10 r.age + at' 16 r.fused + at' 31 (bit r.worn)
    | none, none, some c, _ => temp12 (lget 0 s.thm.hub c) + at' 16 (temp12 (lget 0 s.thm.hubMax c))
    | none, none, none, some c => let t := lget 0 s.thm.far c; temp12 t + at' 12 (bit (decide (340 < t)))
    | none, none, none, none => 0

/-- STK and FAR. -/
def State.reg32d (s : State) (o : Nat) : Nat :=
  let d := (s.coll s.scan.satSel).drift
  match o with
  | 0x500A8 => errInfo (lget {} s.mem.errs 0)
  | 0x50200 => (lget 0 s.mem.scrub 0).toNat
  | 0x50208 => s.mem.wcb.length
  | 0x50210 => (lget 0 s.mem.margin 0).toNat
  | 0x58060 => s.scan.seCtl.toNat
  | 0x58064 => s.scan.satCtl.toNat
  | 0x58068 => s.scan.satSel
  | 0x5806C => satN 20 d.basePpm + at' 30 (bit d.frozen) + at' 31 (bit d.flag)
  | 0x60000 => s.farActive + at' 8 (popN 8 (maskOf ((List.range 8).map (fun c => decide ((s.memUnit (12 + c)).out ≠ 0)))))
  | 0x60004 => s.mem.farHost + at' 16 (satN 15 s.farHostMax) + at' 31 (bit s.mem.farRefused)
  | 0x600A8 => errInfo (lget {} s.mem.errs 1)
  | 0x60200 => (lget 0 s.mem.scrub 1).toNat
  | 0x60210 => (lget 0 s.mem.margin 1).toNat
  | _ => match regIdx 0x50000 4 12 o with
    | some u => let m := s.memUnit u; m.active + at' 17 (popN 17 m.out) + at' 31 (bit m.oos)
    | none => 0

/-- JRN, SEC, MGT, TST and FMT. -/
def State.reg32e (s : State) (o : Nat) : Nat :=
  match o with
  | 0x70000 => min 1024 s.jrn.recov.length + at' 20 (bit s.jrn.maint.active) + at' 21 (bit s.jrn.readOnly) + at' 24 s.jrn.lp
  | 0x70004 => s.jrn.ctl.toNat
  | 0x70018 => s.jrn.locks.length + at' 16 s.jrn.peak
  | 0x70048 => s.jrn.snapSel + at' 31 (bit s.snapNow.isSome)
  | 0x70070 => s.jrn.twin.toNat
  | 0x700C0 => s.jrn.xfer.ctl.toNat
  | 0x80000 => s.sec.status
  | 0x80028 => s.sec.fwuLen.toNat
  | 0x80030 => s.fwuStatus
  | 0x80034 => s.sec.ide.toNat
  | 0x90000 => s.mgt.ctl.toNat
  | 0x90004 => s.mgt.evtStatus.toNat
  | 0x90040 => s.mgt.prSec
  | 0x90044 => s.mgt.lifeSel
  | 0xA0000 => s.tst.ctl.toNat
  | 0xA0004 => s.tstStatus
  | 0xA0010 => s.tst.unitSel
  | 0xA0014 => let u := s.unit s.tst.unitSel
    unitCode u.state + at' 3 u.cause + at' 16 (satN 16 (s.testAge s.tst.unitSel))
  | 0xB0000 => s.fmt.ctl.toNat
  | 0xB0004 => satN 20 (sumN (s.models.slots.map (fun m => (m.2.marks.filter id).length)))
  | 0xB0008 => s.fmt.fbLast.toNat
  | _ => 0

/-! ### 64-bit registers: the value at the offset of the low half, none where no such register stands -/

/-- HIF, QM and SCH. -/
def State.reg64a (s : State) (o : Nat) : Option Nat :=
  let r := s.ring s.qm.ringSel
  let q := s.part s.sch.partSel
  let k := s.ctx s.sch.ctxSel
  match o with
  | 0x0020 => some s.hif.timer
  | 0x0028 => some s.hif.tod.toNat
  | 0x0030 => some s.hif.todStamp.toNat
  | 0x10008 => some r.sqBase.toNat
  | 0x10010 => some r.cqBase.toNat
  | 0x20008 => some q.res.toNat
  | 0x20020 => some q.placeAddr.toNat
  | 0x20110 => some k.engine
  | 0x20118 => some (k.yields + at' 32 k.saves)
  | 0x20120 => some k.borrow
  | _ => none

/-- PWR and THM. -/
def State.reg64b (s : State) (o : Nat) : Option Nat :=
  match o with
  | 0x30380 => some s.pwr.energyUn
  | 0x30390 => some (s.ring s.pwr.ringSel).energy
  | _ => match regIdx 0x30080 8 7 o, regIdx 0x30100 8 45 o, regIdx 0x30300 8 16 o, regIdx 0x40140 8 12 o with
    | some c, _, _, _ => some (lget 0 s.pwr.thrTime c)
    | none, some n, _, _ => let r := lget {} s.pwr.rails n; some (r.mv + at' 16 r.current + at' 32 (railLimit n))
    | none, none, some p, _ => some (tget 0 s.pwr.energyPart p)
    | none, none, none, some d =>
      some (temp12 (lget 0 s.thm.dram d) + at' 16 (temp12 (lget 0 s.thm.base d)) + at' 32 (temp12 (lget 0 s.thm.dramMax d)) +
        at' 44 (bit (decide (340 < lget 0 s.thm.dram d))) + at' 48 (s.stackHeat d))
    | none, none, none, none => none

/-- Failed engines, active engines and their count (Table 6.13). -/
def State.seMap (s : State) (d : Nat) : Nat :=
  let es := s.mappedEngines d
  maskOf ((List.range 18).map (fun e => es.contains e)) +
  at' 24 (maskOf ((List.range 18).map (fun e => decide ((s.unit (engineUnit d e)).state = .failed)))) + at' 48 es.length

/-- STK and FAR. -/
def State.reg64c (s : State) (o : Nat) : Option Nat :=
  let d := (s.coll s.scan.satSel).drift
  let res := fun i => let r := lget (0, 0) s.mem.marginRes i; some (r.2 + at' 32 r.1)
  match o with
  | 0x500A0 => some (lget {} s.mem.errs 0).addr
  | 0x50218 => res 0
  | 0x58070 => some d.elems
  | 0x58078 => some d.hits
  | 0x600A0 => some (lget {} s.mem.errs 1).addr
  | 0x60218 => res 1
  | 0x60220 => some s.mem.randLines
  | _ => match regIdx 0x50040 8 12 o, regIdx 0x500C0 8 12 o, regIdx 0x58000 8 12 o, regIdx 0x58100 8 24 o with
    | some u, _, _, _ => some (s.repairReg u)
    | none, some u, _, _ => some (s.memUnit u).ce
    | none, none, some d, _ => some (s.seMap d)
    | none, none, none, some k => some (if k % 2 = 0 then lget 0 s.scan.read (k / 2) else lget 0 s.scan.emit (k / 2))
    | none, none, none, none => match regIdx 0x60008 8 8 o, regIdx 0x600C0 8 8 o with
      | some c, _ => some (s.repairReg (12 + c))
      | none, some c => some (s.memUnit (12 + c)).ce
      | none, none => none

/-- JRN. -/
def State.reg64d (s : State) (o : Nat) : Option Nat :=
  let i : Image := tget {} s.jrn.images s.jrn.collSel
  let m := s.jrn.maint
  let x := s.jrn.xfer
  match o with
  | 0x70008 => some s.jrn.h
  | 0x70010 => some (s.jrn.freeBytes / 2 ^ 30 + at' 32 (mib (s.jrn.bytesAt .buffer)) + at' 48 (mib (s.jrn.bytesAt .staging)))
  | 0x70020 => some (m.target + at' 12 m.op + at' 16 m.done + at' 40 m.total)
  | 0x70030 => some (s.jrn.collSel + at' 32 i.epoch)
  | 0x70038 => some (s.collChain s.jrn.collSel).1
  | 0x70040 => some i.mark
  | 0x70050 => some ((s.snapNow.map Snapshot.label).getD 0)
  | 0x70058 => some (match s.snapNow with
    | some y => y.object + at' 27 (bit y.session) + at' 28 y.part + at' 32 y.epoch
    | none => 0)
  | 0x70060 => some (match s.snapNow with | some y => s.jrn.snapBytes s.jrn.snapSel y | none => 0)
  | 0x700C8 => some x.addr.toNat
  | 0x700D0 => some x.start.toNat
  | 0x700D8 => some x.stop.toNat
  | 0x700E0 => some (x.dev + at' 32 x.host)
  | 0x700E8 => some (x.state + at' 4 x.err + at' 32 x.total)
  | _ => match regIdx 0x70080 8 8 o with
    | some k => some (getLE s.jrn.latched (8 * k) 8)
    | none => none

/-- SEC, MGT, TST and FMT. -/
def State.reg64e (s : State) (o : Nat) : Option Nat :=
  match o with
  | 0x80008 => some s.secSvn
  | 0x80010 => some s.secDik
  | 0x80018 => some s.secAak
  | 0x80020 => some s.sec.fwuAddr.toNat
  | 0x90008 => some (match s.mgt.events.head? with | some e => e.seq | none => 0)
  | 0x90010 => some (s.mgt.nextEvt - 1)
  | 0x90018 => some s.mgt.evtSel.toNat
  | 0x90048 => some (lget 0 s.lifeRecords s.mgt.lifeSel)
  | 0xA0008 => some s.tst.passes
  | 0xA0018 => some (s.unit s.tst.unitSel).pass
  | 0xB0010 => some s.fmt.sat
  | 0xB0018 => some s.fmt.nan
  | _ => match regIdx 0x90020 8 4 o, regIdx 0x90060 8 4 o with
    | some i, _ => some (getLE s.eventNow (8 * i) 8)
    | none, some i => some (lget 0 s.mgt.cal i)
    | none, none => none

/-- The 64-bit register whose low half stands at offset o. -/
def State.reg64 (s : State) (o : Nat) : Option Nat :=
  match o / 65536 with
  | 0 | 1 | 2 => s.reg64a o
  | 3 | 4 => s.reg64b o
  | 5 | 6 => s.reg64c o
  | 7 => s.reg64d o
  | _ => s.reg64e o

/-- Low, high, mask and pending words of the MSI-X table and pending array (R54). -/
def State.msixWord (s : State) (o : Nat) : Nat :=
  let e : MsixEntry := tget {} s.hif.msix (o % 65536 / 16)
  match o % 16 / 4 with
  | 0 => e.addr.toNat % 2 ^ 32
  | 1 => e.addr.toNat / 2 ^ 32
  | 2 => e.data.toNat
  | _ => bit e.mask

/-- 32 pending bits. -/
def State.msixPend (s : State) (o : Nat) : Nat :=
  let first := o % 256 / 4 * 32
  maskOf ((List.range 32).map (fun i => let e : MsixEntry := tget {} s.hif.msix (first + i); e.pend))

/-- The 32-bit word at offset o that no 64-bit register covers; 0 where nothing stands (R46). -/
def State.reg32 (s : State) (o : Nat) : Nat :=
  match o / 65536 with
  | 0 | 1 => s.reg32a o
  | 2 => s.reg32b o
  | 3 | 4 => s.reg32c o
  | 5 | 6 => s.reg32d o
  | 7 | 8 | 9 | 10 | 11 => s.reg32e o
  | 12 => if hdmBase ≤ o ∧ o < hdmBase + 0x90 then s.hdmReg (o - hdmBase) else Config.componentReg (o % 65536) s.freeCtr % 2 ^ 32
  | 13 => if o % 65536 < 0x8000 then s.msixWord o else 0
  | 14 => if o % 65536 < 0x100 then s.msixPend o else 0
  | _ => 0

/-- One 32-bit read at an aligned offset: the value and whether the register there is the high half of a 64-bit one. -/
def State.word (s : State) (o : Nat) : Nat :=
  match s.reg64 o with
  | some v => v % 2 ^ 32
  | none => match (if o % 8 = 4 then s.reg64 (o - 4) else none) with
    | some v => v / 2 ^ 32 % 2 ^ 32
    | none => s.reg32 o

/-! ### Reads of the set-up registers and doorbell pages (R47, R64, R65, R86) -/

/-- What a host read returns. -/
def State.readData (s : State) (v : Nat) : State := { s with hif := { s.hif with rdata := BitVec.ofNat 64 v } }

/-- BAD_ACCESS: a size other than 4 or 8 bytes, or one not aligned to its size (R47). A regular access is none. -/
def badAccess (o size : Nat) (write : Bool) (s : State) : State :=
  if (size = 4 ∨ size = 8) ∧ o % size = 0 then s
  else
    let s := if s.bar0Off then s else s.hifErr 0
    if write then s else s.readData 0

def execBadAccess (offset : BitVec 21) (size : Nat) (write : Bool) (s : State) : Outcome :=
  .next (badAccess offset.toNat size write s)

/-- A read that a rule attaches an effect to: JRN_COLL_HSEQ latches G (R440). -/
def State.readEffect (s : State) (o : Nat) : State := if o = 0x70038 then s.latchChain.1 else s

/-- LOW_HALF_READ_LATCH: the high half goes to the single shadow, replacing what it held. An offset that is no low half
is read with no effect. While a level is in progress every read returns 0 (R70), but for HIF_STATUS. -/
def lowHalfReadLatch (o : Nat) (s : State) : State :=
  if o % 4 ≠ 0 then s
  else if s.bar0Off then s.readData (if o = 8 then s.hifStatus else 0)
  else match s.reg64 o with
    | some v => ({ s with hif := { s.hif with shadow := some (o, BitVec.ofNat 32 (v / 2 ^ 32)) } }.readEffect o).readData (v % 2 ^ 32)
    | none => s.readData (s.word o)

/-- A 64-bit read of BAR0 (R65): one consistent value, with the effect a rule attaches to it; no shadow changes. Over two
32-bit registers it reads both. -/
def pairRead (o : Nat) (s : State) : State :=
  if s.bar0Off then s.readData (if o = 8 then s.hifStatus else 0)
  else match s.reg64 o with
    | some v => (s.readEffect o).readData (v % 2 ^ 64)
    | none => s.readData (s.word o + 2 ^ 32 * s.word (o + 4))

/-- A 32-bit read of doorbell page p: 0x008 is HEADS, a copy of the pair's QM_RING_HEADS, and the rest reads 0 (R86). -/
def pageRead (p o : Nat) (s : State) : State :=
  let r := s.ring p
  s.readData (if o = 8 ∧ !s.bar0Off then r.sqHead + at' 16 r.cqTail else 0)

/-- A host read: one of the wrong alignment is a bad access (R47). -/
def hostReads (r : Sys2Proof.HostRead) (s : State) : State :=
  match r with
  | .word o => if o.toNat % 4 ≠ 0 then badAccess o.toNat 4 false s else lowHalfReadLatch o.toNat s
  | .pair o => if o.toNat % 8 ≠ 0 then badAccess o.toNat 8 false s else pairRead o.toNat s
  | .page p o => pageRead p.toNat o.toNat s

def execLowHalfReadLatch (read : Sys2Proof.HostRead) (s : State) : Outcome := .next (hostReads read s)

/-- HIGH_HALF_READ: a shadow of the same register is returned and consumed, else the current high half is. -/
def highHalfRead (o : Nat) (s : State) : State :=
  if o % 4 ≠ 0 then s
  else if s.bar0Off then s.readData (if o = 8 then s.hifStatus else 0)
  else if o % 8 = 4 ∧ (s.reg64 (o - 4)).isSome then
    match s.hif.shadow with
    | some (r, v) => if r = o - 4 then { s with hif := { s.hif with shadow := none } }.readData v.toNat else s.readData (s.word o)
    | none => s.readData (s.word o)
  else s.readData (s.word o)

def execHighHalfRead (offset : BitVec 21) (s : State) : Outcome := .next (highHalfRead offset.toNat s)

end Sys2Proof.Machine
end

