-- ==== Sys2Proof/Machine/Scan.lean ====
section
/-!
DEFINITION. Scan passes and their segments, candidate records, the running threshold, saturation counters, engine faults
(06_scan_engines.md, R152, R174, R189 to R201), and rows that tile programs present to Aster (07_topk_merge.md).
-/

namespace Sys2Proof.Machine

/-! ### What a segment reads -/

/-- A slot of a list or shard: its entry and, for a fresh one, its fresh index and primary list. -/
structure SlotRow where
  slot : Nat
  entry : Entry
  fresh : Bool := false
  index : Nat := 0
  list : Nat := 0
  deriving DecidableEq, Repr

/-- The slots of a list or shard at a version, in ascending slot order (R175; log entry 133). -/
def scannedSlots (d : CollData) : Scanned → List SlotRow
  | .list l => (d.lists.getD l {}).slots.zipIdx.map (fun e => { slot := e.2, entry := e.1 })
  | .shard h => sortBy (fun a b => decide (a.slot < b.slot)) ((d.fresh.filter (fun f => f.index % 12 == h)).map (fun f =>
      { slot := freshSlot d.cfg f.index, entry := f.entry, fresh := true, index := f.index, list := f.list }))

/-- One past the highest slot that a pass visits. -/
def scanSpan (d : CollData) (w : Scanned) : Nat := maxL ((scannedSlots d w).map (fun e => e.slot + 1))

/-- The stack whose coverage bit and threshold a list or shard belongs to. -/
def scanHome (d : CollData) : Scanned → Nat
  | .list l => (d.lists.getD l {}).stack
  | .shard h => h

/-- The list index that records and reports carry. -/
def scanList : Scanned → Nat
  | .list l => l
  | .shard _ => freshList

/-- The columns that a segment reads on a stack: the list's own, its replica's with the list's IDs, or the shard's. -/
def scanCols (d : CollData) (w : Scanned) (stack : Nat) : Cols :=
  match w with
  | .list l => let il := d.lists.getD l {}; if stack = il.stack then il.cols else { il.repCols with id := il.cols.id }
  | .shard h => d.freshCols.getD h {}

/-- The IDs of what is scanned lie in the far tier: those of a list with ID_IN_STACK = 0, never a shard's (R137, R138). -/
def idsFar (d : CollData) : Scanned → Bool
  | .list _ => !d.cfg.idInStack
  | .shard _ => false

/-- A slot of a segment is read: none of its lines lies above the usable top (R197). -/
def State.slotRead (s : State) (d : CollData) (a : Pass) (r : SlotRow) : Bool :=
  let gone := fun ln => !s.usable ln
  (slotBad gone gone d.cfg (scanCols d a.what a.stack) (!idsFar d a.what) false r.slot).isEmpty

/-- The slots of a segment from lo on and below hi. -/
def segSlots (d : CollData) (a : Pass) (lo hi : Nat) : List SlotRow :=
  (scannedSlots d a.what).filter (fun r => decide (max lo a.first ≤ r.slot ∧ r.slot < min hi (a.first + a.count)))

/-- Slots of a segment that are read (R197). -/
def State.slotsRead (s : State) (d : CollData) (a : Pass) : List SlotRow :=
  (segSlots d a a.first (a.first + a.count)).filter (s.slotRead d a)

/-- Slots below LENGTH, or below the visibility limit, that a line holds (R196). -/
def lineVectors (d : CollData) (w : Scanned) (stack ln : Nat) : Nat :=
  let k := scanCols d w stack
  ((scannedSlots d w).filter (fun r => (codeLines d.cfg k r.slot ++ attrLines d.cfg k r.slot ++ [idLine k r.slot]).contains ln)).length

/-- The bound content, query state and command that a segment serves. -/
def State.servedOf (s : State) (v : Served) : Option (Cmd × QueryWork × QState × CollData) :=
  match s.cmd? v.cmd with
  | none => none
  | some c =>
    let w := c.query.getD {}
    match w.qs[v.q]?, w.bound with
    | some q, some d => some (c, w, q, d)
    | _, _ => none

/-! ### One slot for one query (R181 to R184, R189, R196, R197) -/

/-- The engine drops a slot for a query (R183). -/
def Served.drops (v : Served) (r : SlotRow) : Bool :=
  r.entry.dead || (r.fresh && decide (v.limit ≤ r.index)) ||
  (match v.filter with
   | some prog => !evalFilter prog (bytesNat r.entry.attr) v.arg
   | none => false)

/-- The code score of a slot: the query's table, and its list bias or the bias of the entry's group (R180, R181). -/
def Served.score (v : Served) (d : CollData) (q : QState) (r : SlotRow) : Nat :=
  let bias := if !r.fresh then v.beta else if d.cfg.metric = 3 then 0 else routeScore d.cfg q.q32 (d.centroids.getD r.list [])
  codeScore d.cfg v.table bias q.qbits r.entry.code

/-- The engine withholds a score: θ is set and the score is strictly worse (R189, STK_SE_CTL.THRESH_OFF). -/
def State.withholds (s : State) (d : CollData) (v : Served) (score : Nat) : Bool :=
  match v.theta with
  | none => false
  | some t => !flag s.scan.seCtl 0 && decide (orderKey (similarity d.cfg) 32 t < orderKey (similarity d.cfg) 32 score)

/-- What reading slots for one query brings: its records, each with the ID of its slot, the slots counted as NaN, the lines that
the engine excludes for it, and the far ID lines that the hub reads for its records. -/
structure Reading where
  records : List (Record × Nat) := []
  nans : List Nat := []
  lines : List Nat := []
  far : List Nat := []
  deriving DecidableEq, Repr

/-- Read one slot for query slot j of a segment. -/
def State.readRow (s : State) (a : Pass) (d : CollData) (q : QState) (v : Served) (j : Nat) (x : Reading) (r : SlotRow) : Reading :=
  let k := scanCols d a.what a.stack
  let far := idsFar d a.what
  let ls := slotBad s.lineBad (fun ln => !s.usable ln) d.cfg k (!far) v.filter.isSome r.slot
  if !ls.isEmpty then { x with lines := x.lines ++ ls }
  else if v.drops r then x
  else
    let sc := v.score d q r
    let ln := idLine k r.slot
    if isNaN .fp32 sc then { x with nans := x.nans ++ [r.slot] }
    else if s.withholds d v sc then x
    else if !far ∧ s.lineBad ln then { x with lines := x.lines ++ [ln] }
    else
      let y : Record := { score := sc, slot := r.slot, list := scanList a.what, tag := a.id, qslot := j, id := if far then 0 else r.entry.id,
                          version := match a.what with | .list l => (d.lists.getD l {}).epoch | .shard _ => 0 }
      { x with records := x.records ++ [(y, r.entry.id)], far := if far then x.far ++ [ln] else x.far }

/-- Read the slots that query slot j has not read, below hi. -/
def State.readFor (s : State) (a : Pass) (hi : Nat) (e : Served × Nat) : Reading :=
  match (if e.1.left then none else s.servedOf e.1) with
  | none => {}
  | some (_, _, q, d) => (segSlots d a e.1.pos hi).foldl (s.readRow a d q e.1 e.2) {}

/-! ### Starting passes (R152, R174, R179, R191) -/

/-- A pending probe: its command, query index, state bound, gather limit, and whether memory holds its version. -/
structure Waiting where
  cmd : Nat
  q : Nat
  d : CollData
  limit : Nat
  mem : Bool
  deriving DecidableEq, Repr

/-- The probes of a list or shard that wait on a stack, by gather limit, then fetch order. A PAUSE withdraws a query from pending
passes. -/
def State.waitingProbes (s : State) (p o st : Nat) (w : Scanned) : List Waiting :=
  let of1 := fun (c : Cmd) => match c.query.bind QueryWork.bound with
    | none => []
    | some d => ((c.query.getD {}).qs.zipIdx.filter (fun q => (q.1.probes.getD []).any (fun b =>
          decide (b.what = w ∧ b.onStack = st ∧ b.state = .pending)))).map (fun q =>
        { cmd := c.seq, q := q.2, d := d, limit := c.stamp + 600 * qosBound c.qos, mem := memHolds (s.coll o).phys d w })
  let cs := s.qm.cmds.filter (fun c => c.part == p && isSearch (dOpcode c.desc) && dObject c.desc == o && ctxRuns (s.ctx c.ctx))
  sortBy (fun a b => decide (a.limit < b.limit)) (cs.flatMap of1)

/-- The probes that would share a pass with probe h: those of its version (R152; log entry 130). -/
def sharePass (ws : List Waiting) (w : Scanned) (h : Waiting) : List Waiting :=
  (ws.filter (fun x => x.mem && sameVersion x.d h.d w)).take (qmax h.d.cfg)

/-- Queries that hold a threshold table entry on a stack (R191). -/
def State.thetaUsed (s : State) (st : Nat) : Nat :=
  sumN (s.qm.cmds.map (fun c => ((c.query.getD {}).qs.filter (fun q => q.thetaSlots.contains st)).length))

/-- Change one query of a command. -/
def State.modQuery (s : State) (n i : Nat) (f : QState → QState) : State :=
  s.modCmd n (fun c => { c with query := c.query.map (fun w => { w with qs := lmod w.qs i f }) })

/-- Change the probes of a query for w on a stack. -/
def State.modProbe (s : State) (x : Waiting) (st : Nat) (w : Scanned) (f : Probe → Probe) : State :=
  let on : Probe → Probe := fun b => if b.what = w ∧ b.onStack = st then f b else b
  s.modQuery x.cmd x.q (fun q => { q with probes := q.probes.map (fun l => l.map on) })

/-- A pass that is due waits while an older version is read where its own must be written: from then its wait is delay of cause
0x6 (R286, R289). -/
def State.noteVersionWait (s : State) (st : Nat) (w : Scanned) (ws : List Waiting) : State :=
  (ws.filter (fun x => !x.mem && decide (x.limit ≤ s.hif.timer))).foldl (fun s x =>
    s.modProbe x st w (fun b => if b.state = .pending then { b with verFrom := some (b.verFrom.getD s.hif.timer) } else b)) s

/-- Since when a probe waits for its version. -/
def State.versionWait (s : State) (x : Waiting) (st : Nat) (w : Scanned) : Option Nat :=
  match ((s.cmd? x.cmd).bind Cmd.query).bind (fun k => k.qs[x.q]?) with
  | some q => ((q.probes.getD []).find? (fun b => decide (b.what = w ∧ b.onStack = st))).bind Probe.verFrom
  | none => none

/-- A query joins a pass: its probe runs, and at its first pass on the stack it takes a threshold table entry or finds the table
full (R191). -/
def State.joinPass (s : State) (pass st : Nat) (w : Scanned) (x : Waiting) : State :=
  let room := decide (s.thetaUsed st < 4096)
  let s := match s.versionWait x st w with
    | some t => s.modCmd x.cmd (atLeastDelayOn (passInv pass) 6 (s.hif.timer - t))
    | none => s
  let s := s.modProbe x st w (fun b => { b with state := .running pass, verFrom := none })
  s.modQuery x.cmd x.q (fun q =>
    if q.thetaSlots.contains st || q.thetaFull.contains st then q
    else if room then { q with thetaSlots := q.thetaSlots ++ [st] }
    else { q with thetaFull := q.thetaFull ++ [st] })

/-- Slots of a segment (R174). -/
def segmentSlots : Nat := 1048576

/-- The query slot of an engine for a probe (R173): its table and bias, θ where its query holds a threshold table entry, its
filter and visibility limit. -/
def State.querySlot (s : State) (st : Nat) (w : Scanned) (at' : Nat) (x : Waiting) : Served :=
  let v : Served := { cmd := x.cmd, q := x.q, pos := at', top := at' }
  match s.servedOf v with
  | none => v
  | some (c, k, q, d) =>
    let cent := match w with | .list l => d.centroids.getD l [] | .shard _ => []
    { v with table := buildTable d q.q32 cent (match w with | .list _ => false | .shard _ => true),
             beta := match w with | .list _ => (if similarity d.cfg then routeScore d.cfg q.q32 cent else 0) | .shard _ => 0,
             theta := if q.thetaSlots.contains st then (q.theta.find? (fun t => t.1 == scanHome d w)).map Prod.snd else none,
             filter := k.filter, arg := sArg c, limit := maxL (d.fresh.map (fun f => f.index + 1)) }

/-- Start one pass over w on stack st for the given probes. -/
def State.startPass (s : State) (p o st : Nat) (w : Scanned) (ws : List Waiting) (d : CollData) : State :=
  let id := s.scan.nextPass
  let span := scanSpan d w
  let n := max 1 (cdiv span segmentSlots)
  let s := ws.foldl (fun s x => s.joinPass id st w x) s
  let seg := fun (i : Nat) =>
    let at' := i * segmentSlots
    { id := id + i, pass := id, part := p, coll := o, what := w, stack := st, engine := none, first := at',
      count := min segmentSlots (span - at'), cursor := at', upto := at', served := ws.map (s.querySlot st w at') }
  { s with scan := { s.scan with nextPass := id + n, passes := s.scan.passes ++ (List.range n).map seg } }.assignEngines

/-- Start the first pass that is due over w on stack st, when an engine of the partition's set is free: a probe's gather
limit is reached or, unless `limitOnly`, as many probes wait as a pass serves. -/
def passStart (p o st : Nat) (w : Scanned) (limitOnly : Bool) (s : State) : State :=
  let s := s.assignEngines
  let ws := s.waitingProbes p o st w
  let s := s.noteVersionWait st w ws
  let due := fun (h : Waiting) => h.mem && (decide (h.limit ≤ s.hif.timer) || (!limitOnly && decide (qmax h.d.cfg ≤ (sharePass ws w h).length)))
  match ws.find? due, s.freeEngine p st with
  | some h, some _ => if s.stackOutFor p st then s else s.startPass p o st w (sharePass ws w h) h.d
  | _, _ => s

/-- The operand form of what is scanned: a list, or the fresh shard of the stack. -/
def scannedOf (list : Option (BitVec 16)) (st : Nat) : Scanned := match list with | some l => .list l.toNat | none => .shard st

/-- SCAN_PASS_START. -/
def execScanPassStart (part : BitVec 4) (coll : BitVec 10) (list : Option (BitVec 16)) (stack : Fin 12) (s : State) : Outcome :=
  .next (passStart part.toNat coll.toNat stack.val (scannedOf list stack.val) false s)

/-- GATHER_LIMIT: a pending probe's pass starts at its gather limit. -/
def gatherLimit (p o st : Nat) (w : Scanned) (s : State) : State := passStart p o st w true s

def execGatherLimit (part : BitVec 4) (coll : BitVec 10) (list : Option (BitVec 16)) (stack : Fin 12) (s : State) : Outcome :=
  .next (gatherLimit part.toNat coll.toNat stack.val (scannedOf list stack.val) s)

/-! ### Reading on (R155, R189, R192, R196, R198, R199) -/

/-- The segment that engine e of stack st reads. -/
def State.segmentOn (s : State) (st e : Nat) : Option Pass := s.scan.passes.find? (fun a => a.stack == st && a.engine == some e)

/-- Change one segment. -/
def State.modPass (s : State) (id : Nat) (f : Pass → Pass) : State :=
  { s with scan := { s.scan with passes := s.scan.passes.map (fun (a : Pass) => if a.id = id then f a else a) } }

/-- Count slots read and records emitted on a stack (Table 6.19). -/
def State.countScan (s : State) (st rd em : Nat) : State :=
  { s with scan := { s.scan with read := lmod s.scan.read st (fun k => (k + rd) % 2 ^ 64), emit := lmod s.scan.emit st (fun k => (k + em) % 2 ^ 64) } }

/-- A report of a line that affects query slot j joins those of its segment: once a line (R198). -/
def addReport (vectors : Nat → Nat) (list j : Nat) (es : List Report) (ln : Nat) : List Report :=
  if es.any (fun r => r.line == ln) then es.map (fun r => if r.line = ln then { r with mask := r.mask ||| 2 ^ j } else r)
  else es ++ [{ line := ln, list := list, vectors := vectors ln, mask := 2 ^ j }]

/-- A segment whose queries have read up to `hi`, with what each read. -/
def Pass.read (a : Pass) (vectors : Nat → Nat) (hi : Nat → Nat) (xs : List Reading) : Pass :=
  let x := fun (j : Nat) => (xs[j]?).getD {}
  let next := fun (v : Served × Nat) =>
    if v.1.left then v.1
    else { v.1 with pos := max v.1.pos (hi v.2), nans := v.1.nans ++ (x v.2).nans, top := max v.1.top (maxL ((x v.2).records.map (fun r => r.1.slot + 1))) }
  let vs := a.served.zipIdx.map next
  let on := vs.filter (fun v => !v.left)
  { a with served := vs, cursor := max a.cursor (minL (on.map Served.pos)), upto := max a.upto (maxL (on.map Served.pos)),
           excls := xs.zipIdx.foldl (fun es e => e.1.lines.foldl (addReport vectors (scanList a.what) e.2) es) a.excls }

/-- The records of query slot j reach the hub: it discards those at or below the highest slot accepted (R199), fetches the IDs
that it needs, excludes candidates whose far ID line cannot be read (R196), and its per-stack merge holds the rest. -/
def State.takeRecords (s : State) (a : Pass) (d : CollData) (v : Served) (x : Reading) : State :=
  let home := scanHome d a.what
  let k := scanCols d a.what a.stack
  let lost := fun (r : Record) => idsFar d a.what && s.lineBad (idLine k r.slot)
  let cand := fun (r : Record × Nat) =>
    ({ score := r.1.score, id := r.2, fresh := r.1.list == freshList, version := r.1.version, list := r.1.list, slot := r.1.slot, stack := home,
       tag := r.1.tag, qslot := r.1.qslot } : Cand)
  let new := x.records.filter (fun r => decide (v.top ≤ r.1.slot))
  let gone := dedupBy id ((new.filter (fun r => lost r.1)).map (fun r => idLine k r.1.slot)) []
  s.modQuery v.cmd v.q (fun q =>
    { q with held := q.held ++ (new.filter (fun r => !lost r.1)).map cand,
             excls := q.excls ++ gone.map (fun ln => (home, { line := ln, list := scanList a.what, vectors := lineVectors d a.what a.stack ln })) })

/-- The bytes of n slots that a segment reads (R184). -/
def scanBytes (d : CollData) (a : Pass) (n : Nat) : Nat :=
  n * stride d.cfg + cdiv n 8 + (if a.served.any (fun v => !v.left && v.filter.isSome) then n * d.cfg.attrBytes else 0)

/-- A segment's reads are LC when a query it serves has LAT_BOUND ≤ 10,000 (R155; log entry 133). -/
def State.scanLc (s : State) (a : Pass) : Bool :=
  a.served.any (fun v => !v.left && (match s.cmd? v.cmd with | some c => decide (qosBound c.qos ≤ 10000) | none => false))

/-- The regulator of its stack reads: LC or BULK (R352). -/
def State.scanReg (s : State) (a : Pass) : Nat := if s.scanLc a then 0 else 1

/-- The queries of a segment read on, query slot j up to slot `hi j`: what they read crosses the link. The reads draw on the
partition's regulators, and without tokens the segment waits (R155, R352). -/
def State.readOn (s : State) (a : Pass) (hi : Nat → Nat) : Bool × State :=
  match a.served.findSome? s.servedOf with
  | none => (true, s)
  | some (_, _, _, d) =>
    let xs := a.served.zipIdx.map (fun v => s.readFor a (hi v.2) v)
    let b := a.read (lineVectors d a.what a.stack) hi xs
    let rd := ((segSlots d a a.upto b.upto).filter (s.slotRead d a)).length
    let far := sumN (xs.map (fun x => x.far.length))
    let ws := (a.served.filter (fun v => !v.left)).map (fun v => (v.cmd, passInv a.pass))
    let g := s.bwRequest a.part ws [(s.scanReg a, scanBytes d a rd), (2, 64 * far)]
    if !g.1 then g
    else
      let s := (a.served.zip xs).foldl (fun s e => s.takeRecords a d e.1 e.2) g.2
      let s := s.meetRead (xs.flatMap (fun x => x.lines ++ x.far.filter s.lineBad))
      (true, ((s.modPass a.id (fun _ => b)).countScan a.stack rd (sumN (xs.map (fun x => x.records.length)))).randServed far)

/-- CANDIDATE_RECORD of query slot i on an engine: its queries read on to slot `slot`, in the order of slots and, at that slot,
of query slots; every candidate on the way that θ does not withhold crosses the link (R175, R189). -/
def candidateRecord (st e i slot : Nat) (s : State) : State :=
  match s.segmentOn st e with
  | none => s
  | some a =>
    if a.served.length ≤ i ∨ slot < a.first ∨ a.first + a.count ≤ slot then s
    else (s.readOn a (fun j => if j ≤ i then slot + 1 else slot)).2

def execCandidateRecord (stack : Fin 12) (engine : Fin 18) (query : Fin 32) (slot : Word32) (s : State) : Outcome :=
  .next (candidateRecord stack.val engine.val query.val slot.toNat s)

/-! ### The end of a segment (R191, R193, R198, R200) -/

/-- The end of a segment delivers query slot j's NaN count and the reports that affect it (R193, R198). -/
def State.deliver (s : State) (a : Pass) (e : Served × Nat) : State :=
  match (if e.1.left then none else s.servedOf e.1) with
  | none => s
  | some (_, _, _, d) =>
    let home := scanHome d a.what
    let mine := (a.excls.filter (fun r => bitsOf r.mask e.2 1 == 1)).map (fun r =>
      (home, ({ line := r.line, list := r.list, vectors := r.vectors } : Excl)))
    s.modQuery e.1.cmd e.1.q (fun q => { q with nans := tmod 0 q.nans home (· + e.1.nans.length), excls := q.excls ++ mine })

/-- A segment ends (R193, R200, R350): its counts and reports are delivered, its engine's time charged, its saturated elements
counted, and its pass ends with its last segment. -/
def State.endSegment (s : State) (a : Pass) (d : CollData) : State :=
  let s := (a.served.zipIdx.foldl (fun s e => s.deliver a e) s).chargeSegment a
  let s := { s with scan := { s.scan with passes := s.scan.passes.filter (fun x => x.id != a.id) } }
  let rd := s.slotsRead d a
  let s := if d.cfg.codeType = 2 ∨ d.cfg.codeType = 3 then
      s.driftAdd a.coll (rd.length * d.cfg.dim) (sumN (rd.map (fun x => codeHits d.cfg x.entry.code)))
    else s
  let s := if s.scan.passes.any (fun x => x.pass == a.pass) then s else s.passEnd a.pass a.stack
  s.assignEngines.pauseSettle a.part

/-- SEGMENT_DONE on an engine: the end-of-pass marker of every query slot. The rest of the segment is read first; the saturated
elements of a slot on an uncorrectable code line count as stored (R200; log entry 131). -/
def segmentDone (st e : Nat) (s : State) : State :=
  match s.segmentOn st e with
  | none => s
  | some a =>
    match a.served.findSome? s.servedOf with
    | none => s
    | some (_, _, _, d) =>
      let g := s.readOn a (fun _ => a.first + a.count)
      if !g.1 then g.2
      else match g.2.scan.passes.find? (fun x => x.id == a.id) with
        | none => g.2
        | some b => g.2.endSegment b d

def execSegmentDone (stack : Fin 12) (engine : Fin 18) (s : State) : Outcome := .next (segmentDone stack.val engine.val s)

/-! ### The running threshold (R189, R190, R214) -/

/-- A held entry is settled: fresh, or no undelivered probe of its stack reads a newer list. -/
def settled (d : CollData) (q : QState) (x : Cand) : Bool :=
  x.fresh || !(q.probes.getD []).any (fun b => b.stack == x.stack && (match b.state with | .delivered => false | .withdrawn => false | _ => true) &&
    (match b.what with | .list l => decide (x.version < (d.lists.getD l {}).epoch) | .shard _ => false))

/-- THETA_UPDATE of a query on a stack: θ becomes the D-th best score of the entries held, once D are, and reaches the engines that
hold it. -/
def thetaUpdate (n i st : Nat) (s : State) : State :=
  match s.servedOf { cmd := n, q := i } with
  | none => s
  | some (c, w, q, d) =>
    let p := queryParams c w q
    let sim := similarity d.cfg
    let mine := q.held.filter (fun x => x.stack == st && (!p.dedup || settled d q x))
    let best := bestOf sim 32 p.dedup p.depth mine
    match (if best.length < p.depth then none else best.getLast?) with
    | none => s
    | some z =>
      let worse := match q.theta.find? (fun t => t.1 == st) with
        | some t => decide (orderKey sim 32 t.2 < orderKey sim 32 z.score)
        | none => false
      let put : Pass → Pass := fun a =>
        { a with served := a.served.map (fun v =>
            if v.cmd = n ∧ v.q = i ∧ scanHome d a.what = st ∧ q.thetaSlots.contains a.stack then { v with theta := some z.score } else v) }
      if worse then s
      else
        let s := s.modQuery n i (fun q => { q with theta := tset q.theta st z.score })
        { s with scan := { s.scan with passes := s.scan.passes.map put } }

def execThetaUpdate (cmd query : Nat) (stack : Fin 12) (s : State) : Outcome := .next (thetaUpdate cmd query stack.val s)

/-! ### Engine faults and saturation (R199, R201) -/

/-- SCAN_ENGINE_FAULT: an engine fails during a segment. -/
def scanEngineFault (st e : Nat) (s : State) : State :=
  if (s.segmentOn st e).isSome then s.engineLost (engineUnit st e) 2 else s

def execScanEngineFault (stack : Fin 12) (engine : Fin 18) (s : State) : Outcome := .next (scanEngineFault stack.val engine.val s)

/-- DRIFT_CLEAR: a write of STK_SAT_STATUS; writing 1 to DRIFT clears it with FROZEN and both counts of the collection
selected. -/
def driftClear (v : Word32) (s : State) : State :=
  if s.bar0Off ∨ !flag v 31 then s
  else s.modColl (s.scan.satSel) (fun k => { k with drift := { k.drift with flag := false, frozen := false, elems := 0, hits := 0 } })

def execDriftClear (value : Word32) (s : State) : Outcome := .next (driftClear value s)

/-! ### Rows of tile programs (R204 to R208) -/

/-- Entries of a row, by R206: key, then ID, then local index. -/
def rowBefore (sim : Bool) (w : Nat) (a b : AsterEntry) : Bool :=
  let ka := orderKey sim w a.score
  let kb := orderKey sim w b.score
  decide (ka < kb) || (ka == kb && (decide (a.id < b.id) || (a.id == b.id && decide (a.index < b.index))))

/-- The best k entries of a row of (score, ID) pairs; NaN scores never enter it. -/
def mergeRowBest (wide sim : Bool) (k : Nat) (row : List (Nat × Nat)) : List AsterEntry :=
  let f : Fmt := if wide then .fp64 else .fp32
  let es := row.zipIdx.map (fun (e : (Nat × Nat) × Nat) => ({ score := e.1.1 % 2 ^ f.width, index := 0xFF000000 + e.2, id := e.1.2 % 2 ^ 64 } : AsterEntry))
  (sortBy (rowBefore sim f.width) (es.filter (fun e => !isNaN f e.score))).take k

/-- MERGE_ROW: the program on tile t presents a row; a merge unit of its partition selects, and holds the selection in its
registers (R203 to R206). -/
def mergeRow (t : Nat) (wide sim : Bool) (k : Nat) (row : List (Nat × Nat)) (s : State) : State :=
  match s.tileCmd t with
  | none => s
  | some c =>
    if 2 ^ 24 < row.length ∨ 4096 < k then s.contextFault c.ctx 1
    else (s.modTile t (fun x => { x with pos := x.pos + 1 })).asterHold c.part wide (mergeRowBest wide sim k row)

def execMergeRow (tile : Fin 272) (wide sim : Bool) (k : Nat) (row : List (Nat × Nat)) (s : State) : Outcome :=
  .next (mergeRow tile.val wide sim k row s)

end Sys2Proof.Machine
end

