-- ==== Sys2Proof/Machine/Start.lean ====
section
/-!
DEFINITION. What a start does after a reset level, up to READY (R72, R301, R311, R397, R401, R455 to R459, R464, R482).
-/

namespace Sys2Proof.Machine

/-! ### Start-up self-test (R340, R455, R458, R464) -/

/-- Unit n runs the self-test: every unit that has no failure record left. -/
def State.tested (s : State) (n : Nat) : Bool := !decide ((s.unit n).state = .failed) || !(s.unit n).record

/-- Unit n passes the start-up self-test, given those that fail it. -/
def State.passesStart (s : State) (fails : List Nat) (n : Nat) : Bool := s.tested n && !fails.contains n

/-- The spare tile of cluster c: the last one of its 17 when it passes, else the highest that passes (R455). That one is then no
active tile while no other tile fails, so the cluster has 15 (log entry 139). -/
def State.spareTile (s : State) (fails : List Nat) (c : Nat) : Option Nat :=
  ((List.range 17).reverse.map (fun i => 17 * c + i)).find? (s.passesStart fails)

/-- Mark unit n as passed, in a state. -/
def State.startUnit (s : State) (n : Nat) (st : UnitState) : State :=
  s.modTest n (fun _ => { state := st, pass := s.hif.timer, begun := s.hif.timer })

/-- Records of units that fail this self-test. -/
def State.startFails (s : State) (fails : List Nat) : State :=
  ((List.range 504).filter (fun n => s.tested n && fails.contains n)).foldl (fun s n => s.recordFailure n 1) s

/-- One cluster's tiles: the spare takes the place of the first other tile that does not pass; `now` says which units
fail in this self-test. -/
def State.startCluster (s : State) (ok now : Nat → Bool) (spare : Option Nat) (c : Nat) : State :=
  let ts := (List.range 17).map (fun i => 17 * c + i)
  let lost := ts.filter (fun t => !ok t && t != 17 * c + 16)
  let s := (ts.filter ok).foldl (fun s t => s.startUnit t (if some t = spare ∧ lost.isEmpty then .spare else .active)) s
  match lost, spare with
  | t :: _, some sp => if now t then s.event 0x0012 1 1 t t sp else s
  | _, _ => s

/-- One base die's engines and slots: SE16 and SE17 take the slots of engines that do not pass, lowest first. -/
def State.startStack (s : State) (ok now : Nat → Bool) (st : Nat) : State :=
  let lost := (List.range 16).filter (fun e => !ok (engineUnit st e))
  let sp := [16, 17].filter (fun e => ok (engineUnit st e))
  let s := ((List.range 18).filter (fun e => ok (engineUnit st e))).foldl (fun s e =>
    s.startUnit (engineUnit st e) (if e < 16 ∨ (sp.take lost.length).contains e then .active else .spare)) s
  let s := { s with scan := { s.scan with slots := lmod s.scan.slots st (fun _ => 0) } }
  lost.zipIdx.foldl (fun s x => match sp[x.2]? with
    | some e =>
      let s := s.setSlot st x.1 (e - 15)
      let u := engineUnit st x.1
      if now u then s.event 0x0012 1 2 (testNum u) (testNum u) (testNum (engineUnit st e)) else s
    | none => s.setSlot st x.1 3) s

/-- The tiles of cluster c, and the engines of base die st, that pass no more and that no spare replaces: those lost
beyond the spares that pass, lowest spared first. -/
def startShort (ok : Nat → Bool) (units : List Nat) (spares : List Nat) : List Nat :=
  (units.filter (fun u => !ok u)).drop (spares.filter ok).length

/-- The tiles that fail in this self-test and that no spare replaces; the spare position of a cluster is one of them, since
its failure takes a tile from the cluster's 16 active ones. -/
def shortTiles (ok now : Nat → Bool) (spare : Nat → Option Nat) : List Nat :=
  ((List.range 16).flatMap (fun c =>
    let ts := (List.range 17).map (fun i => 17 * c + i)
    startShort ok (ts.filter (fun t => t != 17 * c + 16)) (spare c).toList ++ [17 * c + 16].filter (fun t => !ok t))).filter now

/-- The scan engines that fail in this self-test and that no spare replaces. -/
def shortEngines (ok now : Nat → Bool) : List Nat :=
  ((List.range 12).flatMap (fun st =>
    startShort ok ((List.range 16).map (engineUnit st)) [engineUnit st 16, engineUnit st 17])).filter now

/-- HIF_STATUS.SELFTEST_FAIL (R459): this self-test failed a unit that no spare replaced; a merge unit has none. -/
def selfTestShort (ok now : Nat → Bool) (spare : Nat → Option Nat) : Bool :=
  !(shortTiles ok now spare).isEmpty || !(shortEngines ok now).isEmpty || (List.range 16).any (fun c => now (488 + c))

/-- CAPACITY_CHANGE for each tile and engine that fails in this self-test with no spare left (R15, R57, Table 16.6). -/
def State.startCapacity (s : State) (ok now : Nat → Bool) (spare : Nat → Option Nat) : State :=
  let s := (shortTiles ok now spare).foldl (fun s t => s.event 0x0011 2 1 t s.tilesActive 0) s
  (shortEngines ok now).foldl (fun s n => s.event 0x0011 2 2 (testNum n) s.enginesActive 0) s

/-- The start-up self-test at COLD and WARM, with the units that fail it. -/
def State.selfTest (s : State) (fails : List Nat) : State :=
  let pass := (List.range 504).filter (s.passesStart fails)
  let ok := fun (n : Nat) => pass.contains n
  let spares := (List.range 16).map (s.spareTile fails)
  let new := (List.range 504).filter (fun n => s.tested n && fails.contains n)
  let now := fun (n : Nat) => new.contains n
  let s1 := { s with tst := { s.tst with since := s.hif.timer } }
  let s1 := s1.startFails fails
  let s1 := (List.range 16).foldl (fun s c => s.startCluster ok now (lget none spares c) c) s1
  let s1 := (List.range 12).foldl (fun s st => s.startStack ok now st) s1
  let s1 := ((List.range 16).filter (fun c => ok (488 + c))).foldl (fun s c => s.startUnit (488 + c) .active) s1
  let s1 := s1.startCapacity ok now (fun c => lget none spares c)
  { s1 with hif := { s1.hif with selftestFail := selfTestShort ok now (fun c => lget none spares c) } }

/-! ### Memory and journal (R301, R397, R401) -/

/-- A channel that fails training takes a spare or is mapped out; nothing of it can be copied. -/
def State.trainFail (s : State) (u ch : Nat) : State :=
  let s := s.channelFail u ch
  if (s.memUnit u).evac = none then s
  else
    let held := if u < 12 then s.heldIn (u * blocksPerStack) (u * blocksPerStack + 128 * s.stkUnits u) else []
    let s := s.modUnit u (fun m => { m with evac := none })
    if s.hif.inReset = some .cold then s else held.foldl (State.missBlock · false) s

/-- Apply one persisted frame to the retained collection it belongs to. -/
def State.startFrame (s : State) (f : Frame) : State :=
  let k := s.coll f.coll
  if !f.persisted ∨ f.applied ≠ 0 ∨ k.recovering ∨ (k.state ≠ .ready ∧ k.state ≠ .exclusive) then s
  else
    let r := k.applyFrame [] f
    let s := { s with colls := tset s.colls f.coll r.1.freshToMem }
    let mark : Frame → Frame := fun x => { x with applied := x.count, chain := r.1.g }
    let s := { s with jrn := { s.jrn with frames := onFirst (fun (x : Frame) => x.first == f.first) mark s.jrn.frames } }
    (s.driftAdd f.coll r.2.elems r.2.hits).fmtCount r.2.sat r.2.nan

/-! ### To READY (R72, R464, R482) -/

/-- Raise the minimum SVN of components that run a bank with COMMIT_SVN (R482). -/
def Comp.commitSvn (c : Comp) : Comp := if c.run.commit then { c with minSvn := max c.minSvn c.run.svn } else c

/-- JRN_READY and READY; the level has completed. -/
def State.startReady (s : State) (lv : ResetLevel) : State :=
  let s := { s with jrn := { s.jrn with next := s.jrn.h + 1, ready := true, lastUse := s.hif.timer } }
  let s := { s with hif := { s.hif with bootStage := 0xFF, ready := true, inReset := none } }
  let s := if lv = .cold ∨ lv = .warm then { s with sec := { s.sec with comps := s.sec.comps.map Comp.commitSvn } } else s
  s.event 0x0001 0 0 0 (levelRank lv) 0

/-- The level can go on: the rails are up, and at COLD and WARM the trigger has ended, the link has trained and every
component has a valid bank (R72, R481). -/
def State.startGoes (s : State) (lv : ResetLevel) : Bool :=
  s.module.rails && !s.module.flushing && s.module.refclk &&
  (!(lv == .cold || lv == .warm) || (s.module.perstN && s.hif.link.up && !s.sec.comps.any Comp.failed))

/-- The stages up to 0x50. -/
def State.startStages (s : State) (lv : ResetLevel) (channels : List (Nat × Nat)) (fails : List Nat) : State :=
  let deep := decide (lv = .cold ∨ lv = .warm)
  let s := if deep then (channels.filter (fun c => decide (c.1 < 20 ∧ c.2 < (if c.1 < 12 then 17 else 1)) &&
      bitsOf (s.memUnit c.1).active c.2 1 == 1)).foldl (fun s c => s.trainFail c.1 c.2) s else s
  let s := { s with hif := { s.hif with memActive := s.hif.link.cacheMem, cfgRetry := false } }
  let s := if deep then s.selfTest fails else s
  let s := s.jrn.frames.foldl State.startFrame s
  (s.colls.map Prod.fst).foldl State.finishPublish s

/-- RESET_COMPLETE: with the channels that fail training and the units that fail the self-test. A whole-store operation
that was cut short holds the start at stage 0x60 until MAINT_DONE (R311); a second RESET_COMPLETE then ends it. -/
def resetComplete (channels : List (Nat × Nat)) (fails : List Nat) (s : State) : State :=
  match s.hif.inReset with
  | none => s
  | some lv =>
    let whole := s.jrn.maint.active && s.jrn.maint.target == 0x7FF
    if !s.startGoes lv then s
    else if s.hif.bootStage = 0x60 then (if whole then s else s.startReady lv)
    else
      let s1 := s.startStages lv channels fails
      if whole then { s1 with hif := { s1.hif with bootStage := 0x60 } } else s1.startReady lv

def execResetComplete (channels : List (Nat × Nat)) (fails : List Nat) (s : State) : Outcome :=
  .next (resetComplete channels fails s)

end Sys2Proof.Machine
end

