-- ==== Sys2Proof/Machine/Tiles.lean ====
section
/-!
DEFINITION. Tile programs: matrix groups, the combine operation, accumulator slots as tiles, drains and the vector unit
(09_matrix_engines.md, R235 to R238). A step names the command whose invocation issues the operation; the first one of an
invocation takes the tile.
-/

namespace Sys2Proof.Machine

/-! ### Invocations -/

/-- The command may issue an operation on tile t: it is started, its context runs, and t is an active tile of its
placement. -/
def State.mayIssue (s : State) (n t : Nat) : Option Cmd :=
  match s.cmd? n with
  | none => none
  | some c =>
    if c.run ≠ .waiting ∧ s.invRuns c t ∧ (s.placement c).contains t ∧ (s.unit t).state = .active ∧
       !isControl (dOpcode c.desc) then some c else none

/-- An invocation of command n begins on a tile: its program starts, with no handles. -/
def Tile.begin (n : Nat) (t : Tile) : Tile := { t with running := some n, pos := 0, semHandles := [], credits := [] }

/-- Take tile t for command n, or find it taken; a parked tile first wakes (R419). -/
def State.takeTile (s : State) (n t : Nat) : State × Bool :=
  match (s.tile t).running with
  | some m => (s, m == n)
  | none =>
    let r := s.wakeTile t
    if r.2 then (r.1.modTile t (Tile.begin n), true) else r

/-- An invocation waits on a semaphore, and its tile issues nothing. -/
def State.tileWaits (s : State) (n t : Nat) : Bool :=
  match s.cmd? n with
  | some c => (s.part c.part).sems.any (fun m => m.2.waiters.any (fun w => w.cmd == n && w.tile == t))
  | none => false

/-- Run one tile operation: f changes the tile, or names the context fault (row of Table 12.10), or waits; and gives what
it adds to FMT_SAT_COUNT and FMT_NAN_COUNT. -/
inductive TileDone where
  | done (t : Tile) (sat nan : Nat)
  | fault (row : Nat)
  | wait
  deriving DecidableEq, Repr

/-- Issue an operation of command n on tile t. -/
def State.issue (s : State) (n t : Nat) (f : Tile → TileDone) : State :=
  match s.mayIssue n t with
  | none => s
  | some c =>
    let r := s.takeTile n t
    if !r.2 ∨ s.tileWaits n t then r.1
    else match f (r.1.tile t) with
      | .wait => r.1
      | .fault row => r.1.contextFault c.ctx row
      | .done x sat nan => (r.1.modTile t (fun _ => { x with pos := x.pos + 1 })).fmtCount sat nan

/-- Read and write scratchpad. -/
def Tile.read (t : Tile) (a n : Nat) : Nat := bytesNat (memBytes t.scratch a n)
def Tile.write (t : Tile) (a : Nat) (bs : List Byte) : Tile := { t with scratch := memWrite t.scratch a bs }

/-! ### Sets and slots (R261 to R264) -/

def Tile.set (t : Tile) (y : Bool) : AccSet := if y then t.y else t.x
def Tile.setSet (t : Tile) (y : Bool) (a : AccSet) : Tile := if y then { t with y := a } else { t with x := a }

/-- A set becomes the active one, for a group or a write when `target`: the set left behind is HELD, and a HELD set
selected again accumulates. -/
def Tile.select (t : Tile) (y target : Bool) : Tile :=
  let t := if t.activeY = y then t
           else
             let o := t.set t.activeY
             { t.setSet t.activeY (if o.state = .accumulating then { o with state := .held } else o) with activeY := y }
  let a := t.set y
  if a.state = .held ∨ (target ∧ a.state = .empty) then t.setSet y { a with state := .accumulating } else t

/-- The set holds an FP64 tile, which occupies both its slots (R261). -/
def AccSet.wide (a : AccSet) : Bool := (lget {} a.slots 0 : AccSlot).fmt == .fp64

/-- A slot of a set. -/
def AccSet.slot (a : AccSet) (k : Nat) : AccSlot := lget {} a.slots (if a.wide then 0 else k)

/-- Store a slot. An FP64 tile takes both slots of its set, and another tile takes the place of an FP64 tile there. -/
def AccSet.setSlot (a : AccSet) (k : Nat) (z : AccSlot) : AccSet :=
  if z.fmt = .fp64 then { a with slots := [z, {}] }
  else { a with slots := lmod (if a.wide then List.replicate 2 {} else a.slots) k (fun _ => z) }

/-- The floating format of a slot. -/
def accFmt : Sys2Proof.AccFmt → Fmt
  | .fp64 => .fp64 | _ => .fp32

/-- Bytes of an element. -/
def accBytes : Sys2Proof.AccFmt → Nat
  | .fp64 => 8 | _ => 4

/-- One addition of a slot's format: INT32 is exact modulo 2³² (R257). -/
def accAdd (f : Sys2Proof.AccFmt) (a b : Nat) : Nat :=
  match f with
  | .int32 => (a + b) % 2 ^ 32
  | .fp32 => fadd .fp32 a b
  | .fp64 => fadd .fp64 a b

/-- Push a tile of group sums through the levels (R255). -/
def pushTile (f : Sys2Proof.AccFmt) : List (Option (List Nat)) → List Nat → List (Option (List Nat))
  | [], v => [some v]
  | some x :: t, v => none :: pushTile f t (List.zipWith (accAdd f) x v)
  | none :: t, v => some v :: t

/-- Collapse the levels from the lowest. -/
def collapseTile (f : Sys2Proof.AccFmt) : List (Option (List Nat)) → Option (List Nat) → Option (List Nat)
  | [], v => v
  | none :: t, v => collapseTile f t v
  | some x :: t, none => collapseTile f t (some x)
  | some x :: t, some v => collapseTile f t (some (List.zipWith (accAdd f) x v))

/-- A value of a slot's format as the device writes it: a NaN is the canonical one (R220). -/
def accCanon (f : Sys2Proof.AccFmt) (v : Nat) : Nat :=
  match f with
  | .int32 => v
  | _ => if isNaN (accFmt f) v then canonNaN (accFmt f) (decode (accFmt f) v).neg else v

/-- The values a drain with no fused operations would deliver (R262, R263). -/
def AccSlot.values (z : AccSlot) : List Nat :=
  match z.init, collapseTile z.fmt z.levels none with
  | some c, some r => List.zipWith (accAdd z.fmt) c r
  | some c, none => c.map (accCanon z.fmt)
  | none, some r => r
  | none, none => List.replicate (z.rows * z.cols) 0

/-- A row-major tile of n-byte elements in scratchpad. -/
def Tile.readTile (t : Tile) (a w n : Nat) : List Nat := (List.range n).map (fun i => t.read (a + w * i) w)

/-- Shapes of R254. -/
def shapeOk (m n : Nat) : Bool := [16, 32, 64].contains m && [16, 32, 64].contains n

/-- The slot exists for a format. -/
def slotOk (f : Sys2Proof.AccFmt) (k : Nat) : Bool := decide (k ≤ 1) && (f != .fp64 || k == 0)

/-- SLOT_TILE_WRITE: the values become initial values and every level is empty. -/
def slotTileWrite (y : Bool) (k : Nat) (f : Sys2Proof.AccFmt) (rows cols src : Nat) (t : Tile) : TileDone :=
  let n := rows * cols
  if !shapeOk rows cols ∨ !slotOk f k ∨ scratchBytes < src + n * accBytes f then .fault 7
  else if (t.set y).state = .draining then .wait
  else
    let z : AccSlot := { fmt := f, rows := rows, cols := cols, init := some (t.readTile src (accBytes f) n),
                         scaleAB := ((t.set y).slot k).scaleAB }
    let t := t.select y true
    .done (t.setSet y ((t.set y).setSlot k z)) 0 0

def execSlotTileWrite (cmd : Nat) (tile : Fin 272) (setY : Bool) (slot : Fin 2) (fmt : Sys2Proof.AccFmt) (rows cols src : Nat)
    (s : State) : Outcome := .next (s.issue cmd tile.val (slotTileWrite setY slot.val fmt rows cols src))

/-- SLOT_TILE_READ: the slot's values as a tile at dst; an empty slot reads +0 in the shape asked for. -/
def slotTileRead (y : Bool) (k : Nat) (f : Sys2Proof.AccFmt) (rows cols dst : Nat) (t : Tile) : TileDone :=
  let z := (t.set y).slot k
  let z : AccSlot := if z.rows = 0 then { fmt := f, rows := rows, cols := cols } else z
  if !shapeOk rows cols ∨ !slotOk f k ∨ !slotOk z.fmt k ∨ scratchBytes < dst + z.rows * z.cols * accBytes z.fmt then .fault 7
  else if (t.set y).state = .draining then .wait
  else .done (t.write dst (z.values.flatMap (natBytes (accBytes z.fmt)))) 0 0

def execSlotTileRead (cmd : Nat) (tile : Fin 272) (setY : Bool) (slot : Fin 2) (fmt : Sys2Proof.AccFmt) (rows cols dst : Nat)
    (s : State) : Outcome := .next (s.issue cmd tile.val (slotTileRead setY slot.val fmt rows cols dst))

/-! ### Matrix groups (R235 to R238, R254 to R258, R262) -/

/-- Bits of an operand element. -/
def matBits (f : Nat) : Nat := lget 0 [32, 16, 16, 8, 8, 8, 4, 4, 64, 32, 4, 8] f

/-- Formats with block scales, of 16 elements each (R238), and shared exponents, of 16 or 32 (R242). -/
def scaleFmt (f b : Nat) : Bool := if f = 11 then b == 16 || b == 32 else [1, 2, 3, 4, 5, 6, 7, 10].contains f && b == 16

/-- The bytes of an operand's rows lie in the scratchpad, and its format allows its scales. -/
def operandOk (o : Sys2Proof.MatOperand) (rows len : Nat) : Bool :=
  decide (0 < matBits o.fmt ∧ 0 < rows ∧ o.base + (rows - 1) * o.rowBytes + cdiv (len * matBits o.fmt) 8 ≤ scratchBytes) &&
  (match o.scale with
   | some (a, w, b) => scaleFmt o.fmt b && decide (a + (rows - 1) * w + cdiv len b ≤ scratchBytes)
   | none => o.fmt != 11) &&
  (o.expand != 1 || decide (matBits o.fmt = 4 ∧ (o.fmt = 10 ∨ o.lut + 32 ≤ scratchBytes))) && decide (o.expand ≤ 2) &&
  decide (-128 ≤ o.zero ∧ o.zero ≤ 127)

/-- The code of element k of row r. -/
def Tile.code (t : Tile) (o : Sys2Proof.MatOperand) (r k : Nat) : Nat :=
  let b := matBits o.fmt
  if b = 4 then bitsOf (t.read (o.base + r * o.rowBytes + k / 2) 1) (4 * (k % 2)) 4
  else t.read (o.base + r * o.rowBytes + k * (b / 8)) (b / 8)

/-- The decoded value of element k of row r, with its block scale or exponent (R235, R236, R238, R242). -/
def Tile.operand (t : Tile) (o : Sys2Proof.MatOperand) (r k : Nat) : FV :=
  let q := t.code o r k
  let z := if o.expand = 2 then o.zero else 0
  let e := match o.scale with | some (a, w, b) => t.read (a + r * w + k / max 1 b) 1 | none => 0
  let v := if o.fmt = 11 then seDecode e (sext 8 q)
    else if o.expand = 1 ∧ (o.fmt ≠ 10 ∨ o.lut ≠ 0) then decode .fp16 (t.read (o.lut + 2 * q) 2)
    else match o.fmt with
      | 0 => decode .fp32 q
      | 1 => decode .bf16 q
      | 2 => decode .fp16 q
      | 3 => decode .e4m3 q
      | 4 => decode .e5m2 q
      | 5 => ofInt (sext 8 q - z)
      | 6 => ofInt (sext 4 q - z)
      | 7 => ofInt (q - z)
      | 8 => decode .fp64 q
      | 9 => decode .e10m23 (enc .e10m23 (ofInt (sext 32 q)))
      | _ => if o.expand = 1 then decode .fp16 (enc .fp16 (q4bV q)) else q4bV q
  match o.scale with
  | some _ => if o.fmt = 11 then v else mulV v (bs8V e) q e
  | none => v

/-- The accumulator of an operand pair (Table 8.7). -/
def pairAcc (a b : Sys2Proof.MatOperand) : Sys2Proof.AccFmt :=
  if a.fmt = 8 ∧ b.fmt = 8 then .fp64
  else if a.fmt = b.fmt ∧ (a.fmt = 5 ∨ a.fmt = 6) ∧ a.expand = 0 ∧ b.expand = 0 ∧ a.scale.isNone ∧ b.scale.isNone then .int32
  else .fp32

/-- The group sum of one output element. -/
def Tile.group (t : Tile) (f : Sys2Proof.AccFmt) (a b : Sys2Proof.MatOperand) (r c len : Nat) : Nat :=
  let ks := List.range len
  match f with
  | .int32 =>
    let w := matBits a.fmt
    toBits 32 (ks.foldl (fun (acc : Int) k => acc + sext w (t.code a r k) * sext w (t.code b c k)) 0)
  | _ =>
    let given := ks.any (fun k => (t.operand a r k).isNaN || (t.operand b c k).isNaN)
    enc (accFmt f) (groupExactOf given (ks.map (fun k => mulV (t.operand a r k) (t.operand b c k) (t.code a r k) (t.code b c k))))

/-- MATRIX_GROUP: one group of `len` elements of an M × N tile into a slot. `first` starts a reduction, with the tile at
`init` as initial value where one is named; a reduction of K = 0 starts with no group (R262). -/
def matrixGroup (y : Bool) (k rows cols len : Nat) (first : Bool) (init : Option Nat) (a b : Sys2Proof.MatOperand) (t : Tile) : TileDone :=
  let f := pairAcc a b
  let n := rows * cols
  let z0 := (t.set y).slot k
  let cOk := match init with | some p => decide (p + n * accBytes f ≤ scratchBytes) | none => true
  let same := decide (z0.fmt = f ∧ z0.rows = rows ∧ z0.cols = cols)
  if !shapeOk rows cols ∨ !slotOk f k ∨ (len = 0 ∧ !first) ∨ 32 < len ∨ !operandOk a rows len ∨ !operandOk b cols len ∨ !cOk ∨ (!first ∧ !same) then .fault 7
  else if (t.set y).state = .draining then .wait
  else
    let t := { t.select y true with tscales := (a.tscale, b.tscale) }
    let z : AccSlot := if first then { fmt := f, rows := rows, cols := cols, init := init.map (fun p => t.readTile p (accBytes f) n) }
                       else (t.set y).slot k
    let z : AccSlot := { z with scaleAB := fmul .fp32 a.tscale b.tscale }
    if len = 0 then .done (t.setSet y ((t.set y).setSlot k z)) 0 0
    else if 256 ≤ z.groups then .fault 2
    else
      let g := (List.range rows).flatMap (fun r => (List.range cols).map (fun c => t.group f a b r c len))
      let z : AccSlot := { z with levels := pushTile f z.levels g, groups := z.groups + 1 }
      .done (t.setSet y ((t.set y).setSlot k z)) 0 0

def execMatrixGroup (cmd : Nat) (tile : Fin 272) (setY : Bool) (slot : Fin 2) (rows cols len : Nat) (first : Bool) (init : Option Nat)
    (a b : Sys2Proof.MatOperand) (s : State) : Outcome :=
  .next (s.issue cmd tile.val (matrixGroup setY slot.val rows cols len first init a b))

/-! ### The combine operation (R259) -/

/-- Combine parts of one element as a balanced tree. -/
def combineAcc (f : Sys2Proof.AccFmt) : Nat → List (Option Nat) → Option Nat
  | 0, ps => ps.headD none
  | n + 1, ps =>
    match combineAcc f n (ps.take (2 ^ n)), combineAcc f n (ps.drop (2 ^ n)) with
    | some a, some b => some (accAdd f a b)
    | some a, none => some a
    | none, b => b

/-- COMBINE of 2, 4 or 8 parts, each a tile in scratchpad or absent, into a tile at dst. -/
def combine (f : Sys2Proof.AccFmt) (rows cols : Nat) (parts : List (Option Nat)) (dst : Nat) (t : Tile) : TileDone :=
  let n := rows * cols
  let w := accBytes f
  let ok := parts.all (fun p => match p with | some a => decide (a + n * w ≤ scratchBytes) | none => true)
  if !shapeOk rows cols ∨ !([2, 4, 8].contains parts.length) ∨ !ok ∨ scratchBytes < dst + n * w then .fault 7
  else
    let lg := Nat.log2 parts.length
    let out := (List.range n).map (fun i => (combineAcc f lg (parts.map (fun p => p.map (fun a => t.read (a + w * i) w)))).getD 0)
    .done (t.write dst (out.flatMap (natBytes w))) 0 0

def execCombine (cmd : Nat) (tile : Fin 272) (fmt : Sys2Proof.AccFmt) (rows cols : Nat) (parts : List (Option Nat)) (dst : Nat)
    (s : State) : Outcome := .next (s.issue cmd tile.val (combine fmt rows cols parts dst))

/-! ### Drain (R265 to R267, R269) -/

/-- Fields of the drain control word (Table 9.5). -/
structure DrainWord where
  param : Nat
  side : Nat
  dest : Nat
  slot : Nat
  perCol : Bool
  keep : Bool
  requant : Bool
  rowMax : Bool
  rowSum : Nat
  bias : Bool
  scale : Bool
  out : Nat
  deriving DecidableEq, Repr

def drainWord (v : Word64) : DrainWord :=
  { param := 32 * fld v 48 16, side := 32 * fld v 32 16, dest := 32 * fld v 16 16, slot := fld v 12 1, perCol := flag v 11,
    keep := flag v 10, requant := flag v 9, rowMax := flag v 8, rowSum := fld v 6 2, bias := flag v 5, scale := flag v 4, out := fld v 0 4 }

/-- Bits of an element in OUT_FMT. -/
def outBits (f : Nat) : Nat := lget 0 [32, 16, 16, 8, 8, 8, 4, 4, 64, 32] f

/-- The control word makes no context fault on a slot (R269). -/
def drainOk (d : DrainWord) (z : AccSlot) : Bool :=
  let w := accBytes z.fmt
  decide (d.out ≤ 9 ∧ d.rowSum ≠ 3) &&
  (!d.requant || (z.fmt == .int32 && !d.scale && !d.bias && !d.rowMax && d.rowSum == 0 && [5, 6, 7].contains d.out)) &&
  (z.fmt != .fp64 || ((d.out == 0 || d.out == 8) && d.slot == 0)) &&
  decide (d.dest + cdiv (z.rows * z.cols * outBits d.out) 8 ≤ scratchBytes) &&
  (!(d.rowMax || d.rowSum != 0) || decide (d.side + z.rows * (2 * w) ≤ scratchBytes)) &&
  (!d.bias || decide (d.param + z.cols * w ≤ scratchBytes)) &&
  (!d.requant || decide (d.param + 8 * (if d.perCol then z.cols else 1) ≤ scratchBytes))

/-- Range of an integer OUT_FMT. -/
def intRange (f : Nat) : Int × Int :=
  match f with
  | 5 => (-128, 127) | 6 => (-8, 7) | 7 => (0, 15) | _ => (-2147483648, 2147483647)

/-- A value in the format numbered `out` in MatOperand. -/
def cvtValue (out : Nat) (x : FV) : Cvt :=
  match out with
  | 0 => cvt .fp32 x
  | 1 => cvt .bf16 x
  | 2 => cvt .fp16 x
  | 3 => cvt .e4m3 x
  | 4 => cvt .e5m2 x
  | 8 => cvt .fp64 x
  | _ => let r := toInt (intRange out).1 (intRange out).2 x
         { bits := toBits (outBits out) r.val, sat := r.sat, nan := r.nan }

/-- An element of a floating slot in OUT_FMT with its counts (step 6). -/
def outElem (f out v : Nat) : Cvt :=
  cvtValue out (decode (if f = 8 then .fp64 else .fp32) v)

/-- Pack elements of OUT_FMT, nibbles with the even one low. -/
def packOut (out : Nat) (es : List Nat) : List Byte :=
  if outBits out = 4 then (chunksOf 2 es).map (fun p => BitVec.ofNat 8 (lget 0 p 0 + 16 * lget 0 p 1))
  else es.flatMap (natBytes (outBits out / 8))

/-- What a drain computes: output elements, row maxima and sums, and counts. -/
structure Drained where
  out : List Nat
  maxs : List Nat := []
  sums : List Nat := []
  sat : Nat := 0
  nan : Nat := 0
  deriving DecidableEq, Repr

/-- Rows of a row-major tile. -/
def rowsOf (cols : Nat) (vs : List Nat) : List (List Nat) := chunksOf cols vs

/-- Row maximum of a floating format or of INT32. -/
def rowMaxOf (f : Sys2Proof.AccFmt) : List Nat → Nat
  | [] => 0
  | x :: t => match f with
    | .int32 => t.foldl (fun a b => if sext 32 a < sext 32 b then b else a) x
    | _ => t.foldl (fmax (accFmt f)) x

/-- Row sum of values or of their exact squares (R267). -/
def rowSumOf (f : Sys2Proof.AccFmt) (sq : Bool) (r : List Nat) : Nat :=
  match f with
  | .int32 => (sumN (r.map (fun x => if sq then x * x else x))) % 2 ^ 32
  | _ => reduceTerms (accFmt f) (r.map (fun x => if sq then prodTerm (accFmt f) x x else decode (accFmt f) x))

/-- The drain of a slot. `free` supplies the results the spec states for no INT32 slot: one narrowed to an integer, or
scaled or biased, without REQUANT and without a floating OUT_FMT. -/
def drainSlot (t : Tile) (d : DrainWord) (z : AccSlot) (free : Nat → Nat) : Drained :=
  let vs := z.values
  let w := accBytes z.fmt
  if d.requant then
    let rs := vs.zipIdx.map (fun e =>
      let p := t.read (d.param + 8 * (if d.perCol then e.2 % z.cols else 0)) 8
      requant (sext 32 e.1) (bitsOf p 0 31) (bitsOf p 32 6) (sext 8 (bitsOf p 40 8)) (intRange d.out).1 (intRange d.out).2)
    { out := rs.map (fun r => toBits (outBits d.out) r.val), sat := sumN (rs.map ICvt.sat) }
  else
    let floating := decide (d.out ≤ 4 ∨ d.out = 8)
    let f : Sys2Proof.AccFmt := if z.fmt = .int32 ∧ floating then .fp32 else z.fmt
    let vs := if z.fmt = .int32 ∧ floating then vs.map (fun v => enc .fp32 (ofInt (sext 32 v))) else vs
    let open1 := z.fmt = .int32 ∧ !floating ∧ (d.out ≠ 9 ∨ d.scale ∨ d.bias)
    let g := accFmt f
    let sc := if f = .fp64 then convert .fp32 .fp64 z.scaleAB else z.scaleAB
    let vs := if open1 then vs.zipIdx.map (fun e => free e.2 % 2 ^ 32)
      else
        let vs := if d.scale then vs.map (fun v => fmul g v sc) else vs
        if d.bias then vs.zipIdx.map (fun e => fadd g e.1 (t.read (d.param + w * (e.2 % z.cols)) w)) else vs
    let rows := rowsOf z.cols vs
    let outs := if f = .int32 then vs.map (fun v => ({ bits := v % 2 ^ outBits d.out } : Cvt)) else vs.map (outElem (if f = .fp64 then 8 else 0) d.out)
    { out := outs.map Cvt.bits, maxs := if d.rowMax then rows.map (rowMaxOf f) else [],
      sums := if d.rowSum = 0 then [] else rows.map (rowSumOf f (d.rowSum == 2)),
      sat := sumN (outs.map Cvt.sat), nan := sumN (outs.map Cvt.nan) }

/-- Write a drain's output tile and side vector; a field not asked for is not written. -/
def Tile.putDrain (t : Tile) (d : DrainWord) (w : Nat) (r : Drained) : Tile :=
  let t := t.write d.dest (packOut d.out r.out)
  let t := r.maxs.zipIdx.foldl (fun (t : Tile) e => t.write (d.side + 2 * w * e.2) (natBytes w e.1)) t
  r.sums.zipIdx.foldl (fun (t : Tile) e => t.write (d.side + 2 * w * e.2 + w) (natBytes w e.1)) t

/-- A slot that nothing has started holds a 64 × 64 tile of +0 (R261, R262, R264). -/
def AccSlot.shaped (z : AccSlot) : AccSlot := if z.rows = 0 then { z with rows := 64, cols := 64 } else z

/-- DRAIN of a set: it waits while either set drains; on the active set it makes the other set active. -/
def drain (y : Bool) (v : Word64) (free : Nat → Nat) (t : Tile) : TileDone :=
  let d := drainWord v
  let z := ((t.set y).slot d.slot).shaped
  if !drainOk d z then .fault 3
  else if t.x.state = .draining ∨ t.y.state = .draining then .wait
  else
    let r := drainSlot t d z free
    let t := t.putDrain d (accBytes z.fmt) r
    let t := t.setSet y { t.set y with state := .draining, keep := d.keep }
    .done (if t.activeY = y then t.select (!y) false else t) r.sat r.nan

/-- DRAIN by command n on tile t. -/
def drainStep (n t : Nat) (y : Bool) (v : Word64) (s : State) : State :=
  let k := s.freeCtr
  let s1 := s.issue n t (drain y v (fun i => Config.freeValue (k + i)))
  if (s.mayIssue n t).isNone then s else { s1 with freeCtr := s1.freeCtr + 4096 }

def execDrain (cmd : Nat) (tile : Fin 272) (setY : Bool) (word : Word64) (s : State) : Outcome :=
  .next (drainStep cmd tile.val setY word s)

/-- DRAIN_DONE: the draining set becomes EMPTY, or HELD where KEEP = 1. -/
def drainDone (t : Nat) (s : State) : State := s.modTile t (fun x => { x with x := setSettled x.x, y := setSettled x.y })

def execDrainDone (tile : Fin 272) (s : State) : Outcome := .next (drainDone tile.val s)

/-! ### The vector unit (R252) -/

/-- A vector register. -/
def Tile.vreg (t : Tile) (r : Nat) : List Nat := tget (List.replicate 32 0) t.vregs r
def Tile.setVreg (t : Tile) (r : Nat) (v : List Nat) : Tile := { t with vregs := tset t.vregs r v }

/-- An integer lane result: exact where it fits, else a free value. -/
def intLane (w : Nat) (free : Nat) (i : Int) : Nat :=
  if -(2 ^ (w - 1) : Int) ≤ i ∧ i < 2 ^ (w - 1) then toBits w i else free % 2 ^ w

/-- Floating lane arithmetic. -/
def fltOp (f : Fmt) (op : Sys2Proof.LaneOp) (a b : Nat) : Nat :=
  match op with
  | .add => fadd f a b | .sub => fsub f a b | .mul => fmul f a b | .max => fmax f a b | .min => fmin f a b

/-- Integer lane arithmetic. -/
def intOp (w : Nat) (op : Sys2Proof.LaneOp) (free a b : Nat) : Nat :=
  let x := sext w a
  let y := sext w b
  intLane w free (match op with
    | .add => x + y | .sub => x - y | .mul => x * y | .max => max x y | .min => min x y)

/-- Both 16-bit halves of a lane. -/
def halves (g : Nat → Nat → Nat) (a b : Nat) : Nat := g (a % 65536) (b % 65536) % 65536 + 65536 * (g (a / 65536) (b / 65536) % 65536)

/-- One lane of arithmetic. -/
def laneArith (op : Sys2Proof.LaneOp) (f : Sys2Proof.LaneFmt) (free a b : Nat) : Nat :=
  match f with
  | .fp32 => fltOp .fp32 op a b
  | .bf16 => halves (fltOp .bf16 op) a b
  | .fp16 => halves (fltOp .fp16 op) a b
  | .int32 => intOp 32 op free a b
  | .int8 => intOp 8 op free (a % 256) (b % 256)

/-- One lane of fused multiply-add. -/
def laneFma (f : Sys2Proof.LaneFmt) (free a b c : Nat) : Nat :=
  let two := fun (g : Fmt) => ffma g (a % 65536) (b % 65536) (c % 65536) + 65536 * ffma g (a / 65536) (b / 65536) (c / 65536)
  match f with
  | .fp32 => ffma .fp32 a b c
  | .bf16 => two .bf16
  | .fp16 => two .fp16
  | .int32 => intLane 32 free (sext 32 a * sext 32 b + sext 32 c)
  | .int8 => intLane 8 free (sext 8 a * sext 8 b + sext 8 c)

/-- One lane of an FP32 function. -/
def laneFn (op : Sys2Proof.LaneFn) (a : Nat) : Nat :=
  match op with
  | .sqrt => fsqrt .fp32 a
  | .recip => vrecip a
  | .rsqrt => vrsqrt a
  | .exp => vexp a
  | .exp2 => vexp2 a
  | .log => vlogB false a
  | .log2 => vlogB true a
  | .tanh => vtanh a
  | .erf => verf a
  | .logistic => vlogistic a

/-- A lane as a value of its format. -/
def laneVal (f : Sys2Proof.LaneFmt) (a : Nat) : FV :=
  match f with
  | .fp32 => decode .fp32 a
  | .bf16 => decode .bf16 (a % 65536)
  | .fp16 => decode .fp16 (a % 65536)
  | .int32 => ofInt (sext 32 a)
  | .int8 => ofInt (sext 8 a)

/-- One element's comparison: ordered ones are false on NaN, "not equal" is true (R233). -/
def elemCmp (op : Sys2Proof.LaneCmp) (f : Sys2Proof.LaneFmt) (a b : Nat) : Bool :=
  let x := laneVal f a
  let y := laneVal f b
  match op with
  | .eq => eqV x y | .ne => !eqV x y | .lt => ltV x y | .le => leV x y

/-- Two elements lie in a lane (Table 9.2). -/
def twoPerLane (f : Sys2Proof.LaneFmt) : Bool := f == .bf16 || f == .fp16

/-- The predicate of a register: bit i for lane i; bits 2i and 2i + 1 for the elements of lane i where it holds two. -/
def laneCmp (op : Sys2Proof.LaneCmp) (f : Sys2Proof.LaneFmt) (i a b : Nat) : Nat :=
  if twoPerLane f then
    (bit (elemCmp op f (a % 65536) (b % 65536)) + 2 * bit (elemCmp op f (a / 65536) (b / 65536))) * 2 ^ (2 * i)
  else bit (elemCmp op f a b) * 2 ^ i

/-- One element's conversion between formats numbered as in MatOperand (R224 to R227). -/
def elemCvt (src dst a : Nat) : Cvt :=
  let v := match src with
    | 0 => decode .fp32 a
    | 1 => decode .bf16 (a % 65536)
    | 2 => decode .fp16 (a % 65536)
    | 3 => decode .e4m3 (a % 256)
    | 4 => decode .e5m2 (a % 256)
    | 5 => ofInt (sext 8 a)
    | 6 => ofInt (sext 4 a)
    | 7 => ofInt (a % 16 : Nat)
    | 9 => ofInt (sext 32 a)
    | _ => q4bV (a % 16)
  if dst = 10 then q4bEnc v else cvtValue dst v

/-- One lane's conversion: both halves where two elements of the source lie in it and the results fit, else its one element (log
entry 137). -/
def laneCvt (src dst a : Nat) : Cvt :=
  if (src = 1 ∨ src = 2) ∧ dst ≠ 0 ∧ dst ≠ 9 then
    let lo := elemCvt src dst (a % 65536)
    let hi := elemCvt src dst (a / 65536 % 65536)
    { bits := lo.bits + 65536 * hi.bits, sat := lo.sat + hi.sat, nan := lo.nan + hi.nan }
  else elemCvt src dst a

/-- Formats a lane can hold for a conversion. -/
def cvtFmt (f : Nat) : Bool := decide (f ≤ 10) && f != 8

/-- The element format that a two-level encoding pass writes (R241), by its number in MatOperand. -/
def scaleFormat (g : Nat) : Option Fmt :=
  match g with
  | 1 => some .bf16 | 3 => some .e4m3 | 4 => some .e5m2 | _ => none

/-- The vector pass of R241 (R266): the FP32 tile at src, in two-level form, as elements at dst and its scale table at `table`. -/
def Tile.scalePass (t : Tile) (g src rows cols dst table : Nat) : TileDone :=
  match scaleFormat g with
  | none => .fault 7
  | some f =>
    let n := rows * cols
    let blocks := rows * (cols / 16)
    if n = 0 ∨ cols % 16 ≠ 0 ∨ scratchBytes < src + 4 * n ∨ scratchBytes < dst + n * f.bytes ∨ scratchBytes < table + roundUp (16 + blocks) 64 then .fault 7
    else
      let r := twoLevel f (chunksOf cols (t.readTile src 4 n))
      .done ((t.write dst (r.elems.flatMap (natBytes f.bytes))).write table (scaleTable r.tscale r.scales)) r.sat r.nan

/-- VECTOR_OP. -/
def vectorOp (op : Sys2Proof.VecOp) (free : Nat → Nat) (t : Tile) : TileDone :=
  let zip2 := fun (g : Nat → Nat → Nat → Nat) (a b : Fin 64) =>
    (List.range 32).map (fun i => g (free i) (lget 0 (t.vreg a.val) i) (lget 0 (t.vreg b.val) i))
  match op with
  | .arith o f d a b => .done (t.setVreg d.val (zip2 (laneArith o f) a b)) 0 0
  | .fma f d a b c =>
    .done (t.setVreg d.val ((List.range 32).map (fun i =>
      laneFma f (free i) (lget 0 (t.vreg a.val) i) (lget 0 (t.vreg b.val) i) (lget 0 (t.vreg c.val) i)))) 0 0
  | .div d a b => .done (t.setVreg d.val (zip2 (fun _ => fdiv .fp32) a b)) 0 0
  | .fn o d a => .done (t.setVreg d.val ((t.vreg a.val).map (laneFn o))) 0 0
  | .cmp o f p a b =>
    let m := sumN ((List.range 32).map (fun i => laneCmp o f i (lget 0 (t.vreg a.val) i) (lget 0 (t.vreg b.val) i)))
    .done { t with preds := tset t.preds p m } 0 0
  | .cvt src dst d a =>
    if !cvtFmt src ∨ !cvtFmt dst then .fault 7
    else
      let rs := (t.vreg a.val).map (laneCvt src dst)
      .done (t.setVreg d.val (rs.map Cvt.bits)) (sumN (rs.map Cvt.sat)) (sumN (rs.map Cvt.nan))
  | .hsum d a => .done (t.setVreg d.val (groupSum .fp32 ((t.vreg a.val).map (decode .fp32)) :: List.replicate 31 0)) 0 0
  | .scale g src rows cols dst table => t.scalePass g src rows cols dst table
  | .load d p => if scratchBytes < p + 128 then .fault 7 else .done (t.setVreg d.val (t.readTile p 4 32)) 0 0
  | .store a p => if scratchBytes < p + 128 then .fault 7 else .done (t.write p ((t.vreg a.val).flatMap (natBytes 4))) 0 0

/-- VECTOR_OP by command n on tile t. -/
def vectorStep (n t : Nat) (op : Sys2Proof.VecOp) (s : State) : State :=
  let k := s.freeCtr
  let s1 := s.issue n t (vectorOp op (fun i => Config.freeValue (k + i)))
  if (s.mayIssue n t).isNone then s else { s1 with freeCtr := s1.freeCtr + 32 }

def execVectorOp (cmd : Nat) (tile : Fin 272) (op : Sys2Proof.VecOp) (s : State) : Outcome := .next (vectorStep cmd tile.val op s)

/-! ### FMT registers (R249) -/

/-- FMT_CLR: a write of FMT_CTL; CLR clears both counters, and FB_EVT is stored. -/
def fmtCtlWrite (v : Word32) (s : State) : State :=
  if s.bar0Off then s
  else
    let clr := flag v 1
    { s with fmt := { s.fmt with ctl := v &&& 1, sat := if clr then 0 else s.fmt.sat, nan := if clr then 0 else s.fmt.nan } }

def execFmtClr (value : Word32) (s : State) : Outcome := .next (fmtCtlWrite value s)

end Sys2Proof.Machine
end

