-- ==== Sys2Proof/Machine/RegWrite.lean ====
section
/-!
DEFINITION. Writes of set-up registers (R8 to R10, R46, R65, R70, R80, R81, R343, R428, R429, R472). A field with a row of
its own acts as that row does, but for SEC_FWU_CTL.GO, whose row carries the package.
-/

namespace Sys2Proof.Machine

/-- A field brought to the nearest end of its range (R428, R429, R472). -/
def clampFld (v : Word32) (lo n a b : Nat) : Word32 := setFld v lo n (clampN a b (fld v lo n))

/-- QM_RING_QOS as stored (R80). -/
def qosStored (v : Word32) : Word32 := clampFld (v &&& 0x7FFFF) 0 16 200 50000

/-! ### 32-bit registers -/

/-- HIF (Table 2.6). -/
def writeHif (o : Nat) (v : Word32) (s : State) : State :=
  match o with
  | 0x0008 => { s with hif := { s.hif with timerGap := s.hif.timerGap && (!flag v 7 || !s.module.refclk) } }
  | 0x000C => controlWrite v s
  | 0x0010 => deviceReset v s
  | 0x0014 => { s with hif := { s.hif with errStatus := w1c s.hif.errStatus v 0x7F } }
  | 0x0018 => { s with hif := { s.hif with errMask := v &&& 0x7F } }
  | 0x0040 => biasFlip v s
  | _ => s

/-- QM (R81): bases and sizes only while the pair is FREE. -/
def writeQm (o : Nat) (v : Word32) (s : State) : State :=
  let p := s.qm.ringSel
  match o with
  | 0x10000 => { s with qm := { s.qm with ringSel := fld v 0 12 } }
  | 0x10018 => s.modRing p (fun r => if r.state = .free then { r with cfg := v &&& 0x1FFF1F1F } else r)
  | 0x1001C => irqWrite p v s
  | 0x10020 => s.modRing p (fun r => { r with qos := qosStored v })
  | 0x10024 => match fld v 0 2 with
    | 1 => ringCreate p s
    | 2 => ringDestroy p s
    | 3 => destroyForce p s
    | _ => s
  | 0x10028 => s.modRing p (fun r => { r with refused := r.refused && !flag v 3 })
  | _ => s

/-- SCH_PART_CMD: an OP with no action only clears ERR (Table 12.2). -/
def partCmd (v : Word32) (s : State) : State :=
  let p := s.sch.partSel
  match fld v 0 3 with
  | 1 => partitionEnable p s
  | 2 => disable p s
  | 3 => disableForce p s
  | 4 => partitionReset p s
  | 5 => place [] p s
  | _ => s.partErr p 0

/-- SCH (R343). -/
def writeSch (o : Nat) (v : Word32) (s : State) : State :=
  let p := s.sch.partSel
  let x := s.sch.ctxSel
  match o with
  | 0x20000 => { s with sch := { s.sch with partSel := fld v 0 4 } }
  | 0x20010 => s.modPart p (fun q =>
      if q.state = .off then { q with cfg := v &&& 0x9FFFFFFF } else { q with cfg := (v &&& 0x8000FFFF) ||| (q.cfg &&& 0x1FFF0000) })
  | 0x20014 => s.modPart p (fun q => if q.state = .off then { q with mem := v } else q)
  | 0x20018 => partCmd v s
  | 0x20060 => { s with sch := { s.sch with wdog := (v &&& 0xFFFF) ||| (w1c s.sch.wdog v 0x80000000 &&& 0x8FFF0000) } }
  | 0x20100 => { s with sch := { s.sch with ctxSel := fld v 0 12 } }
  | 0x20104 => s.modCtx x (fun k =>
      if k.state = .free then { k with cfg := v &&& 0xFFFFF } else { k with cfg := (v &&& 0xFFFF) ||| (k.cfg &&& 0xF0000) })
  | 0x20108 => match fld v 0 2 with
    | 1 => contextCreate x s
    | 2 => contextDestroy x s
    | _ => s
  | _ => match regIdx 0x20040 4 6 o with
    | some n => s.modPart p (fun q => { q with bw := lmod q.bw n (fun r => { r with reg := v }) })
    | none => s

/-- PWR (R428). With CAP_EN = 0 the cap fraction is 0 (R414). -/
def writePwr (o : Nat) (v : Word32) (s : State) : State :=
  match o with
  | 0x30000 =>
    let w := clampFld (v &&& 0xF800FF00) 8 8 1 255
    let on := pwrCapEn w
    { s with pwr := { s.pwr with ctl := w, capDyn := if on then s.pwr.capDyn else 0, capFix := if on then s.pwr.capFix else 0 } }
  | 0x30004 => { s with pwr := { s.pwr with cap := clampFld (clampFld (v &&& 0xFF0FFF) 16 8 0 200) 0 12 600 1500 } }
  | 0x30010 => { s with pwr := { s.pwr with phaseSel := clampFld (v &&& 0x7F) 4 3 0 5 } }
  | 0x30014 => { s with pwr := { s.pwr with
      est := tset s.pwr.est s.phaseKey (BitVec.ofNat 32 (fdiv .fp32 (f32Nat (fld v 0 16)) (f32Nat 10))) } }
  | 0x30018 => { s with pwr := { s.pwr with ramp := clampFld (clampFld (clampFld (v &&& 0x80FFFFFF) 16 8 1 255) 8 8 50 255) 0 8 1 16 } }
  | 0x30388 => { s with pwr := { s.pwr with ringSel := fld v 0 12 } }
  | _ => match regIdx 0x30040 4 16 o with
    | some p => ({ s with pwr := { s.pwr with modes := tset s.pwr.modes p (clampFld (v &&& 0xC00003FF) 0 10 100 1000) } } : State).boostDrop
    | none => s

/-- THM (R429). -/
def writeThm (o : Nat) (v : Word32) (s : State) : State :=
  match o with
  | 0x40000 => { s with thm := { s.thm with ctl := clampFld (clampFld (v &&& 0xFFFF00) 16 8 85 100) 8 8 85 105 } }
  | 0x40004 => { s with thm := { s.thm with status := w1c s.thm.status v 7 } }
  | _ => s

/-- An ERR_INFO register: clearing VALID frees the pair for the next event (R403). -/
def State.errClear (s : State) (i : Nat) (v : Word32) : State :=
  { s with mem := { s.mem with errs := lmod s.mem.errs i (fun e => { e with valid := e.valid && !flag v 31, overflow := e.overflow && !flag v 30 }) } }

/-- STK and FAR (R402), with the scan-engine registers (R202). -/
def writeMem (o : Nat) (v : Word32) (s : State) : State :=
  let scrub := fun i => { s with mem := { s.mem with scrub := lmod s.mem.scrub i (fun _ => v &&& 0x800000FF) } }
  match o with
  | 0x500A8 => s.errClear 0 v
  | 0x50200 => scrub 0
  | 0x50204 => repairCtl false v s
  | 0x50210 => marginTest false v s
  | 0x58060 => { s with scan := { s.scan with seCtl := v &&& 1 } }
  | 0x58064 => { s with scan := { s.scan with satCtl := clampFld (v &&& 0x8F0FFFFF) 0 20 0 1000000 } }
  | 0x58068 => { s with scan := { s.scan with satSel := fld v 0 10 } }
  | 0x5806C => driftClear v s
  | 0x60004 => farHostWrite v s
  | 0x600A8 => s.errClear 1 v
  | 0x60200 => scrub 1
  | 0x60204 => repairCtl true v s
  | 0x60210 => marginTest true v s
  | _ => s

/-- JRN (R314, R447). -/
def writeJrn (o : Nat) (v : Word32) (s : State) : State :=
  match o with
  | 0x70004 => { s with jrn := { s.jrn with ctl := v &&& 0x1FFFF } }
  | 0x70048 => { s with jrn := { s.jrn with snapSel := fld v 0 12 } }
  | 0x70068 => snapDelete v s
  | 0x70070 => twinWrite v s
  | 0x700C0 => xferCtl v s
  | _ => s

/-- SEC, MGT, TST and FMT (R491, R472, R249). -/
def writeRest (o : Nat) (v : Word32) (s : State) : State :=
  match o with
  | 0x80028 => { s with sec := { s.sec with fwuLen := v } }
  | 0x8002C => fwuActivate (fld v 0 4) (if flag v 30 then fwuAbort s else s)
  | 0x90000 => { s with mgt := { s.mgt with ctl := clampFld (v &&& 7) 0 3 0 4 } }
  | 0x90004 => { s with mgt := { s.mgt with evtStatus := w1c s.mgt.evtStatus v 1 } }
  | 0x90044 => { s with mgt := { s.mgt with lifeSel := fld v 0 5 } }
  | 0xA0000 => { s with tst := { s.tst with ctl := clampFld (clampFld (v &&& 0x80FFFFFF) 16 8 10 120) 0 16 60 600 } }
  | 0xA0010 => { s with tst := { s.tst with unitSel := min 503 (fld v 0 9) } }
  | 0xA0020 => tstRetest v s
  | 0xB0000 => fmtCtlWrite v s
  | _ => s

/-- A word of the MSI-X table (R54, R55). -/
def writeMsix (o : Nat) (v : Word32) (s : State) : State :=
  let n := o % 65536 / 16
  let e : MsixEntry := tget {} s.hif.msix n
  let put := fun (e : MsixEntry) => { s with hif := { s.hif with msix := tset s.hif.msix n e } }
  if 0x8000 ≤ o % 65536 then s
  else match o % 16 / 4 with
    | 0 => put { e with addr := setFld e.addr 0 32 v.toNat }
    | 1 => put { e with addr := setFld e.addr 32 32 v.toNat }
    | 2 => put { e with data := v }
    | _ => if flag v 0 then put { e with mask := true } else msixUnmask n s

/-- A 32-bit register at offset o. -/
def write32 (o : Nat) (v : Word32) (s : State) : State :=
  match o / 65536 with
  | 0 => writeHif o v s
  | 1 => writeQm o v s
  | 2 => writeSch o v s
  | 3 => writePwr o v s
  | 4 => writeThm o v s
  | 5 | 6 => writeMem o v s
  | 7 => writeJrn o v s
  | 8 | 9 | 10 | 11 => writeRest o v s
  | 12 => if hdmBase ≤ o ∧ o < hdmBase + 0x90 then hdmWrite (o - hdmBase) v s else s
  | 13 => writeMsix o v s
  | _ => s

/-- A 64-bit register at offset o. -/
def write64 (o : Nat) (v : Word64) (s : State) : State :=
  match o with
  | 0x0028 => hifTodCommit v s
  | 0x10008 => s.modRing s.qm.ringSel (fun r => if r.state = .free then { r with sqBase := v &&& 0xFFFFFFFFFFFFF000 } else r)
  | 0x10010 => s.modRing s.qm.ringSel (fun r => if r.state = .free then { r with cqBase := v &&& 0xFFFFFFFFFFFFF000 } else r)
  | 0x20008 => s.modPart s.sch.partSel (fun q => if q.state = .off then { q with res := v &&& 0xFFFFFFFFFFFF } else q)
  | 0x20020 => s.modPart s.sch.partSel (fun q => { q with placeAddr := v &&& 0xFFFFFFFFFFFFFFC0 })
  | 0x70030 => { s with jrn := { s.jrn with collSel := fld v 0 10 } }
  | 0x700C8 => { s with jrn := { s.jrn with xfer := { s.jrn.xfer with addr := v &&& 0xFFFFFFFFFFFFF000 } } }
  | 0x700D0 => { s with jrn := { s.jrn with xfer := { s.jrn.xfer with start := v } } }
  | 0x700D8 => { s with jrn := { s.jrn with xfer := { s.jrn.xfer with stop := v } } }
  | 0x700E0 => xferHost (fld v 32 32) s
  | 0x80020 => { s with sec := { s.sec with fwuAddr := v &&& 0xFFFFFFFFFFFFF000 } }
  | 0x90018 => evtSelect v s
  | _ => s

/-- The low half last written to a 64-bit register, its current low half when none has been (R65). -/
def State.lowHalf (s : State) (o : Nat) : Nat :=
  match s.hif.lows.find? (fun l => l.1 == o) with
  | some l => l.2
  | none => s.word o

/-- Note the low half of a 64-bit register. -/
def State.noteLow (s : State) (o v : Nat) : State := { s with hif := { s.hif with lows := tset s.hif.lows o v } }

/-- One 32-bit write (R65): the low half of a 64-bit register waits for its high half. -/
def writeWord (o : Nat) (v : Word32) (s : State) : State :=
  if (s.reg64 o).isSome then s.noteLow o v.toNat
  else if o % 8 = 4 ∧ (s.reg64 (o - 4)).isSome then write64 (o - 4) (BitVec.ofNat 64 (v.toNat * 2 ^ 32 + s.lowHalf (o - 4))) s
  else write32 o v s

/-- A 64-bit write over two 32-bit registers acts on both. At HIF_RESET the clear of HIF_ERR_STATUS comes before the event
of a wrong key, which prevails (R10). -/
def writePair (o : Nat) (lo hi : Word32) (s : State) : State :=
  if o = 0x10 then write32 o lo (write32 (o + 4) hi s) else write32 (o + 4) hi (write32 o lo s)

/-- REGISTER_WRITE of 32 or 64 bits. While a level is in progress only HIF_RESET is written (R70). -/
def registerWrite (o : Nat) (wide : Bool) (v : Word64) (s : State) : State :=
  let lo : Word32 := v.truncate 32
  let hi : Word32 := (v >>> 32).truncate 32
  if o % (if wide then 8 else 4) ≠ 0 then badAccess o (if wide then 8 else 4) true s
  else if s.bar0Off then (if o = 0x10 then deviceReset lo s else s)
  else if !wide then writeWord o lo s
  else if (s.reg64 o).isSome then write64 o v (s.noteLow o lo.toNat)
  else writePair o lo hi s

def execRegisterWrite (offset : BitVec 21) (wide : Bool) (value : Word64) (s : State) : Outcome :=
  .next (registerWrite offset.toNat wide value s)

end Sys2Proof.Machine
end

