-- ==== Sys2Proof/Machine/Pldm.lean ====
section
/-!
DEFINITION. PLDM platform monitoring, effecter and FRU data (R489, R490, Table 17.6).
-/

namespace Sys2Proof.Machine

/-- A sensor's value: temperatures in 0.25 °C, power in 0.1 W, voltage as the register shows it, current in 0.1 A, and the
registers that the state sensors show; a failed rail of R502 shows as its number + 1 (log entry 37). -/
def State.sensorValue (s : State) : Sys2Proof.PldmSensor → Int
  | .hubTemp i => lget 0 s.thm.hub i.val
  | .baseTemp i => lget 0 s.thm.base i.val
  | .dramTemp i => lget 0 s.thm.dram i.val
  | .farTemp i => lget 0 s.thm.far i.val
  | .nandTemp => s.thm.nand
  | .inletTemp => s.thm.inlet
  | .inputPower => (fld s.pwr.input 0 16 : Nat)
  | .inputVoltage => (fld s.pwr.input 16 16 : Nat)
  | .railVoltage i => ((lget {} s.pwr.rails i.val).mv : Nat)
  | .railCurrent i => ((lget {} s.pwr.rails i.val).current : Nat)
  | .hifStatus => (s.hifStatus : Nat)
  | .unitCount n => (lget 0 [s.tilesActive, s.enginesActive, popN 8 s.farActive] n.val : Nat)
  | .secStatus => (s.sec.status : Nat)
  | .railFailure => match s.module.railFailed with
    | some r => (r + 1 : Nat)
    | none => 0
  | .bootFailure => (maskOf (s.sec.comps.map Comp.failed) : Nat)

/-- PLDM_GET_SENSOR. -/
def pldmGetSensor (i3c : Bool) (n : Sys2Proof.PldmSensor) (s : State) : State :=
  s.pldm i3c (fun s => s.reply (.sensor (s.sensorValue n)))

def execPldmGetSensor (i3c : Bool) (sensor : Sys2Proof.PldmSensor) (s : State) : Outcome := .next (pldmGetSensor i3c sensor s)

/-- PLDM_SET_EFFECTER: PWR_CAP.LIMIT_W, the one field both sides write (R490), stored at the nearest end of its range
(R428). -/
def pldmSetEffecter (i3c : Bool) (watts : Nat) (s : State) : State :=
  s.pldm i3c (fun s =>
    { s with pwr := { s.pwr with cap := setFld s.pwr.cap 0 12 (clampN 600 1500 watts) } }.reply (.pldm pldmOk))

def execPldmSetEffecter (i3c : Bool) (watts : Nat) (s : State) : Outcome := .next (pldmSetEffecter i3c watts s)

/-- PLDM_FRU_READ: stepping A1, the far-tier variant in TB, the serial number and the lifetime records. -/
def pldmFruRead (i3c : Bool) (s : State) : State :=
  s.pldm i3c (fun s => s.reply (.fru 0xA1 (if s.module.farVariant4 then 4 else 2) Config.serialNumber s.lifeRecords))

def execPldmFruRead (i3c : Bool) (s : State) : Outcome := .next (pldmFruRead i3c s)

end Sys2Proof.Machine
end

