-- ==== Sys2Proof/Machine/Streams.lean ====
section
/-!
DEFINITION. Stream units (R387 to R391, R360, R366), DMA engine faults and the memory-side adders (R381 to R383).
-/

namespace Sys2Proof.Machine

/-! ### Issue (R387, R388) -/

/-- Tags of an element. -/
def dTags (d : Desc) : Nat := cdiv (dElem d) 256

/-- Transfer tags of a stream unit. -/
def unitTags : Nat := 1024

/-- Tags that a stream holds: issued and not landed. -/
def Stream.out (x : Stream) : Nat := x.next - x.frontier * dTags x.desc - x.landed.length

/-- A stream issues requests while it is admitted and does not halt, up to its last element. -/
def Stream.more (x : Stream) : Nat := if x.admitted && !x.halted then dElems x.desc * dTags x.desc - x.next else 0

/-- The streams of one unit take the free tags, oldest first (log entry 136). -/
def issueFrom (tile : Nat) : Nat → List Stream → List Stream
  | _, [] => []
  | free, x :: t =>
    if x.tile = tile then
      let n := min free x.more
      { x with next := x.next + n } :: issueFrom tile (free - n) t
    else x :: issueFrom tile free t

/-- The stream unit of a tile issues the requests that its free tags allow (R388). -/
def State.issueTags (s : State) (tile : Nat) : State :=
  let used := sumN ((s.mem.streams.filter (fun x => x.tile == tile)).map Stream.out)
  { s with mem := { s.mem with streams := issueFrom tile (unitTags - used) s.mem.streams } }

/-- STREAM_DESCRIPTOR: the program on tile t issues a stream. One between tile groups waits for admission. -/
def streamDescriptor (n t : Nat) (d : Desc) (s : State) : State :=
  match s.mayIssue n t with
  | none => s
  | some c =>
    let r := s.takeTile n t
    if !r.2 ∨ s.tileWaits n t then r.1
    else
      let s := r.1
      match streamFault d (s.placement c).length ((s.placeOf c).map Prod.snd) with
      | some row => s.contextFault c.ctx row
      | none =>
        let id := maxL (s.mem.streams.map Stream.id) + 1
        let res := s.betweenGroups c d t
        let x : Stream := { id := id, ctx := c.ctx, cmd := n, tile := t, desc := d, reserve := res, admitted := !res, since := s.hif.timer }
        let s := { s with mem := { s.mem with streams := s.mem.streams ++ [x] } }.issueTags t
        let s := s.modTile t (fun y => { y with pos := y.pos + 1, credits := y.credits ++ [id] })
        if res ∧ s.waitCycle c.ctx then s.wdogFire c.ctx 1 else s

def execStreamDescriptor (cmd : Nat) (tile : Fin 272) (desc : Desc) (s : State) : Outcome :=
  .next (streamDescriptor cmd tile.val desc s)

/-! ### Admission (R360) -/

/-- Change one stream. -/
def State.modStream (s : State) (id : Nat) (f : Stream → Stream) : State :=
  { s with mem := { s.mem with streams := s.mem.streams.map (fun (x : Stream) => if x.id = id then f x else x) } }

/-- STREAM_ADMIT: the first stream of its partition that waits is admitted once its whole buffer is free. -/
def streamAdmit (id : Nat) (s : State) : State :=
  match s.mem.streams.find? (fun x => x.id == id) with
  | none => s
  | some x =>
    let mine := s.mem.streams.filter (fun y => (s.ctx y.ctx).part == (s.ctx x.ctx).part && y.reserve)
    let first := (mine.find? (fun y => !y.admitted)).map Stream.id
    if x.admitted ∨ first ≠ some id ∨ mine.any (fun y => y.admitted && s.buffersClash y x) then s
    else ((s.modStream id (fun x => { x with admitted := true, since := s.hif.timer })).issueTags x.tile).restoreFree (s.ctx x.ctx).part

def execStreamAdmit (stream : Nat) (s : State) : Outcome := .next (streamAdmit stream s)

/-! ### Landing (R388 to R391) -/

/-- The address of a side's element, as a number (wrapping below 0 cannot occur in the scratchpad). -/
def dAddr (d : Desc) (base : Nat) (stride : Nat → Int) (e : Nat) : Nat := ((base : Int) + dOffset d stride e).toNat

/-- What a device access of n bytes at a meets: nothing, a missing block that is or can be rebuilt (halt), or a stop: an
uncorrectable line, a block without a source or without room for its rebuild (R390, R391, R396). -/
inductive Reach where
  | ok | halt | stop
  deriving DecidableEq, Repr

def State.reach (s : State) (a n : Nat) : Reach :=
  let ms := s.mem.missing.filter (fun m => decide (m.block * blockBytes < a + n ∧ a < (m.block + 1) * blockBytes))
  if ms.any (fun m => !m.running && !s.canRebuild m) then .stop
  else if !ms.isEmpty then .halt
  else if (s.badLines a n).isEmpty then .ok else .stop

/-- Regulator of a device address for a class (R352): none for BG. -/
def bwIndex (cls a : Nat) : Option Nat := if cls ≥ 2 then none else some (cls + if a < farBase then 0 else 2)

/-- Data of n bytes at offset o of element e of a stream, or what stops it. -/
def State.streamRead (s : State) (c : Cmd) (d : Desc) (e o n : Nat) : Except Nat (List Byte) :=
  let a := dAddr d (if dSrcSpace d = 2 then spOff (dSrc d) else dSrc d) (dSrcStride d) e + o
  match dSrcSpace d with
  | 0 => .ok (s.devRead a n)
  | 1 => if s.hostOk a n then .ok (s.hostRead a n) else .error stHostMemFault
  | _ => .ok (memBytes (s.tile (((s.placement c)[spTile (dSrc d)]?).getD 0)).scratch a n)

/-- Deliver data to a stream's destination. -/
def State.streamWrite (s : State) (c : Cmd) (d : Desc) (e o : Nat) (bs : List Byte) : Except Nat State :=
  let a := dAddr d (if dDstSpace d = 2 then spOff (dDst d) else dDst d) (dDstStride d) e + o
  match dDstSpace d with
  | 0 => .ok (s.devWrite a bs)
  | 1 => if s.hostOk a bs.length then .ok (s.hostWrite a bs) else .error stHostMemFault
  | _ => .ok ((s.streamTiles c d).foldl (fun s t => s.modTile t (fun x => x.write a bs)) s)

/-- Move the frontier past every element whose tags have all landed. The fuel is the number of tags landed. -/
def Stream.settle : Nat → Stream → Stream
  | 0, x => x
  | n + 1, x =>
    let k := dTags x.desc
    if (List.range k).all (fun i => x.landed.contains (x.frontier * k + i)) then
      Stream.settle n { x with frontier := x.frontier + 1, landed := x.landed.filter (fun i => decide ((x.frontier + 1) * k ≤ i)) }
    else x

/-- What the two sides of an element meet in device memory. -/
def State.streamReach (s : State) (d : Desc) (e o n : Nat) : Reach :=
  let one := fun (sp base : Nat) (st : Nat → Int) => if sp = 0 then s.reach (dAddr d base st e + o) n else .ok
  match one (dSrcSpace d) (dSrc d) (dSrcStride d), one (dDstSpace d) (dDst d) (dDstStride d) with
  | .stop, _ => .stop
  | _, .stop => .stop
  | .ok, .ok => .ok
  | _, _ => .halt

/-- The device lines of an element that a stream's request meets are recorded (R398). -/
def State.streamMet (s : State) (d : Desc) (e o n : Nat) : State :=
  let one := fun (sp base : Nat) (st : Nat → Int) => if sp = 0 then s.badLines (dAddr d base st e + o) n else []
  s.meetRead (one (dSrcSpace d) (dSrc d) (dSrcStride d) ++ one (dDstSpace d) (dDst d) (dDstStride d))

/-- The regulators a request of a stream draws on (R352). -/
def streamBw (d : Desc) (e : Nat) : List Nat :=
  (if dSrcSpace d = 0 then (bwIndex (dClass d) (dAddr d (dSrc d) (dSrcStride d) e)).toList else []) ++
  (if dDstSpace d = 0 then (bwIndex (dClass d) (dAddr d (dDst d) (dDstStride d) e)).toList else [])

/-- The tile of a stream runs the command that issued it, and may go on. -/
def State.streamRuns (s : State) (c : Cmd) (x : Stream) : Bool := (s.tile x.tile).running == some c.seq && s.invRuns c x.tile

/-- TAG_LANDED: the request of tag k of element e, once issued, lands, and its tag is free for another. A request on a missing
block that is rebuilt halts the stream. -/
def tagLanded (id e k : Nat) (s : State) : State :=
  match s.mem.streams.find? (fun x => x.id == id) with
  | none => s
  | some x =>
    match s.cmd? x.cmd with
    | none => s
    | some c =>
      let d := x.desc
      let i := e * dTags d + k
      let n := min 256 (dElem d - 256 * k)
      if !x.admitted ∨ !s.streamRuns c x ∨ x.next ≤ i ∨ dTags d ≤ k ∨ e < x.frontier ∨ x.landed.contains i then s
      else match s.streamReach d e (256 * k) n with
        | .stop => (s.streamMet d e (256 * k) n).abortCmd c stUncorrectable false
        | .halt => if x.halted then s else s.modStream id (fun x => { x with halted := true, since := s.hif.timer })
        | .ok =>
          let ps := streamBw d e
          if !ps.all (s.bwOpen c.part) then s.modStream id (fun x => { x with bwWait := some (x.bwWait.getD s.hif.timer) })
          else match s.streamRead c d e (256 * k) n with
            | .error st => s.abortCmd c st false
            | .ok bs => match s.streamWrite c d e (256 * k) bs with
              | .error st => s.abortCmd c st false
              | .ok s =>
                let s := ps.foldl (fun s p => s.bwCharge c.part p n) s
                let wait := match x.bwWait with | some t => s.hif.timer - t | none => 0
                let s := s.modCmd x.cmd (addDelayOn (tileInv x.tile) 4 wait)
                let y := Stream.settle (x.landed.length + 1) { x with landed := x.landed ++ [i], since := s.hif.timer, bwWait := none }
                let s := if y.frontier = dElems d then { s with mem := { s.mem with streams := s.mem.streams.filter (fun z => z.id != id) } }
                  else s.modStream id (fun _ => y)
                s.issueTags x.tile

def execTagLanded (stream elem tag : Nat) (s : State) : Outcome := .next (tagLanded stream elem tag s)

/-- STREAM_RESUME: once no block of a halted stream is missing, it goes on after its frontier and requests every element beyond it
again; the halt is delay of cause 0x7. -/
def streamResume (id : Nat) (s : State) : State :=
  match s.mem.streams.find? (fun x => x.id == id) with
  | none => s
  | some x =>
    let n := dElem x.desc
    let e := x.frontier
    if !x.halted ∨ !((s.cmd? x.cmd).any (s.streamRuns · x)) ∨ (List.range (dElems x.desc - e)).any (fun i => decide (s.streamReach x.desc (e + i) 0 n = .halt)) then s
    else
      let wait := s.hif.timer - x.since
      let again : Stream → Stream := fun x => { x with halted := false, landed := [], next := x.frontier * dTags x.desc, since := s.hif.timer }
      ((s.modStream id again).issueTags x.tile).modCmd x.cmd (addDelayOn (tileInv x.tile) 7 wait)

def execStreamResume (stream : Nat) (s : State) : Outcome := .next (streamResume stream s)

/-- DMA_ENGINE_FAULT: the engine of a stream fails, or a host access of it does; its command stops (Table 13.9). -/
def dmaEngineFault (id : Nat) (host : Bool) (s : State) : State :=
  match s.mem.streams.find? (fun x => x.id == id) with
  | none => s
  | some x =>
    match s.cmd? x.cmd with
    | none => s
    | some c => s.abortCmd c (if host then stHostMemFault else stTransferFault) false

def execDmaEngineFault (stream : Nat) (host : Bool) (s : State) : Outcome := .next (dmaEngineFault stream host s)

/-! ### ATOMIC (R381 to R383) -/

/-- Bytes of an operand type. -/
def atomicBytes (t : Nat) : Nat := lget 4 [4, 2, 4, 8, 64] t

/-- The sum an adder writes for types 0 to 3. -/
def atomicAdd (t old x : Nat) : Nat :=
  match t with
  | 0 => fadd .fp32 old x
  | 1 => fadd .bf16 old x
  | 2 => (old + x) % 2 ^ 32
  | _ => (old + x) % 2 ^ 64

/-- The bytes an adder writes over the old bytes. -/
def atomicBytesOf (t : Nat) (old x : List Byte) : List Byte :=
  if t = 4 then (List.zipWith (fun a b => natBytes 4 (fadd .fp32 (bytesNat a) (bytesNat b))) (chunksOf 4 old) (chunksOf 4 x)).flatten
  else natBytes (atomicBytes t) (atomicAdd t (bytesNat old) (bytesNat x))

/-- ATOMIC: one add at TARGET. A buffer entry of its line is written first (R385). -/
def atomic (n : Nat) (s : State) : State :=
  match s.ready? n (· == opAtomic) with
  | none => s
  | some c =>
    let t := bitsOf (dSubop c.desc) 0 3
    let a := dfld c.desc 0x08 0 64
    let v := dfld c.desc 0x10 0 64
    let w := atomicBytes t
    match (if t = 4 then s.bufRead (dDevAddr c.desc) v 64 else .ok (natBytes w v)) with
    | .error st => (s.bufMet (dDevAddr c.desc) v 64).refuse c st
    | .ok x =>
      if !(s.badLines a w).isEmpty then (s.meetRead (s.badLines a w)).refuse c stUncorrectable
      else
        let g := s.bwRequest c.part [(n, wholeInv)] [(lcOf a, w)]
        if !g.1 then g.2
        else
        let s := g.2
        let old := s.devRead a w
        let far := if farBase ≤ a then s.randServed 1 else s
        let s := (far.wcbDrop (a / 64 * 64) 64).devMemPut a (atomicBytesOf t old x)
        s.complete (s.again c) stOk (if t = 4 then 0 else bytesNat old) 0 false false

def execAtomic (cmd : Nat) (s : State) : Outcome := .next (atomic cmd s)

end Sys2Proof.Machine
end

