-- ==== Sys2Proof/Machine/Dispatch.lean ====
section
/-!
DEFINITION. One arm per command: a direct call of its meaning.
-/

namespace Sys2Proof.Machine

def exec (i : Instr) (s : State) : Host.Outcome State Fault Refusal :=
  match i with
  | .search cmd meet => Sys2Proof.Machine.execSearch cmd meet s
  | .searchBatch cmd count meet => Sys2Proof.Machine.execSearchBatch cmd count meet s
  | .insert cmd => Sys2Proof.Machine.execInsert cmd s
  | .delete cmd => Sys2Proof.Machine.execDelete cmd s
  | .upsert cmd => Sys2Proof.Machine.execUpsert cmd s
  | .attrSet cmd => Sys2Proof.Machine.execAttrSet cmd s
  | .filterDefine cmd => Sys2Proof.Machine.execFilterDefine cmd s
  | .train cmd => Sys2Proof.Machine.execTrain cmd s
  | .build cmd => Sys2Proof.Machine.execBuild cmd s
  | .compact cmd => Sys2Proof.Machine.execCompact cmd s
  | .snapshot cmd => Sys2Proof.Machine.execSnapshot cmd s
  | .snapshotSession cmd => Sys2Proof.Machine.execSnapshotSession cmd s
  | .restore cmd => Sys2Proof.Machine.execRestore cmd s
  | .restoreSession cmd => Sys2Proof.Machine.execRestoreSession cmd s
  | .modelLoad cmd => Sys2Proof.Machine.execModelLoad cmd s
  | .modelUnload cmd => Sys2Proof.Machine.execModelUnload cmd s
  | .modelStep cmd meet => Sys2Proof.Machine.execModelStep cmd meet s
  | .atomic cmd => Sys2Proof.Machine.execAtomic cmd s
  | .fence cmd => Sys2Proof.Machine.execFence cmd s
  | .barrier cmd => Sys2Proof.Machine.execBarrier cmd s
  | .barrierTimeout part id => Sys2Proof.Machine.execBarrierTimeout part id s
  | .digest cmd => Sys2Proof.Machine.execDigest cmd s
  | .queryProgress cmd => Sys2Proof.Machine.execQueryProgress cmd s
  | .sanitise cmd => Sys2Proof.Machine.execSanitise cmd s
  | .format cmd => Sys2Proof.Machine.execFormat cmd s
  | .pause cmd => Sys2Proof.Machine.execPause cmd s
  | .pauseSave cmd => Sys2Proof.Machine.execPauseSave cmd s
  | .resume cmd => Sys2Proof.Machine.execResume cmd s
  | .descriptorFetch stores part => Sys2Proof.Machine.execDescriptorFetch stores part s
  | .globalObservation ring => Sys2Proof.Machine.execGlobalObservation ring s
  | .coalTimeExpiry ring => Sys2Proof.Machine.execCoalTimeExpiry ring s
  | .msixUnmask vector => Sys2Proof.Machine.execMsixUnmask vector s
  | .sqTail stores page value => Sys2Proof.Machine.execSqTail stores page value s
  | .cqHead page value => Sys2Proof.Machine.execCqHead page value s
  | .ringCreate => Sys2Proof.Machine.execRingCreate s
  | .ringDestroy => Sys2Proof.Machine.execRingDestroy s
  | .destroyForce => Sys2Proof.Machine.execDestroyForce s
  | .qmEnable value => Sys2Proof.Machine.execQmEnable value s
  | .deviceReset value => Sys2Proof.Machine.execDeviceReset value s
  | .hifTodCommit value => Sys2Proof.Machine.execHifTodCommit value s
  | .lowHalfReadLatch read => Sys2Proof.Machine.execLowHalfReadLatch read s
  | .highHalfRead offset => Sys2Proof.Machine.execHighHalfRead offset s
  | .registerWrite offset wide value => Sys2Proof.Machine.execRegisterWrite offset wide value s
  | .badAccess offset size write => Sys2Proof.Machine.execBadAccess offset size write s
  | .biasFlip value => Sys2Proof.Machine.execBiasFlip value s
  | .biasFlipDone => Sys2Proof.Machine.execBiasFlipDone s
  | .hostMemRead addr err => Sys2Proof.Machine.execHostMemRead addr err s
  | .hostMemWrite addr data mask => Sys2Proof.Machine.execHostMemWrite addr data mask s
  | .configRequest req => Sys2Proof.Machine.execConfigRequest req s
  | .decoderCommit index base size skip ctl => Sys2Proof.Machine.execDecoderCommit index base size skip ctl s
  | .powerStateChange d3 => Sys2Proof.Machine.execPowerStateChange d3 s
  | .cold railFail => Sys2Proof.Machine.execCold railFail s
  | .warm perst => Sys2Proof.Machine.execWarm perst s
  | .cxlReset memClr => Sys2Proof.Machine.execCxlReset memClr s
  | .flr => Sys2Proof.Machine.execFlr s
  | .resetComplete channels fails => Sys2Proof.Machine.execResetComplete channels fails s
  | .inputLoss => Sys2Proof.Machine.execInputLoss s
  | .holdupFlushDone => Sys2Proof.Machine.execHoldupFlushDone s
  | .inputBreakerTrip => Sys2Proof.Machine.execInputBreakerTrip s
  | .latchRelease => Sys2Proof.Machine.execLatchRelease s
  | .standbyPowerOn straps => Sys2Proof.Machine.execStandbyPowerOn straps s
  | .standbyPowerLoss => Sys2Proof.Machine.execStandbyPowerLoss s
  | .refclkLoss => Sys2Proof.Machine.execRefclkLoss s
  | .refclkReturn => Sys2Proof.Machine.execRefclkReturn s
  | .viral => Sys2Proof.Machine.execViral s
  | .ideIntegrityFailure stream aer => Sys2Proof.Machine.execIdeIntegrityFailure stream aer s
  | .ideKeyProgram session stream skid => Sys2Proof.Machine.execIdeKeyProgram session stream skid s
  | .linkReplay unit ok delay => Sys2Proof.Machine.execLinkReplay unit ok delay s
  | .retrainDone unit ok => Sys2Proof.Machine.execRetrainDone unit ok s
  | .evacuationDone stack lost => Sys2Proof.Machine.execEvacuationDone stack lost s
  | .scrubPatrol line err => Sys2Proof.Machine.execScrubPatrol line err s
  | .blockRebuild => Sys2Proof.Machine.execBlockRebuild s
  | .blockRebuildDone => Sys2Proof.Machine.execBlockRebuildDone s
  | .repairCtlRetest far value => Sys2Proof.Machine.execRepairCtlRetest far value s
  | .marginTest far value => Sys2Proof.Machine.execMarginTest far value s
  | .marginTestDone far lines errors => Sys2Proof.Machine.execMarginTestDone far lines errors s
  | .farHostWrite value => Sys2Proof.Machine.execFarHostWrite value s
  | .scanPassStart part coll list stack => Sys2Proof.Machine.execScanPassStart part coll list stack s
  | .gatherLimit part coll list stack => Sys2Proof.Machine.execGatherLimit part coll list stack s
  | .segmentDone stack engine => Sys2Proof.Machine.execSegmentDone stack engine s
  | .candidateRecord stack engine query slot => Sys2Proof.Machine.execCandidateRecord stack engine query slot s
  | .thetaUpdate cmd query stack => Sys2Proof.Machine.execThetaUpdate cmd query stack s
  | .coverageCutoff cmd => Sys2Proof.Machine.execCoverageCutoff cmd s
  | .scanEngineFault stack engine => Sys2Proof.Machine.execScanEngineFault stack engine s
  | .mergeUnitFault cluster cmds => Sys2Proof.Machine.execMergeUnitFault cluster cmds s
  | .mergeRow tile wide sim k row => Sys2Proof.Machine.execMergeRow tile wide sim k row s
  | .rangeLockGrant cmd => Sys2Proof.Machine.execRangeLockGrant cmd s
  | .frameEnterBuffer => Sys2Proof.Machine.execFrameEnterBuffer s
  | .framePersisted => Sys2Proof.Machine.execFramePersisted s
  | .nandProgramDone => Sys2Proof.Machine.execNandProgramDone s
  | .journalWriteFail => Sys2Proof.Machine.execJournalWriteFail s
  | .recordApply coll => Sys2Proof.Machine.execRecordApply coll s
  | .versionWrite coll what shard => Sys2Proof.Machine.execVersionWrite coll what shard s
  | .compactPublish cmd => Sys2Proof.Machine.execCompactPublish cmd s
  | .holdupLost mv => Sys2Proof.Machine.execHoldupLost mv s
  | .holdupCharged mv => Sys2Proof.Machine.execHoldupCharged mv s
  | .holdupMeasure capUF mv => Sys2Proof.Machine.execHoldupMeasure capUF mv s
  | .collectionRecovery => Sys2Proof.Machine.execCollectionRecovery s
  | .maintResume => Sys2Proof.Machine.execMaintResume s
  | .jrnLpEntry => Sys2Proof.Machine.execJrnLpEntry s
  | .jrnLpEntryDone => Sys2Proof.Machine.execJrnLpEntryDone s
  | .jrnLpExitDone => Sys2Proof.Machine.execJrnLpExitDone s
  | .snapDelete value => Sys2Proof.Machine.execSnapDelete value s
  | .jrnCollHseqRead => Sys2Proof.Machine.execJrnCollHseqRead s
  | .quiesce value => Sys2Proof.Machine.execQuiesce value s
  | .retainLost => Sys2Proof.Machine.execRetainLost s
  | .exportSnap value => Sys2Proof.Machine.execExportSnap value s
  | .exportFrames value => Sys2Proof.Machine.execExportFrames value s
  | .importSnap value => Sys2Proof.Machine.execImportSnap value s
  | .xferAbort value => Sys2Proof.Machine.execXferAbort value s
  | .xferHostChunk stores value => Sys2Proof.Machine.execXferHostChunk stores value s
  | .xferDeviceChunk => Sys2Proof.Machine.execXferDeviceChunk s
  | .partitionEnable => Sys2Proof.Machine.execPartitionEnable s
  | .disable => Sys2Proof.Machine.execDisable s
  | .disableForce => Sys2Proof.Machine.execDisableForce s
  | .partitionReset => Sys2Proof.Machine.execPartitionReset s
  | .partitionResetDone part => Sys2Proof.Machine.execPartitionResetDone part s
  | .place stores => Sys2Proof.Machine.execPlace stores s
  | .contextCreate => Sys2Proof.Machine.execContextCreate s
  | .contextDestroy => Sys2Proof.Machine.execContextDestroy s
  | .watchdog stream => Sys2Proof.Machine.execWatchdog stream s
  | .holdDeferExpiry ctx => Sys2Proof.Machine.execHoldDeferExpiry ctx s
  | .holderRestore ctx => Sys2Proof.Machine.execHolderRestore ctx s
  | .tileSaveDone tile => Sys2Proof.Machine.execTileSaveDone tile s
  | .semWait tile sem n => Sys2Proof.Machine.execSemWait tile sem n s
  | .semSignal tile sem n => Sys2Proof.Machine.execSemSignal tile sem n s
  | .semSet tile sem n => Sys2Proof.Machine.execSemSet tile sem n s
  | .streamDescriptor cmd tile desc => Sys2Proof.Machine.execStreamDescriptor cmd tile desc s
  | .streamAdmit stream => Sys2Proof.Machine.execStreamAdmit stream s
  | .tagLanded stream elem tag => Sys2Proof.Machine.execTagLanded stream elem tag s
  | .streamResume stream => Sys2Proof.Machine.execStreamResume stream s
  | .dmaEngineFault stream host => Sys2Proof.Machine.execDmaEngineFault stream host s
  | .matrixGroup cmd tile setY slot rows cols len first init a b => Sys2Proof.Machine.execMatrixGroup cmd tile setY slot rows cols len first init a b s
  | .combine cmd tile fmt rows cols parts dst => Sys2Proof.Machine.execCombine cmd tile fmt rows cols parts dst s
  | .drain cmd tile setY word => Sys2Proof.Machine.execDrain cmd tile setY word s
  | .drainDone tile => Sys2Proof.Machine.execDrainDone tile s
  | .slotTileWrite cmd tile setY slot fmt rows cols src => Sys2Proof.Machine.execSlotTileWrite cmd tile setY slot fmt rows cols src s
  | .slotTileRead cmd tile setY slot fmt rows cols dst => Sys2Proof.Machine.execSlotTileRead cmd tile setY slot fmt rows cols dst s
  | .vectorOp cmd tile op => Sys2Proof.Machine.execVectorOp cmd tile op s
  | .modelActivate part group slot => Sys2Proof.Machine.execModelActivate part group slot s
  | .unitStall unit => Sys2Proof.Machine.execUnitStall unit s
  | .testSlice unit pass worn => Sys2Proof.Machine.execTestSlice unit pass worn s
  | .testOverdue unit => Sys2Proof.Machine.execTestOverdue unit s
  | .tstRetest value => Sys2Proof.Machine.execTstRetest value s
  | .railCurrentReport rail current mv => Sys2Proof.Machine.execRailCurrentReport rail current mv s
  | .inputPowerReport power vin u meas energy unassigned paceMiss => Sys2Proof.Machine.execInputPowerReport power vin u meas energy unassigned paceMiss s
  | .thermalReport hub base dram far nand inlet => Sys2Proof.Machine.execThermalReport hub base dram far nand inlet s
  | .vrAlertAssert => Sys2Proof.Machine.execVrAlertAssert s
  | .vrAlertDeassert => Sys2Proof.Machine.execVrAlertDeassert s
  | .parkQueueJoin tile => Sys2Proof.Machine.execParkQueueJoin tile s
  | .rampStep => Sys2Proof.Machine.execRampStep s
  | .driftClear value => Sys2Proof.Machine.execDriftClear value s
  | .fmtClr value => Sys2Proof.Machine.execFmtClr value s
  | .evtSelect value => Sys2Proof.Machine.execEvtSelect value s
  | .prSecTick => Sys2Proof.Machine.execPrSecTick s
  | .prSecStore => Sys2Proof.Machine.execPrSecStore s
  | .calendarRecompute => Sys2Proof.Machine.execCalendarRecompute s
  | .signTokenRefill => Sys2Proof.Machine.execSignTokenRefill s
  | .aakGenerationDone => Sys2Proof.Machine.execAakGenerationDone s
  | .getVersion transport => Sys2Proof.Machine.execGetVersion transport s
  | .getCapabilities transport => Sys2Proof.Machine.execGetCapabilities transport s
  | .negotiateAlgorithms transport common => Sys2Proof.Machine.execNegotiateAlgorithms transport common s
  | .getDigests transport => Sys2Proof.Machine.execGetDigests transport s
  | .getCertificate transport slot => Sys2Proof.Machine.execGetCertificate transport slot s
  | .challenge transport slot => Sys2Proof.Machine.execChallenge transport slot s
  | .getMeasurements transport which signed => Sys2Proof.Machine.execGetMeasurements transport which signed s
  | .keyExchange transport => Sys2Proof.Machine.execKeyExchange transport s
  | .finish transport session hmac => Sys2Proof.Machine.execFinish transport session hmac s
  | .keyUpdate transport session => Sys2Proof.Machine.execKeyUpdate transport session s
  | .heartbeat transport session => Sys2Proof.Machine.execHeartbeat transport session s
  | .endSession transport session => Sys2Proof.Machine.execEndSession transport session s
  | .respondIfReady transport => Sys2Proof.Machine.execRespondIfReady transport s
  | .pldmFirmwareUpdate i3c comps bytes => Sys2Proof.Machine.execPldmFirmwareUpdate i3c comps bytes s
  | .activateFirmware i3c => Sys2Proof.Machine.execActivateFirmware i3c s
  | .pldmSetEffecter i3c watts => Sys2Proof.Machine.execPldmSetEffecter i3c watts s
  | .pldmGetSensor i3c sensor => Sys2Proof.Machine.execPldmGetSensor i3c sensor s
  | .pldmFruRead i3c => Sys2Proof.Machine.execPldmFruRead i3c s
  | .fwuGo comps => Sys2Proof.Machine.execFwuGo comps s
  | .fwuAbort => Sys2Proof.Machine.execFwuAbort s
  | .fwuActivate comps => Sys2Proof.Machine.execFwuActivate comps s
  | .fwuStagingDone malformed images => Sys2Proof.Machine.execFwuStagingDone malformed images s
  | .perstNDeassert => Sys2Proof.Machine.execPerstNDeassert s
  | .linkTrainingDone rate width cacheMem => Sys2Proof.Machine.execLinkTrainingDone rate width cacheMem s
  | .bwRegulatorRefill part n ns => Sys2Proof.Machine.execBwRegulatorRefill part n ns s
  | .tileUnitFault tile => Sys2Proof.Machine.execTileUnitFault tile s
  | .lineInitialisation => Sys2Proof.Machine.execLineInitialisation s
  | .buildDone cmd => Sys2Proof.Machine.execBuildDone cmd s
  | .modelLoadDone cmd => Sys2Proof.Machine.execModelLoadDone cmd s
  | .restoreDone cmd => Sys2Proof.Machine.execRestoreDone cmd s
  | .maintDone => Sys2Proof.Machine.execMaintDone s
  | .setEndpointId i3c eid => Sys2Proof.Machine.execSetEndpointId i3c eid s
  | .i3cDynamicAddress addr => Sys2Proof.Machine.execI3cDynamicAddress addr s

end Sys2Proof.Machine
end

