-- ==== Sys2Proof/Machine/Tick.lean ====
section
/-!
DEFINITION. What one cycle of the 100 MHz reference clock does (R62, R66).
-/

namespace Sys2Proof.Machine

/-- HIF_TIMER runs while the module is powered and the reference clock is present. -/
def State.clockRuns (s : State) : Bool := s.module.rails && s.module.refclk

/-- Engine time of t ns: each tile that runs an invocation charges its command's context; a segment's engine is busy (R350). -/
def State.engineTime (s : State) (t : Nat) : State :=
  let run := fun (s : State) (x : Nat × Tile) =>
    match x.2.running.bind s.cmd? with
    | some c => s.chargeEngine c.ctx t
    | none => s
  let work : Pass → Pass := fun a => if a.engine.isSome then { a with busy := a.busy + t } else a
  let s := s.tiles.foldl run s
  { s with scan := { s.scan with passes := s.scan.passes.map work } }

/-- One reference-clock cycle: the cap fractions of the active phases (R412), 10 timer units, engine time, and the durations that are
measured on the timer. -/
def tick (s : State) : State :=
  if s.clockRuns then
    let s := (s.capRefresh.powerTime 10).engineTime 10
    { s with hif := { s.hif with timer := (s.hif.timer + 10) % 2 ^ 64 } }
  else s

end Sys2Proof.Machine
end

