-- ==== Sys2Proof/Safety.lean ====
section
/-!
DEFINITION. What counts as a safe run of the block: a step answers a next state, and the bounds the spec puts on what
the block holds are kept.
-/

namespace Sys2Proof.Machine

/-- The step answers a next state. -/
def stepsOn (s : State) : Prop := ∃ t, step s = .next t

/-- A ring pair's LAT_BOUND holds a value R80 lets it store. -/
def latBoundOk (r : Ring) : Prop := 200 ≤ qosBound r.qos ∧ qosBound r.qos ≤ 50000

/-- The bounds, over the fields they are about: host and device memory in canonical form; HIF_TIMER a 64-bit number (R62);
at most 65,536 event records (R452); at most 1,024 signature tokens (R477); every ring pair's LAT_BOUND in range (R80);
at most 256 entries in the range-lock table (R285). -/
def boundsOf (host dev : List Host.Cell) (timer events tokens : Nat) (rings : List (Nat × Ring)) (locks : Nat) : Prop :=
  Memory.wf host = true ∧ Memory.wf dev = true ∧ timer < 2 ^ 64 ∧ events ≤ 65536 ∧ tokens ≤ 1024 ∧
  (∀ r ∈ rings, latBoundOk r.2) ∧ locks ≤ 256

/-- The bounds of a state. -/
abbrev State.bounded (s : State) : Prop :=
  boundsOf s.hostMem s.mem.dev s.hif.timer s.mgt.events.length s.sec.tokens s.qm.rings s.jrn.locks.length

end Sys2Proof.Machine
end

