-- ==== Sys2Proof/Certificates/Slice0/Obligations.lean ====
section
/-!
DEFINITION. The statements for the provers. `t = { s with f := t.f }` says that nothing but field f changed.
-/

section
open Sys2Proof Sys2Proof.Machine


/-- A step takes the command at the front of the queue and runs it on the state with the queue's rest; with an empty queue
it is one cycle of the reference clock (the model's choice, log entry 4). -/
def Obligations.StepRunsTheFrontCommand : Prop :=
  (∀ (c : Instr) (rest : List Instr) (s : State), s.pending = c :: rest → step s = exec c { s with pending := rest }) ∧
  (∀ s : State, s.pending = [] → step s = .next (tick s))

/-- Every command answers a next state: nothing the host or the environment sends faults or is refused.
Where a clause goes beyond the rules cited it is the model's choice: log entry 6. -/
def Obligations.EveryCommandAnswersANextState : Prop := ∀ (i : Instr) (s : State), ∃ t, exec i s = .next t

/-- The bounds of Safety.lean hold right after reset.
Where a clause goes beyond the rules cited it is the model's choice: log entry 3. -/
def Obligations.ResetIsWithinBounds : Prop := State.reset.bounded

/-- Every step keeps the bounds of Safety.lean: both memories canonical, HIF_TIMER below 2^64, at most 65,536 event records,
at most 1,024 signature tokens, every LAT_BOUND in 200..50,000 and at most 256 range locks. -/
def Obligations.EveryStepKeepsTheBounds : Prop :=
  ∀ s t : State, s.bounded → step s = .next t → t.bounded

/-- SQ_TAIL. Outside a reset level, on an ACTIVE pair: a value below the ring size becomes SQ_TAIL; another value puts the
pair in ERROR with ERR_CAUSE 1 and records RING_ERROR. On a pair that is not ACTIVE nothing happens but the host's stores.
Where a clause goes beyond the rules cited it is the model's choice: log entry 53. -/
def Obligations.SqTailDoorbell : Prop :=
  ∀ (s : State) (stores : List Host.Cell) (page : BitVec 12) (value : Word32), s.hif.inReset = none →
    ((s.ring page.toNat).state = .active → value.toNat % 65536 < (s.ring page.toNat).sqSize →
      ∃ t, exec (.sqTail stores page value) s = .next t ∧ (t.ring page.toNat).sqTail = value.toNat % 65536 ∧
        (t.ring page.toNat).state = .active ∧ (t.ring page.toNat).sqHead = (s.ring page.toNat).sqHead ∧
        (∀ q, q ≠ page.toNat → t.ring q = s.ring q) ∧ t.hostMem = memCells s.hostMem stores ∧
        t = { s with hostMem := t.hostMem, qm := { s.qm with rings := t.qm.rings }, sch := { s.sch with ctxs := t.sch.ctxs } }) ∧
    ((s.ring page.toNat).state = .active → (s.ring page.toNat).sqSize ≤ value.toNat % 65536 →
      ∃ t, exec (.sqTail stores page value) s = .next t ∧ (t.ring page.toNat).state = .error ∧ (t.ring page.toNat).errCause = 1 ∧
        (∀ q, q ≠ page.toNat → t.ring q = s.ring q) ∧ t.hostMem = memCells s.hostMem stores ∧ t.sch = s.sch) ∧
    ((s.ring page.toNat).state ≠ .active → exec (.sqTail stores page value) s = .next (s.hostStores stores))

/-- R88. On an ACTIVE pair, a CQ_HEAD value from the last released index up to CQ_TAIL, both included, releases every record before it and
no other, and becomes CQ_HEAD; any other value puts the pair in ERROR with ERR_CAUSE 7. -/
def Obligations.CqHeadDoorbell : Prop :=
  ∀ (s : State) (page : BitVec 12) (value : Word32), s.hif.inReset = none → (s.ring page.toNat).state = .active →
    let r := s.ring page.toNat
    let v := value.toNat % 65536
    (v < r.cqSize ∧ (v + r.cqSize - r.cqHead) % r.cqSize ≤ (r.cqTail + r.cqSize - r.cqHead) % r.cqSize →
      ∃ t, exec (.cqHead page value) s = .next t ∧ (t.ring page.toNat).cqHead = v ∧
        (∀ d, d ∈ t.qm.done ↔ d ∈ s.qm.done ∧ ¬ (d.ring = page.toNat ∧ d.index ∈ ringSpan r.cqSize r.cqHead v)) ∧
        (∀ q, q ≠ page.toNat → t.ring q = s.ring q) ∧
        t = { s with qm := { s.qm with rings := t.qm.rings, done := t.qm.done }, sch := { s.sch with ctxs := t.sch.ctxs } }) ∧
    (r.cqSize ≤ v ∨ (r.cqTail + r.cqSize - r.cqHead) % r.cqSize < (v + r.cqSize - r.cqHead) % r.cqSize →
      ∃ t, exec (.cqHead page value) s = .next t ∧ (t.ring page.toNat).state = .error ∧ (t.ring page.toNat).errCause = 7 ∧
        t.hostMem = s.hostMem ∧ t.sch = s.sch)

/-- RING_CREATE on the pair QM_RING_SEL names. A FREE pair whose sizes and context are in range becomes ACTIVE with empty
rings and phase 1; sizes or context out of range leave it FREE with ERR_CAUSE 4 or 5; a pair that is not FREE only sets
REFUSED.
RING_DESTROY on the pair QM_RING_SEL names: an ACTIVE or ERROR pair with no command in flight, in a partition that is not
DRAINING, becomes FREE with its indices as they stand; with commands in flight and none waiting at a BARRIER it becomes DRAINING; a FREE or
DRAINING pair only sets REFUSED. DESTROY_FORCE frees a pair that is not FREE and has no command in flight, and sets REFUSED on a
FREE one.
QM_ENABLE, a write of HIF_CONTROL. It takes where READY is 1 and VIRAL is 0; else the bit stays 0 and HIF_ERR_STATUS bit 1
is set. -/
def Obligations.RingsAreCreatedAndDestroyed : Prop :=
  (∀ s : State, s.hif.inReset = none →
      let p := s.qm.ringSel
      let r := s.ring p
      let sized := 4 ≤ cfgSqLog r.cfg ∧ cfgSqLog r.cfg ≤ 16 ∧ 4 ≤ cfgCqLog r.cfg ∧ cfgCqLog r.cfg ≤ 16
      (r.state = .free → sized → s.ctxFits p (cfgContext r.cfg) = true → exec .ringCreate s = .next (s.modRing p ringFresh)) ∧
      (r.state = .free → ¬ sized → exec .ringCreate s = .next (s.modRing p (fun r => { r with errCause := 4 }))) ∧
      (r.state = .free → sized → s.ctxFits p (cfgContext r.cfg) = false →
        exec .ringCreate s = .next (s.modRing p (fun r => { r with errCause := 5 }))) ∧
      (r.state ≠ .free → exec .ringCreate s = .next (s.modRing p (fun r => { r with refused := true })))) ∧
  (∀ s : State, s.hif.inReset = none →
      let p := s.qm.ringSel
      let r := s.ring p
      (r.state = .active ∨ r.state = .error → (∀ c ∈ s.qm.cmds, c.ring ≠ p) → r.inflight = 0 →
        (s.part (fld (s.ctx (cfgContext r.cfg)).cfg 16 4)).state ≠ .draining →
        exec .ringDestroy s = .next (s.modRing p (fun r => { r with state := .free, cover := [] }))) ∧
      (r.state = .active ∨ r.state = .error → (∀ c ∈ s.qm.cmds, s.waitsAtBarrier c.seq = false) → r.inflight ≠ 0 →
        (s.part (fld (s.ctx (cfgContext r.cfg)).cfg 16 4)).state ≠ .draining →
        exec .ringDestroy s = .next (s.modRing p (fun r => { r with state := .draining }))) ∧
      (r.state = .free ∨ r.state = .draining → exec .ringDestroy s = .next (s.modRing p (fun r => { r with refused := true }))) ∧
      (r.state ≠ .free → (∀ c ∈ s.qm.cmds, c.ring ≠ p) → r.inflight = 0 →
        (s.part (fld (s.ctx (cfgContext r.cfg)).cfg 16 4)).state ≠ .draining →
        exec .destroyForce s = .next (s.modRing p (fun r => { r with state := .free, cover := [] }))) ∧
      (r.state = .free → exec .destroyForce s = .next (s.modRing p (fun r => { r with refused := true })))) ∧
  (∀ (s : State) (v : Word32), s.hif.inReset = none →
      (flag v 0 = false ∨ (s.hif.ready = true ∧ s.hif.viral = false) →
        exec (.qmEnable v) s = .next { s with hif := { s.hif with control := (v &&& 6) ||| (if flag v 0 then 1 else 0) } }) ∧
      (flag v 0 = true → s.hif.ready = false ∨ s.hif.viral = true →
        exec (.qmEnable v) s = .next (({ s with hif := { s.hif with control := v &&& 6 } } : State).hifErr 1)))

/-- GLOBAL_OBSERVATION of a ring pair's oldest record: the message that is due after it is sent, else nothing but the wait
ends. COAL_TIME_EXPIRY of an unsignalled record that has waited COAL_TIME µs: one message, at once when no record is in
flight to the host, else after the last one. -/
def Obligations.MessagesAreSentOnce : Prop :=
  (∀ (s : State) (ring : BitVec 12) (t : List Bool), (s.ring ring.toNat).goWait = false :: t →
    exec (.globalObservation ring) s = .next (s.modRing ring.toNat (fun r => { r with goWait := t }))) ∧
  (∀ (s : State) (ring : BitVec 12) (t : List Bool), (s.ring ring.toNat).goWait = true :: t →
    exec (.globalObservation ring) s =
      .next ((s.modRing ring.toNat (fun r => { r with goWait := t })).msixSend (fld (s.ring ring.toNat).irq 0 11))) ∧
  (∀ (s : State) (ring : BitVec 12), fld (s.ring ring.toNat).irq 0 11 ≠ 0 → fld (s.ring ring.toNat).irq 20 12 ≠ 0 →
    (s.ring ring.toNat).unsig ≠ 0 → (s.ring ring.toNat).oldest + 1000 * fld (s.ring ring.toNat).irq 20 12 ≤ s.hif.timer →
    (s.ring ring.toNat).goWait = [] →
    exec (.coalTimeExpiry ring) s =
      .next ((s.modRing ring.toNat (fun r => { r with unsig := 0 })).msixSend (fld (s.ring ring.toNat).irq 0 11)))

/-- R55. A message of a vector whose entry, or the function, is masked sets its pending bit and sends nothing; of another it is sent, or
held while an IDE failure holds the device's requests (R487). MSIX_UNMASK: a pending vector sends one message, another sends none;
while a reset level is in progress nothing happens. -/
def Obligations.MaskedVectorsSendOneMessage : Prop :=
  (∀ (s : State) (v : Nat),
    ((tget ({} : MsixEntry) s.hif.msix v).mask = true ∨ s.hif.msixFuncMask = true →
      (tget ({} : MsixEntry) (s.msixSend v).hif.msix v).pend = true ∧ (s.msixSend v).hif.msgs = s.hif.msgs ∧
        (s.msixSend v).sec = s.sec) ∧
    ((tget ({} : MsixEntry) s.hif.msix v).mask = false → s.hif.msixFuncMask = false → s.sec.ideHold = false →
      s.msixSend v = { s with hif := { s.hif with msgs := s.hif.msgs ++ [v] } }) ∧
    ((tget ({} : MsixEntry) s.hif.msix v).mask = false → s.hif.msixFuncMask = false → s.sec.ideHold = true →
      s.msixSend v = { s with sec := { s.sec with held := s.sec.held ++ [.msg v] } })) ∧
  (∀ (s : State) (vector : BitVec 11), s.hif.inReset = none → (tget ({} : MsixEntry) s.hif.msix vector.toNat).pend = true →
    s.hif.msixFuncMask = false → s.sec.ideHold = false →
    ∃ t, exec (.msixUnmask vector) s = .next t ∧ t.hif.msgs = s.hif.msgs ++ [vector.toNat] ∧
      tget {} t.hif.msix vector.toNat = { tget ({} : MsixEntry) s.hif.msix vector.toNat with mask := false, pend := false } ∧
      t = { s with hif := { s.hif with msix := t.hif.msix, msgs := t.hif.msgs } }) ∧
  (∀ (s : State) (vector : BitVec 11), s.hif.inReset = none → (tget ({} : MsixEntry) s.hif.msix vector.toNat).pend = false →
    ∃ t, exec (.msixUnmask vector) s = .next t ∧ (tget ({} : MsixEntry) t.hif.msix vector.toNat).mask = false ∧
      (∀ v, v ≠ vector.toNat → tget ({} : MsixEntry) t.hif.msix v = tget {} s.hif.msix v) ∧
      t = { s with hif := { s.hif with msix := t.hif.msix } }) ∧
  (∀ (s : State) (vector : BitVec 11), s.hif.inReset ≠ none → exec (.msixUnmask vector) s = .next s)

/-- A FENCE whose earlier commands have completed flushes the write-combining buffer, counts its wait as delay of the commands it
held, and completes with ST_OK; another keeps waiting.
A BARRIER that is first at its instance opens it and waits; one that names other participants completes with
ST_BARRIER_MISMATCH and arrives at none; a further one waits, and the last participant completes all with ST_OK. One that would wait
on a DRAINING pair completes with ST_ABORT_DISABLE (the model's choice, log entry 126). BARRIER_TIMEOUT of an instance past its
TIMEOUT_US completes its arrivals with ST_BARRIER_TIMEOUT; before that it does nothing.
Where a clause goes beyond the rules cited it is the model's choice: log entries 55, 56, 126. -/
def Obligations.FencesAndBarriers : Prop :=
  (∀ (s : State) (n : Nat) (c : Cmd), s.ready? n (· == opFence) = some c →
      (s.fenceReady c = true →
        exec (.fence n) s =
          .next ((({ s with mem := { s.mem with wcb := [] } } : State).syncHeld c).complete (addDelay 8 (s.hif.timer - c.stamp) c)
            stOk 0 0 false false)) ∧
      (s.fenceReady c = false → exec (.fence n) s = .next (s.start n))) ∧
  ((∀ (s : State) (n : Nat) (c : Cmd), s.ready? n (· == opBarrier) = some c →
      s.earlier c (fun x => x.ring == c.ring) = false → s.waitsAtBarrier n = false →
      s.qm.barriers.find? (fun b => b.1 == 256 * c.part + dSubop c.desc % 256) = none →
      ((s.ring c.ring).state = .draining →
        exec (.barrier n) s = .next (((s.start n).syncHeld c).stop c stAbortDisable)) ∧
      ((s.ring c.ring).state ≠ .draining → ∃ t, exec (.barrier n) s = .next t ∧
        tget { participants := 0, timeoutUs := 0, first := 0, arrived := [] } t.qm.barriers (256 * c.part + dSubop c.desc % 256) =
          { participants := dfld c.desc 0x08 0 16, timeoutUs := dfld c.desc 0x0C 0 32, first := s.hif.timer, arrived := [n] } ∧
        t = { s with qm := { s.qm with cmds := t.qm.cmds, barriers := t.qm.barriers } })) ∧
    (∀ (s : State) (n k : Nat) (c : Cmd) (b : Barrier), s.ready? n (· == opBarrier) = some c →
      s.earlier c (fun x => x.ring == c.ring) = false → s.waitsAtBarrier n = false →
      s.qm.barriers.find? (fun b => b.1 == 256 * c.part + dSubop c.desc % 256) = some (k, b) →
      (b.participants ≠ dfld c.desc 0x08 0 16 →
        exec (.barrier n) s = .next ((s.start n).complete c stBarrierMismatch 0 0 false false)) ∧
      (b.participants = dfld c.desc 0x08 0 16 → b.arrived.length + 1 ≠ b.participants →
        ((s.ring c.ring).state = .draining →
          exec (.barrier n) s = .next (((s.start n).syncHeld c).stop c stAbortDisable)) ∧
        ((s.ring c.ring).state ≠ .draining → ∃ t, exec (.barrier n) s = .next t ∧
          tget b t.qm.barriers (256 * c.part + dSubop c.desc % 256) = { b with arrived := b.arrived ++ [n] } ∧
          t = { s with qm := { s.qm with cmds := t.qm.cmds, barriers := t.qm.barriers } })) ∧
      (b.participants = dfld c.desc 0x08 0 16 → b.arrived.length + 1 = b.participants →
        exec (.barrier n) s = .next ((s.start n).barrierRelease (256 * c.part + dSubop c.desc % 256)
          { b with arrived := b.arrived ++ [n] } stOk))) ∧
    (∀ (s : State) (part : BitVec 4) (id : BitVec 8) (k : Nat) (b : Barrier),
      s.qm.barriers.find? (fun b => b.1 == 256 * part.toNat + id.toNat) = some (k, b) →
      (b.timeoutUs ≠ 0 → b.first + 1000 * b.timeoutUs ≤ s.hif.timer →
        exec (.barrierTimeout part id) s = .next (s.barrierRelease k b stBarrierTimeout)) ∧
      (b.timeoutUs = 0 ∨ s.hif.timer < b.first + 1000 * b.timeoutUs → exec (.barrierTimeout part id) s = .next s)))

/-- Ending a command: outside viral, with its record's line reachable and no hold, the 32-byte record stands at the CQ tail in one
write of its 64-byte line, whose other half is as the host and the device's own writes left it; the
CQ tail moves on by one modulo the ring size with the phase inverted at the wrap, INFLIGHT falls by one and the command is gone;
other ring pairs and every byte of host memory outside the line stay, and so does the journal store but for a snapshot whose deletion
waited for this command. -/
def Obligations.CompletionWritesItsRecord : Prop :=
  ∀ (s : State) (c : Cmd) (st spec0 spec1 : Nat) (result trunc : Bool),
    let r := s.ring c.ring
    let a := (r.cqBase.toNat / 4096) * 4096 + 32 * r.cqTail
    let line := a / 64 * 64
    let other := if a % 64 = 0 then line + 32 else line
    s.hif.viral = false → s.hostOk line 64 = true → s.sec.ideHold = false → Memory.wf s.hostMem = true → r.state = .active →
    let t := s.finish c st spec0 spec1 result trunc
    (∃ fl, memBytes t.hostMem a 32 =
      recordBytes (dTag c.desc) st r.sqHead fl s.hif.timer spec0 spec1 (satN 32 (s.hif.timer - c.stamp)) ∧ fl % 2 = bit r.phase) ∧
    memBytes t.hostMem other 32 = s.hostSeen other 32 ∧
    (∀ x, x < line ∨ line + 64 ≤ x → memGet t.hostMem x = memGet s.hostMem x) ∧
    (t.ring c.ring).cqTail = (if r.cqTail + 1 = r.cqSize then 0 else r.cqTail + 1) ∧
    (t.ring c.ring).phase = (if r.cqTail + 1 = r.cqSize then !r.phase else r.phase) ∧
    (t.ring c.ring).inflight = r.inflight - 1 ∧ (∀ x ∈ t.qm.cmds, x.seq ≠ c.seq) ∧ (∀ p, p ≠ c.ring → t.ring p = s.ring p) ∧
    t.colls = s.colls ∧ t.models = s.models ∧
    ((∀ x j, s.cmd? c.seq = some x → x.job = some j → j.gone = false) → t.jrn = s.jrn)

/-- What a reset level leaves: the level is in progress with READY 0; the queue manager, partitions, tiles and models are
as new; the host's memory, the module, the event records and the lifetime records stay; HIF_TIMER is 0 after COLD and runs on
otherwise; the write-combining buffer is empty; memory contents are gone at COLD and at CXL_RESET with Mem Clr and stay
otherwise; every frame is persisted, with its records; TIMER_GAP is 1 exactly while the reference clock is absent, and the VR alert
stays with its wire.
Where a clause goes beyond the rules cited it is the model's choice: log entries 44, 96, 123. -/
def Obligations.ResetLevelLeavesTheDevice : Prop :=
  ∀ (s : State) (lv : ResetLevel) (memClr : Bool),
    let t := s.applyReset lv memClr false
    t.hif.inReset = some lv ∧ t.hif.ready = false ∧ t.hif.lastReset = levelRank lv ∧ t.hif.errStatus = 0 ∧ t.hif.control = 2 ∧
    t.qm = {} ∧ t.sch = {} ∧ t.tiles = [] ∧ t.models = {} ∧ t.fmt = {} ∧ t.mem.wcb = [] ∧ t.jrn.locks = [] ∧
    t.hostMem = s.hostMem ∧ t.module = s.module ∧ t.mgt.events = s.mgt.events ∧ t.mgt.life = s.mgt.life ∧
    t.hif.timerGap = !s.module.refclk ∧ t.pwr.alert = s.pwr.alert ∧ t.pwr.alertFrac = s.pwr.alertFrac ∧
    t.mgt.prSec = s.mgt.prSec ∧ t.jrn.snaps = s.jrn.snaps ∧ t.jrn.images = s.jrn.images ∧
    t.hif.timer = (if lv = .cold then 0 else s.hif.timer) ∧
    t.mem.dev = (if lv = .cold ∨ (lv = .cxl ∧ memClr = true) then [] else s.mem.dev) ∧
    (∀ f ∈ t.jrn.frames, f.persisted = true ∧ f.place = .nand) ∧
    t.jrn.frames.map Frame.bytes = s.jrn.frames.map Frame.bytes ∧ (∀ f ∈ s.jrn.frames, f.first + f.count - 1 ≤ t.jrn.h)

/-- R59. Outside a reset level, a write of HIF_RESET with DEVICE_RESET = 1 and another KEY sets HIF_ERR_STATUS bit 2 (BAD_KEY), the event of
which HIF_ERR_MASK may suppress, and has no other effect: no level begins and what the device holds stays. -/
def Obligations.DeviceResetNeedsItsKey : Prop :=
  ∀ (s : State) (v : Word32), s.hif.inReset = none → flag v 0 = true → fld v 16 16 ≠ 0xA5C3 →
    ∃ t, exec (.deviceReset v) s = .next t ∧ flag t.hif.errStatus 2 = true ∧ t.hif.inReset = none ∧ t.hif.ready = s.hif.ready ∧
      (∀ b, b ≠ 2 → flag t.hif.errStatus b = flag s.hif.errStatus b) ∧ t.qm = s.qm ∧ t.sch = s.sch ∧ t.mem = s.mem ∧ t.jrn = s.jrn ∧
      t.colls = s.colls ∧ t.models = s.models ∧ t.tiles = s.tiles ∧ t.hostMem = s.hostMem ∧ t.module = s.module ∧
      (flag s.hif.errMask 2 = true → t = { s with hif := { s.hif with errStatus := t.hif.errStatus } })

/-- COLD with Primrose ready, the rails off and no latch. With no failing rail the power-up sequence starts: the rails are up,
PWR_GOOD and THERMTRIP_N are high, the COLD level is in progress, HIF_TIMER is 0, memory contents and the write-combining buffer are gone, the journal store's
snapshots and images stay, and the records that waited for a start are written. A rail that fails latches the module off.
WARM, CXL_RESET, FLR and DEVICE_RESET on a powered module: a level higher than the one in progress, or any level when none
is, is applied; an equal or lower one has no effect but PERST_N's. HIF_RESET with a wrong key sets HIF_ERR_STATUS bit 2.
RESET_COMPLETE of a level that can go on: the start's stages run, and where no whole-store operation was cut short READY and
JRN_READY are 1, BOOT_STAGE is 0xFF, no level is in progress and JSEQs go on after H; else BOOT_STAGE is 0x60 and the level
stays. A level that cannot go on waits.
Where a clause goes beyond the rules cited it is the model's choice: log entries 3, 44, 45, 46, 113. -/
def Obligations.ResetLevelsRankAndComplete : Prop :=
  (∀ s : State, s.module.rails = false → s.module.standby = true → s.module.primroseReady = true → s.module.latch = .none →
      (∃ t, exec (.cold none) s = .next t ∧
        t.module = { s.module with inputValid := true, rails := true, railFailed := none, tripped := false } ∧
        t.hif.inReset = some .cold ∧ t.hif.ready = false ∧ t.hif.timer = 0 ∧ t.thm.tripLast = s.module.tripped ∧
        t.qm = {} ∧ t.sch = {} ∧ t.mem.dev = [] ∧ t.mem.wcb = [] ∧ t.jrn.snaps = s.jrn.snaps ∧ t.jrn.images = s.jrn.images ∧
        t.jrn.frames = s.jrn.frames ∧ t.mgt.pendingStart = [] ∧ t.mgt.nextEvt = s.mgt.nextEvt + s.mgt.pendingStart.length ∧
        t.pwrGood = some (!s.module.flushing) ∧ t.thermTripN = some true ∧ t.hostMem = s.hostMem) ∧
      (∀ r, exec (.cold (some r)) s =
        .next { s with module := { s.module with inputValid := true, latch := .rail, railFailed := some r.val } })) ∧
  (∀ s : State, s.module.rails = true → s.module.flushing = false →
      (∀ perst, s.hif.inReset = none ∨ (∃ r, s.hif.inReset = some r ∧ 1 < levelRank r) →
        exec (.warm perst) s =
          .next { s.applyReset .warm false false with module := { s.module with perstN := s.module.perstN && !perst } }) ∧
      (∀ perst r, s.hif.inReset = some r → levelRank r ≤ 1 →
        exec (.warm perst) s = .next { s with module := { s.module with perstN := s.module.perstN && !perst } }) ∧
      (∀ memClr, s.hif.link.up = true → s.hif.inReset = none ∨ (∃ r, s.hif.inReset = some r ∧ 2 < levelRank r) →
        exec (.cxlReset memClr) s = .next (s.applyReset .cxl memClr false)) ∧
      (∀ memClr r, s.hif.inReset = some r → levelRank r ≤ 2 → exec (.cxlReset memClr) s = .next s) ∧
      (s.hif.link.up = true → s.hif.inReset = none ∨ s.hif.inReset = some .device →
        exec .flr s = .next (s.applyReset .flr false false)) ∧
      (∀ r, s.hif.inReset = some r → levelRank r ≤ 3 → exec .flr s = .next s) ∧
      (∀ v, flag v 0 = true → fld v 16 16 = 0xA5C3 → s.hif.inReset = none →
        exec (.deviceReset v) s = .next (s.applyReset .device false false)) ∧
      (∀ v r, flag v 0 = true → fld v 16 16 = 0xA5C3 → s.hif.inReset = some r → exec (.deviceReset v) s = .next s) ∧
      (∀ v, flag v 0 = true → fld v 16 16 ≠ 0xA5C3 → s.hif.inReset = none → exec (.deviceReset v) s = .next (s.hifErr 2))) ∧
  (∀ (s : State) (lv : ResetLevel) (channels : List (Nat × Nat)) (fails : List Nat), s.hif.inReset = some lv →
      (s.startGoes lv = true → s.hif.bootStage ≠ 0x60 → (s.jrn.maint.active = false ∨ s.jrn.maint.target ≠ 0x7FF) →
        ∃ t, exec (.resetComplete channels fails) s = .next t ∧ t = (s.startStages lv channels fails).startReady lv ∧
          t.hif.ready = true ∧ t.hif.inReset = none ∧ t.hif.bootStage = 0xFF ∧ t.jrn.ready = true ∧ t.jrn.next = t.jrn.h + 1) ∧
      (s.startGoes lv = true → s.hif.bootStage ≠ 0x60 → s.jrn.maint.active = true → s.jrn.maint.target = 0x7FF →
        ∃ t, exec (.resetComplete channels fails) s = .next t ∧ t.hif.bootStage = 0x60) ∧
      (s.startGoes lv = false → exec (.resetComplete channels fails) s = .next s))

/-- INPUT_LOSS and INPUT_BREAKER_TRIP of a powered module: a COLD level begins, the write-combining buffer is empty, and with
HOLDUP_READY 0 the frames that are neither programmed nor persisted are lost, but for those of a drain that the bank can still finish;
H reaches every frame kept as persisted; the trip also latches the module off. HOLDUP_FLUSH_DONE
takes the rails off with every frame kept programmed where the flush could run. LATCH_RELEASE ends a latch.
HOLDUP_CHARGED, HOLDUP_MEASURE (at a COLD start, or 24 h after the last) and HOLDUP_LOST: HOLDUP_READY is 1 exactly where
½ C (V² − 30²) reaches 4.5 J; losing it starts the drain of the frames in staging and buffer, gaining it ends that, and nothing but the
module and that drain changes.
Where a clause goes beyond the rules cited it is the model's choice: log entry 96. -/
def Obligations.PowerLossAndHoldUp : Prop :=
  ((∀ s : State, s.module.rails = true → s.module.flushing = false →
      let drain := s.jrn.flush && bankFlushes s.module.capUF s.module.bankMV
      let keeps := fun (f : Frame) => s.module.holdupReady || f.persisted || decide (f.place = .nand) ||
        (drain && decide (f.first + f.count - 1 ≤ s.jrn.flushTo))
      let kept := (s.jrn.frames.filter keeps).map (fun f => if f.place = .nand then { f with persisted := true } else f)
      (∃ t, exec .inputLoss s = .next t ∧ t.module.flushing = true ∧ t.module.inputValid = false ∧
        t.module.holdupAtLoss = (s.module.holdupReady || drain) ∧ t.hif.inReset = some .cold ∧ t.mem.wcb = [] ∧
        t.jrn.frames = kept ∧ (∀ f ∈ kept, f.persisted = true → f.first + f.count - 1 ≤ t.jrn.h) ∧ s.jrn.h ≤ t.jrn.h ∧
        t.module.latch = s.module.latch ∧ t.pwrGood ≠ some true ∧ t.hostMem = s.hostMem) ∧
      (∃ t, exec .inputBreakerTrip s = .next t ∧ t.module.flushing = true ∧ t.module.latch = .breaker ∧
        t.module.holdupAtLoss = (s.module.holdupReady || drain) ∧ t.hif.inReset = some .cold ∧ t.mem.wcb = [] ∧
        t.jrn.frames = kept)) ∧
    (∀ s : State, s.module.flushing = true →
      ∃ t, exec .holdupFlushDone s = .next t ∧
        t.module = { s.module with flushing := false, rails := false, holdupReady := false, bankMV := 0 } ∧
        (s.module.holdupAtLoss = true → ∀ f ∈ t.jrn.frames, f.persisted = true ∧ f.place = .nand) ∧
        t.jrn.frames.map Frame.bytes = s.jrn.frames.map Frame.bytes ∧ t = { s with jrn := t.jrn, module := t.module }) ∧
    (∀ s : State, s.module.latch ≠ .none → s.module.rails = false →
      exec .latchRelease s = .next { s with module := { s.module with latch := .none, inputValid := false } })) ∧
  ((∀ (s : State) (mv : Nat), s.module.rails = true → s.module.flushing = false →
      ∃ t, exec (.holdupCharged mv) s = .next t ∧
        t.module.holdupReady = decide (9 * 10 ^ 12 + 9 * 10 ^ 8 * s.module.capUF ≤ s.module.capUF * mv * mv) ∧
        (s.module.holdupReady = true → t.module.holdupReady = false → t.jrn.flush = true) ∧
        (t.module.holdupReady = true → t.jrn.flush = false) ∧
        t = { s with module := { s.module with bankMV := mv, holdupReady := t.module.holdupReady },
                     jrn := { s.jrn with flush := t.jrn.flush, flushTo := t.jrn.flushTo } }) ∧
    (∀ (s : State) (capUF mv : Nat), s.module.rails = true → s.module.flushing = false →
      (s.hif.inReset = some .cold ∨ s.module.lastMeasure + 86400 ≤ s.mgt.prSec) →
      ∃ t, exec (.holdupMeasure capUF mv) s = .next t ∧
        t.module.holdupReady = decide (9 * 10 ^ 12 + 9 * 10 ^ 8 * capUF ≤ capUF * mv * mv) ∧
        (s.module.holdupReady = true → t.module.holdupReady = false → t.jrn.flush = true) ∧
        (t.module.holdupReady = true → t.jrn.flush = false) ∧
        t = { s with module := { s.module with capUF := capUF, bankMV := mv, lastMeasure := s.mgt.prSec,
                                               holdupReady := t.module.holdupReady },
                     jrn := { s.jrn with flush := t.jrn.flush, flushTo := t.jrn.flushTo } }) ∧
    (∀ (s : State) (mv : Nat), s.module.holdupReady = true →
      s.module.capUF * mv * mv < 9 * 10 ^ 12 + 9 * 10 ^ 8 * s.module.capUF →
      ∃ t, exec (.holdupLost mv) s = .next t ∧
        (∀ f ∈ s.jrn.frames, f.place = .staging ∨ f.place = .buffer → f.first + f.count - 1 ≤ t.jrn.flushTo) ∧
        t = { s with module := { s.module with bankMV := mv, holdupReady := false },
                     jrn := { s.jrn with flush := true, flushTo := t.jrn.flushTo } }))

/-- Standby, clock, PERST_N and link. Standby power starts Primrose where its bank verifies, at SMBus address 0x58 + ADDR[2:0], with PR_SEC as stored and no SPDM
session; its loss ends sessions and the latch. REFCLK_LOSS stops HIF_TIMER and sets TIMER_GAP; REFCLK_RETURN lets it go on.
PERST_N_DEASSERT ends the trigger. Training ends with the link up at its rate and width, configuration requests answered and no memory
active where the link carries CXL.io only,
with a LINK_DEGRADED record below 32 GT/s or x16.
VIRAL of a powered module sets the bit once, with a VIRAL record, and with an AER entry and a LINK_ERROR record where the free value of log
entry 141 makes it the device's own error; POWER_STATE_CHANGE with the link up enters or leaves D3hot;
HIF_TOD_COMMIT outside a reset level sets the time of day at the present HIF_TIMER. -/
def Obligations.StandbyLinkAndTimeOfDay : Prop :=
  ((∀ (s : State) (straps : BitVec 3), s.module.standby = false →
      ∃ t, exec (.standbyPowerOn straps) s = .next t ∧ t.module.standby = true ∧ t.module.straps = straps.toNat ∧
        t.smbusAddr = some (0x58 + straps.toNat) ∧ t.module.primroseReady = !(lget {} t.sec.comps 0).failed ∧ t.mgt.prSec = s.mgt.prStored ∧ t.sec.sessions = [] ∧
        t = { s with module := t.module, mgt := { s.mgt with prSec := t.mgt.prSec }, sec := t.sec }) ∧
    (∀ s : State, s.module.standby = true → s.module.rails = false →
      ∃ t, exec .standbyPowerLoss s = .next t ∧
        t.module = { s.module with standby := false, primroseReady := false, latch := .none, inputValid := false } ∧
        t.sec.sessions = [] ∧ t.sec.comps = s.sec.comps ∧ t.sec.tokens = s.sec.tokens ∧
        t = { s with module := t.module, sec := t.sec }) ∧
    (∀ s : State, exec .refclkLoss s =
      .next { s with module := { s.module with refclk := false }, hif := { s.hif with timerGap := true } }) ∧
    (∀ s : State, exec .refclkReturn s = .next { s with module := { s.module with refclk := true } }) ∧
    (∀ s : State, exec .perstNDeassert s = .next { s with module := { s.module with perstN := true } }) ∧
    (∀ (s : State) (rate width : Nat) (cacheMem : Bool), s.module.rails = true → s.module.perstN = true → s.module.refclk = true →
      rate ∈ [32, 16, 8] → width ∈ [16, 8, 4] →
      let up : State := { s with hif := { s.hif with link := { up := true, rate := rate, width := width, cacheMem := cacheMem },
                                                     cfgRetry := false, memActive := s.hif.memActive && cacheMem } }
      (rate = 32 → width = 16 → exec (.linkTrainingDone rate width cacheMem) s = .next up) ∧
      (rate ≠ 32 ∨ width ≠ 16 →
        exec (.linkTrainingDone rate width cacheMem) s = .next (up.event 0x0002 2 11 0 (rate + 256 * width) 0)))) ∧
  ((∀ s : State, s.hif.viral = false → s.module.rails = true →
      let e := Config.freeValue s.freeCtr % 2 ^ 32
      (e = 0 → exec .viral s =
        .next (({ s with freeCtr := s.freeCtr + 1, hif := { s.hif with viral := true } } : State).event 0x0005 4 11 0 0 0)) ∧
      (e ≠ 0 → ∃ t, exec .viral s = .next t ∧ t.hif.viral = true ∧ t.hif.aer = s.hif.aer ++ [e] ∧
        t.mgt.nextEvt = s.mgt.nextEvt + 2 ∧ t.qm = s.qm ∧ t.sch = s.sch ∧ t.jrn = s.jrn ∧ t.colls = s.colls ∧ t.mem = s.mem ∧
        t.tiles = s.tiles ∧ t.module = s.module ∧ t.hostMem = s.hostMem)) ∧
    (∀ s : State, s.hif.viral = true → exec .viral s = .next s) ∧
    (∀ (s : State) (d3 : Bool), s.hif.link.up = true →
      exec (.powerStateChange d3) s = .next { s with hif := { s.hif with d3 := d3 } }) ∧
    (∀ (s : State) (v : Word64), s.hif.inReset = none →
      ∃ t, exec (.hifTodCommit v) s = .next t ∧ t.hif.tod = v ∧ t.hif.todStamp = BitVec.ofNat 64 s.hif.timer ∧ t.hif.todSet = true ∧
        (lget 0 s.mgt.life 17 ≠ 0 → t.mgt.life = s.mgt.life) ∧
        t = { s with hif := { s.hif with tod := t.hif.tod, todStamp := t.hif.todStamp, todSet := true }, mgt := t.mgt }))

/-- R80: a write of QM_RING_QOS stores LAT_BOUND at the nearest end of 200..50,000, keeps PARTIAL and DEDUP as written, changes
no other pair, and a read of the register returns what is stored. -/
def Obligations.LatBoundIsStoredInRange : Prop :=
  ∀ (s : State) (v : Word64), s.hif.inReset = none →
    ∃ t, exec (.registerWrite 0x10020 false v) s = .next t ∧
      fld (t.ring s.qm.ringSel).qos 0 16 =
        (if v.toNat % 65536 < 200 then 200 else if 50000 < v.toNat % 65536 then 50000 else v.toNat % 65536) ∧
      fld (t.ring s.qm.ringSel).qos 16 16 = v.toNat / 65536 % 8 ∧
      (∀ q, q ≠ s.qm.ringSel → t.ring q = s.ring q) ∧ t = { s with qm := { s.qm with rings := t.qm.rings } } ∧
      exec (.lowHalfReadLatch (.word 0x10020)) t =
        .next { t with hif := { t.hif with rdata := BitVec.ofNat 64 (t.ring s.qm.ringSel).qos.toNat } }

/-- 32-bit reads outside a reset level. The low half of a 64-bit register is returned and its high half goes to the one shadow;
a high half is returned from a shadow of its own register, which that consumes, and as it stands otherwise. Nothing else changes,
but for the chain value that a read of JRN_COLL_HSEQ latches. A 32-bit register is read with no effect.
An aligned 64-bit read of a 64-bit register returns its value at once with the shadow as it was, and one of two 32-bit registers both.
A 32-bit read of a doorbell page returns the pair's SQ_HEAD and CQ_TAIL at 0x008 and 0 elsewhere. -/
def Obligations.HalfReadsUseTheShadow : Prop :=
  (∀ (s : State) (o : BitVec 21) (v : Nat), s.hif.inReset = none → o.toNat % 4 = 0 → s.reg64 o.toNat = some v →
    ∃ t, exec (.lowHalfReadLatch (.word o)) s = .next t ∧ t.hif.rdata = BitVec.ofNat 64 (v % 2 ^ 32) ∧
      t.hif.shadow = some (o.toNat, BitVec.ofNat 32 (v / 2 ^ 32)) ∧
      t = { s with hif := { s.hif with rdata := t.hif.rdata, shadow := t.hif.shadow }, jrn := { s.jrn with latched := t.jrn.latched } } ∧
      (o.toNat ≠ 0x70038 → t.jrn = s.jrn)) ∧
  (∀ (s : State) (o : BitVec 21) (v : Nat), s.hif.inReset = none → o.toNat % 8 = 4 → s.reg64 (o.toNat - 4) = some v →
    (∀ h, s.hif.shadow = some (o.toNat - 4, h) →
      exec (.highHalfRead o) s = .next { s with hif := { s.hif with rdata := BitVec.ofNat 64 h.toNat, shadow := none } }) ∧
    ((∀ h, s.hif.shadow ≠ some (o.toNat - 4, h)) →
      exec (.highHalfRead o) s = .next { s with hif := { s.hif with rdata := BitVec.ofNat 64 (s.word o.toNat) } })) ∧
  (∀ (s : State) (o : BitVec 21), s.hif.inReset = none → o.toNat % 4 = 0 → s.reg64 o.toNat = none →
    exec (.lowHalfReadLatch (.word o)) s = .next { s with hif := { s.hif with rdata := BitVec.ofNat 64 (s.word o.toNat) } }) ∧
  (∀ (s : State) (o : BitVec 21), s.hif.inReset = none → o.toNat % 8 = 0 →
    (∀ v, s.reg64 o.toNat = some v → ∃ t, exec (.lowHalfReadLatch (.pair o)) s = .next t ∧ t.hif.rdata = BitVec.ofNat 64 v ∧
      (o.toNat ≠ 0x70038 → t.jrn = s.jrn) ∧
      t = { s with hif := { s.hif with rdata := t.hif.rdata }, jrn := { s.jrn with latched := t.jrn.latched } }) ∧
    (s.reg64 o.toNat = none → exec (.lowHalfReadLatch (.pair o)) s =
      .next { s with hif := { s.hif with rdata := BitVec.ofNat 64 (s.word o.toNat + 2 ^ 32 * s.word (o.toNat + 4)) } })) ∧
  (∀ (s : State) (page o : BitVec 12), s.hif.inReset = none →
    let heads := if o.toNat = 8 then (s.ring page.toNat).sqHead + 65536 * (s.ring page.toNat).cqTail else 0
    exec (.lowHalfReadLatch (.page page o)) s = .next { s with hif := { s.hif with rdata := BitVec.ofNat 64 heads } })

/-- Writes of set-up registers. While a level is in progress an aligned write anywhere but HIF_RESET does nothing. A 64-bit
register takes a 64-bit write at once, and two 32-bit writes with the high half: SQ_BASE of a FREE pair holds both halves, 4 KiB
aligned, and holds its old value until then. A write beyond the last register block is discarded.
Where a clause goes beyond the rules cited it is the model's choice: log entries 42, 43. -/
def Obligations.RegisterWritesTakeEffect : Prop :=
  (∀ (s : State) (lv : ResetLevel) (o : BitVec 21) (wide : Bool) (v : Word64), s.hif.inReset = some lv →
    o.toNat % (if wide then 8 else 4) = 0 → o.toNat ≠ 0x10 → exec (.registerWrite o wide v) s = .next s) ∧
  (∀ (s : State) (lo hi : Word32), s.hif.inReset = none → (s.ring s.qm.ringSel).state = .free →
    ∃ t u, exec (.registerWrite 0x10008 false (lo.zeroExtend 64)) s = .next t ∧ t.qm = s.qm ∧
      exec (.registerWrite 0x1000C false (hi.zeroExtend 64)) t = .next u ∧
      (u.ring s.qm.ringSel).sqBase = (hi ++ lo) &&& 0xFFFFFFFFFFFFF000 ∧
      (∀ q, q ≠ s.qm.ringSel → u.ring q = s.ring q) ∧ u.hostMem = s.hostMem) ∧
  (∀ (s : State) (v : Word64), s.hif.inReset = none → (s.ring s.qm.ringSel).state = .free →
    ∃ t, exec (.registerWrite 0x10008 true v) s = .next t ∧ (t.ring s.qm.ringSel).sqBase = v &&& 0xFFFFFFFFFFFFF000 ∧
      (∀ q, q ≠ s.qm.ringSel → t.ring q = s.ring q)) ∧
  (∀ (s : State) (o : BitVec 21) (v : Word64), s.hif.inReset = none → o.toNat % 4 = 0 → 0xE0100 ≤ o.toNat →
    exec (.registerWrite o false v) s = .next s)

/-- R47: a BAR0 access of another size or alignment reads 0, writes nothing and sets HIF_ERR_STATUS bit 0 (BAD_ACCESS), the
event of which HIF_ERR_MASK may suppress. -/
def Obligations.BadAccessesReadZero : Prop :=
  ∀ (s : State) (o : BitVec 21) (size : Nat), s.hif.inReset = none → ¬ ((size = 4 ∨ size = 8) ∧ o.toNat % size = 0) →
    exec (.badAccess o size true) s = .next (s.hifErr 0) ∧
    (∃ t, exec (.badAccess o size false) s = .next t ∧ t.hif.rdata = 0 ∧ flag t.hif.errStatus 0 = true ∧
      t = { s.hifErr 0 with hif := { (s.hifErr 0).hif with rdata := 0 } }) ∧
    flag (s.hifErr 0).hif.errStatus 0 = true ∧
    (flag s.hif.errMask 0 = true → s.hifErr 0 = { s with hif := { s.hif with errStatus := s.hif.errStatus ||| 1 } })

/-- Configuration requests. Until the function answers, a read gets retry status (no value) and a write does nothing; after,
the identity registers read their fixed values, COMMAND and the BARs read back what was written with the BAR sizes hard-wired,
BAR4 and BAR5 read 0, MSI-X function mask is set and cleared, Initiate Function Level Reset acts as FLR, and the CDAT answers one
entry for each DVSEC range.
DECODER_COMMIT outside a reset level: a decoder that is not locked commits where its span, skip included, ends inside DVSEC
Range 2, base and size are 256 MiB aligned, it interleaves nothing and every decoder below it is committed and ends at or below its
base (the last as CXL 2.0 has it: the model's reading, log entry 124), taking the lock if asked; else it reports Commit Error; a locked one
keeps what it holds. No other decoder changes.
BIAS_FLIP with GO. A flip under way makes another set HIF_ERR_STATUS bit 5; a block past device physical space sets bit 3;
a flip to host bias outside the host region sets bit 6 (BIAS_DENIED); else the flip is under way. BIAS_FLIP_DONE gives the block
its new bias and no other.
Where a clause goes beyond the rules cited it is the model's choice: log entries 31, 47, 48, 124. -/
def Obligations.ConfigurationDecodersAndBias : Prop :=
  ((∀ s : State, s.hif.cfgRetry = true →
      (∀ r, exec (.configRequest (.read r)) s = .next { s with hif := { s.hif with cfgRead := none } }) ∧
      (∀ r v, exec (.configRequest (.write r v)) s = .next s) ∧ exec (.configRequest .cdat) s = .next s) ∧
    (∀ s : State, s.hif.cfgRetry = false →
      exec (.configRequest .cdat) s = .next { s with hif := { s.hif with
        cdat := [(0, 0, farBase), (1, farBase, 8 * s.farStep * 2 ^ 28)] } } ∧
      (∀ v, flag v 15 = true → ∃ u : State, exec (.configRequest (.write .deviceControl v)) s = exec .flr u ∧
        u = { s with hif := { s.hif with cfg := u.hif.cfg } }) ∧
      exec (.configRequest (.read .deviceVendor)) s = .next { s with hif := { s.hif with cfgRead := some 0x50161F3C } } ∧
      exec (.configRequest (.read .revisionClass)) s = .next { s with hif := { s.hif with cfgRead := some 0x120000A1 } } ∧
      (∀ v, ∃ t u, exec (.configRequest (.write .command v)) s = .next t ∧ exec (.configRequest (.read .command)) t = .next u ∧
        u.hif.cfgRead = some (BitVec.ofNat 32 (v.toNat % 2048)) ∧
        t = { s with hif := { s.hif with cfg := t.hif.cfg } }) ∧
      (∀ v, ∃ t u, exec (.configRequest (.write (.bar 0) v)) s = .next t ∧ exec (.configRequest (.read (.bar 0))) t = .next u ∧
        u.hif.cfgRead = some (BitVec.ofNat 32 (v.toNat / 2097152 * 2097152 + 4))) ∧
      (∀ n : Fin 6, 4 ≤ n.val → exec (.configRequest (.read (.bar n))) s = .next { s with hif := { s.hif with cfgRead := some 0 } }) ∧
      (∀ v, flag v 14 = true → ∃ t, exec (.configRequest (.write .msixControl v)) s = .next t ∧ t.hif.msixFuncMask = true ∧
        t.hif.msgs = s.hif.msgs ∧ t.hif.msix = s.hif.msix))) ∧
  (∀ (s : State) (i : Fin 4) (base size skip : Word64) (ways : BitVec 4) (lock : Bool), s.hif.inReset = none →
      s.hif.decoders.length = 4 →
      let below := s.hif.decoders.take i.val
      let old := lget {} s.hif.decoders i.val
      let fits := sumN (below.map (fun x => x.skip + x.size)) + skip.toNat + size.toNat ≤ s.dpaEnd ∧ base.toNat % 2 ^ 28 = 0 ∧
        size.toNat % 2 ^ 28 = 0 ∧ ways = 0 ∧ (∀ x ∈ below, x.committed = true ∧ x.base + x.size ≤ base.toNat)
      (old.locked = true → exec (.decoderCommit i base size skip ⟨ways, lock⟩) s = .next s) ∧
      (old.locked = false →
        ∃ t, exec (.decoderCommit i base size skip ⟨ways, lock⟩) s = .next t ∧
          (let new : Decoder := { old with base := base.toNat, size := size.toNat, skip := skip.toNat, ways := ways.toNat, lockOn := lock }
           (fits → lget {} t.hif.decoders i.val = { new with committed := true, locked := lock, error := false }) ∧
           (¬ fits → lget {} t.hif.decoders i.val = { new with committed := false, locked := false, error := true })) ∧
          (∀ j, j ≠ i.val → lget {} t.hif.decoders j = lget {} s.hif.decoders j) ∧
          t = { s with hif := { s.hif with decoders := t.hif.decoders } })) ∧
  ((∀ (s : State) (v : Word32), s.hif.inReset = none → flag v 31 = true →
      let s1 : State := { s with hif := { s.hif with biasCtl := v &&& 0x403FFFFF } }
      (s.hif.biasFlip.isSome = true → exec (.biasFlip v) s = .next (s.hifErr 5)) ∧
      (s.hif.biasFlip = none → s.dpaEnd ≤ fld v 0 22 * blockBytes → exec (.biasFlip v) s = .next (s1.hifErr 3)) ∧
      (s.hif.biasFlip = none → fld v 0 22 * blockBytes < s.dpaEnd → flag v 30 = true →
        s.inHostRegion (fld v 0 22 * blockBytes) blockBytes = false → exec (.biasFlip v) s = .next (s1.hifErr 6)) ∧
      (s.hif.biasFlip = none → fld v 0 22 * blockBytes < s.dpaEnd →
        flag v 30 = false ∨ s.inHostRegion (fld v 0 22 * blockBytes) blockBytes = true →
        exec (.biasFlip v) s = .next { s1 with hif := { s1.hif with biasFlip := some (fld v 0 22, flag v 30) } })) ∧
    (∀ (s : State) (b : Nat) (host : Bool), s.hif.biasFlip = some (b, host) →
      ∃ t, exec .biasFlipDone s = .next t ∧ t.hif.biasFlip = none ∧ t.hif.hostBias.contains b = host ∧
        (∀ c, c ≠ b → t.hif.hostBias.contains c = s.hif.hostBias.contains c) ∧
        t = { s with hif := { s.hif with biasFlip := none, hostBias := t.hif.hostBias } }))

/-- HOST_MEM_READ with memory active on a link that carries CXL.mem and no COLD, WARM or CXL_RESET level: a line no decoder claims or above usable capacity
answers all-ones with HIF_ERR_STATUS bit 3; a missing line answers all-ones; an uncorrectable one answers all-ones and is logged;
any other answers the line's bytes. Without that service it answers all-ones.
Where a clause goes beyond the rules cited it is the model's choice: log entry 25. -/
def Obligations.HostReadsAnswerTheLine : Prop :=
  ∀ (s : State) (addr : Word64) (err : MemErr),
    let off := s.hif.memActive = false ∨ s.hif.link.cacheMem = false ∨ s.hif.inReset = some .cold ∨ s.hif.inReset = some .warm ∨
      s.hif.inReset = some .cxl
    let a := addr.toNat / 64 * 64
    let answer (t : State) (d : BitVec 512) : State := { t with hif := { t.hif with rline := some d } }
    (off → exec (.hostMemRead addr err) s = .next (answer s (BitVec.allOnes 512))) ∧
    (¬ off →
    (hdmDecode s.hif.decoders a = none → exec (.hostMemRead addr err) s = .next (answer (s.hifErr 3) (BitVec.allOnes 512))) ∧
    (∀ d, hdmDecode s.hif.decoders a = some d →
      (s.usable d = false → exec (.hostMemRead addr err) s = .next (answer (s.hifErr 3) (BitVec.allOnes 512))) ∧
      (s.usable d = true → s.mem.missing.any (fun m => m.block == d / blockBytes) = true →
        exec (.hostMemRead addr err) s = .next (answer s (BitVec.allOnes 512))) ∧
      (s.usable d = true → s.mem.missing.any (fun m => m.block == d / blockBytes) = false →
        (d ∈ s.mem.bad ∨ err = .uncorrectable →
          exec (.hostMemRead addr err) s = .next (answer (s.meetBad d) (BitVec.allOnes 512))) ∧
        (d ∉ s.mem.bad → err = .none →
          exec (.hostMemRead addr err) s = .next (answer s (BitVec.ofNat 512 (bytesNat (s.devRead d 64))))) ∧
        (d ∉ s.mem.bad → err = .corrected →
          exec (.hostMemRead addr err) s = .next (answer (s.meetCorrected d) (BitVec.ofNat 512 (bytesNat (s.devRead d 64))))))))

/-- HOST_MEM_WRITE with memory active on a link that carries CXL.mem and no COLD, WARM or CXL_RESET level, to a usable line of the host region that is not
missing: exactly the masked bytes change, every other byte of device memory stays, and a full-line write makes the line good
again. A write outside the host region is discarded with HIF_ERR_STATUS bit 4 (HDM_WP); one no decoder claims sets bit 3. Without that service nothing happens.
Where a clause goes beyond the rules cited it is the model's choice: log entry 26. -/
def Obligations.HostWritesChangeTheMaskedBytes : Prop :=
  ∀ (s : State) (addr : Word64) (data : BitVec 512) (mask : Word64),
    let off := s.hif.memActive = false ∨ s.hif.link.cacheMem = false ∨ s.hif.inReset = some .cold ∨ s.hif.inReset = some .warm ∨
      s.hif.inReset = some .cxl
    let a := addr.toNat / 64 * 64
    (off → exec (.hostMemWrite addr data mask) s = .next s) ∧
    (¬ off → (hdmDecode s.hif.decoders a = none → exec (.hostMemWrite addr data mask) s = .next (s.hifErr 3)) ∧
    (∀ d, hdmDecode s.hif.decoders a = some d → s.usable d = true →
      (s.inHostRegion d 64 = false → exec (.hostMemWrite addr data mask) s = .next (s.hifErr 4)) ∧
      (s.inHostRegion d 64 = true → s.mem.missing.any (fun m => m.block == d / blockBytes) = false →
        Memory.wf s.mem.dev = true →
        ∃ t, exec (.hostMemWrite addr data mask) s = .next t ∧
          (∀ i < 64, memGet t.mem.dev (d + i) =
            (if bitsOf mask.toNat i 1 = 1 then BitVec.ofNat 8 (bitsOf data.toNat (8 * i) 8) else memGet s.mem.dev (d + i))) ∧
          (∀ x, x < d ∨ d + 64 ≤ x → memGet t.mem.dev x = memGet s.mem.dev x) ∧
          (mask.toNat = 2 ^ 64 - 1 → d ∉ t.mem.bad) ∧ (∀ l, l ≠ d → (l ∈ t.mem.bad ↔ l ∈ s.mem.bad)) ∧
          t = { s with mem := { s.mem with dev := t.mem.dev, bad := t.mem.bad, told := t.mem.told } })))

/-- A byte written to memory is read back; every other byte stays; writing what an unlisted address reads as lists nothing.
Where a clause goes beyond the rules cited it is the model's choice: log entry 5. -/
def Obligations.MemoryReadsWhatWasWritten : Prop :=
  ∀ (m : List Host.Cell) (a : Nat) (bs : List Byte), Memory.wf m = true →
    memBytes (memWrite m a bs) a bs.length = bs ∧
    (∀ x, x < a ∨ a + bs.length ≤ x → memGet (memWrite m a bs) x = memGet m x) ∧ Memory.wf (memWrite m a bs) = true ∧
    (∀ c ∈ memWrite m a bs, c.2 ≠ 0)

/-- LINK_REPLAY on a unit in service that is not retraining, with no command delayed: a replay that succeeds clears the count of
consecutive failures, the eighth failure starts a retrain, logged with TYPE 2. RETRAIN_DONE ends it; a failed one takes a stack
out of service or fails the far-tier channel. EVACUATION_DONE with nothing lost ends the evacuation.
Where a clause goes beyond the rules cited it is the model's choice: log entry 95. -/
def Obligations.LinksReplayAndRetrain : Prop :=
  (∀ (s : State) (u : Fin 20), (s.memUnit u.val).oos = false → (s.memUnit u.val).retrain = false →
    exec (.linkReplay u true []) s = .next (s.modUnit u.val (fun m => { m with replays := 0 })) ∧
    ((s.memUnit u.val).replays < 7 →
      exec (.linkReplay u false []) s = .next (s.modUnit u.val (fun m => { m with replays := m.replays + 1 }))) ∧
    (7 ≤ (s.memUnit u.val).replays → ∃ t, exec (.linkReplay u false []) s = .next t ∧
      t = (s.modUnit u.val (fun m => { m with replays := 0, retrain := true })).errLog u.val 2 0 0 ∧
      (t.memUnit u.val).retrain = true ∧ t.mem.dev = s.mem.dev ∧ t.colls = s.colls)) ∧
  (∀ (s : State) (u : Fin 20), (s.memUnit u.val).retrain = true →
    let back := s.modUnit u.val (fun m => { m with retrain := false })
    exec (.retrainDone u true) s = .next back ∧
    (u.val < 12 → exec (.retrainDone u false) s = .next (back.stackOut u.val 1) ∧ ((back.stackOut u.val 1).memUnit u.val).oos = true) ∧
    (12 ≤ u.val → exec (.retrainDone u false) s = .next (back.channelFail u.val 0))) ∧
  (∀ (s : State) (st : Fin 12) (lost : List Nat), (s.memUnit st.val).evac ≠ none →
    exec (.evacuationDone st []) s = .next (s.modUnit st.val (fun m => { m with evac := none })) ∧
    exec (.evacuationDone st lost) s =
      .next (lost.foldl (State.missBlock · false) (s.modUnit st.val (fun m => { m with evac := none }))))

/-- The scrub patrol of a usable line, with scrub on for its tier and no margin test on its unit: a clean line changes nothing, a
corrected error and an uncorrectable one enter the repair ladder. With scrub off nothing happens. LINE_INITIALISATION ends the
initialisation that COLD started.
A read that finds a line uncorrectable marks it bad and logs the event; the line's first one since it was last good writes one
MEM_UNCORRECTABLE record, and a line already recorded writes none.
BLOCK_REBUILD with no missing block that can be rebuilt does nothing; with exactly one, whose backing stands, it is under
way. BLOCK_REBUILD_DONE returns the block under way to service with all its lines good.
Where a clause goes beyond the rules cited it is the model's choice: log entries 24, 25, 26, 89. -/
def Obligations.ScrubAndRebuild : Prop :=
  ((∀ (s : State) (line : Word64),
      let a := line.toNat / 64 * 64
      let on := flag (lget 0 s.mem.scrub (if s.unitOfLine a < 12 then 0 else 1)) 31
      (on = true → s.usable a = true → s.margining (s.unitOfLine a) = false →
        (a ∉ s.mem.bad → exec (.scrubPatrol line .none) s = .next s) ∧
        (a ∈ s.mem.bad → exec (.scrubPatrol line .none) s = .next (s.meetBad a)) ∧
        exec (.scrubPatrol line .corrected) s = .next (s.meetCorrected a) ∧
        exec (.scrubPatrol line .uncorrectable) s = .next (s.meetBad a)) ∧
      (on = false → ∀ e, exec (.scrubPatrol line e) s = .next s)) ∧
    (∀ s : State, exec .lineInitialisation s = .next { s with mem := { s.mem with initing := false } })) ∧
  (∀ (s : State) (line : Nat),
      line ∈ (s.meetBad line).mem.bad ∧ line ∈ (s.meetBad line).mem.told ∧
      (∀ l, l ∈ s.mem.bad → l ∈ (s.meetBad line).mem.bad) ∧
      (line ∈ s.mem.told → (s.meetBad line).mgt = s.mgt ∧ (s.meetBad line).hif = s.hif ∧
        (s.meetBad line).mem.dev = s.mem.dev) ∧
      (line ∉ s.mem.told → s.mgt.nextEvt < (s.meetBad line).mgt.nextEvt)) ∧
  ((∀ s : State, s.mem.missing.filter s.canRebuild = [] → exec .blockRebuild s = .next s) ∧
    (∀ (s : State) (m : Missing), s.mem.missing.filter s.canRebuild = [m] → m.room = false →
      exec .blockRebuild s = .next { s with mem := { s.mem with
        missing := s.mem.missing.map (fun x => if x.block = m.block then { x with running := true } else x) } }) ∧
    (∀ (s : State) (m : Missing), s.mem.missing.find? (fun m => m.running) = some m →
      ∃ t, exec .blockRebuildDone s = .next t ∧ (∀ x ∈ t.mem.missing, x.block ≠ m.block) ∧
        (∀ x ∈ s.mem.missing, x.block ≠ m.block → x ∈ t.mem.missing) ∧
        (∀ l, l ∈ t.mem.bad ↔ l ∈ s.mem.bad ∧ l / blockBytes ≠ m.block) ∧ t.mem.dev = s.mem.dev ∧
        t = { s with mem := { s.mem with missing := t.mem.missing, bad := t.mem.bad, told := t.mem.told } }))

/-- A range of a stack with all 16 channels active holds 4 KiB in each: its units lie in a permutation of the channels.
STK_REPAIR_CTL outside a reset level: KEY 0x7C2E with RETEST marks the channel to be tried again at the next COLD; another
KEY only sets HIF_ERR_STATUS bit 2. MARGIN_TEST stores its fields; with GO and no test under way it is refused with RESULT 3, or runs
with BUSY on its target; without GO, or with a test under way, BUSY and RESULT stay (the latter the model's choice, log entry 90).
MARGIN_TEST_DONE gives RESULT 1 with no errors and 2 otherwise, with the lines and errors.
A write of FAR_HOST outside a reset level: with QM_ENABLE = 0, UNITS up to the largest that can be granted are taken and more
only set REFUSED; with QM_ENABLE = 1 the region stays.
Where a clause goes beyond the rules cited it is the model's choice: log entry 90. -/
def Obligations.MarginsAndHostRegion : Prop :=
  ((∀ r n : Nat, (channelOrder r n).Perm (List.range n)) ∧
    (∀ (s : State) (line : Nat), line < farBase → (s.memUnit (line / stackBytes)).active = 0xFFFF →
      s.chanOfLine line = (channelOrder (line / 65536) 16).getD (line / 4096 % 16) 0)) ∧
  ((∀ (s : State) (v : Word32), s.hif.inReset = none →
      (fld v 16 16 = 0x7C2E → flag v 15 = true → fld v 0 4 < 12 →
        exec (.repairCtlRetest false v) s =
          .next (s.modUnit (fld v 0 4) (fun m => { m with retest := m.retest ||| 2 ^ fld v 8 5 }))) ∧
      (fld v 16 16 = 0x7C2E → flag v 15 = true → fld v 8 5 < 8 →
        exec (.repairCtlRetest true v) s = .next (s.modUnit (12 + fld v 8 5) (fun m => { m with retest := m.retest ||| 1 }))) ∧
      (∀ far, fld v 16 16 ≠ 0x7C2E → exec (.repairCtlRetest far v) s = .next (s.hifErr 2))) ∧
    (∀ (s : State) (far : Bool) (v : Word32), s.hif.inReset = none → s.mem.margin.length = 2 → s.mem.marginOn.length = 2 →
      let i := if far then 1 else 0
      let go := flag v 31 = true ∧ flag (lget 0 s.mem.margin i) 30 = false
      ∃ t, exec (.marginTest far v) s = .next t ∧
        (¬ go → fld (lget 0 t.mem.margin i) 28 3 = fld (lget 0 s.mem.margin i) 28 3 ∧ t.mem.marginOn = s.mem.marginOn) ∧
        (go → s.marginRefused far v = true → fld (lget 0 t.mem.margin i) 28 3 = 3 ∧ t.mem.marginOn = s.mem.marginOn) ∧
        (go → s.marginRefused far v = false → fld (lget 0 t.mem.margin i) 28 3 = 4 ∧ lget none t.mem.marginOn i = some (fld v 24 4) ∧
          lget none t.mem.marginOn (1 - i) = lget none s.mem.marginOn (1 - i)) ∧
        fld (lget 0 t.mem.margin i) 14 14 = fld v 14 14 ∧
        lget 0 t.mem.margin (1 - i) = lget 0 s.mem.margin (1 - i) ∧
        t = { s with mem := { s.mem with margin := t.mem.margin, marginOn := t.mem.marginOn } }) ∧
    (∀ (s : State) (far : Bool) (lines errors : Word32), s.mem.margin.length = 2 → s.mem.marginRes.length = 2 →
      let i := if far then 1 else 0
      flag (lget 0 s.mem.margin i) 30 = true →
      ∃ t, exec (.marginTestDone far lines errors) s = .next t ∧
        fld (lget 0 t.mem.margin i) 28 3 = (if errors = 0 then 1 else 2) ∧
        lget (0, 0) t.mem.marginRes i = (lines.toNat, errors.toNat) ∧ (i < s.mem.marginOn.length → lget none t.mem.marginOn i = none) ∧
        t = { s with mem := { s.mem with margin := t.mem.margin, marginOn := t.mem.marginOn, marginRes := t.mem.marginRes } })) ∧
  (∀ (s : State) (v : Word32), s.hif.inReset = none →
      (flag s.hif.control 0 = false → fld v 0 16 ≤ s.farHostMax →
        ∃ t, exec (.farHostWrite v) s = .next t ∧ t.mem.farHost = fld v 0 16 ∧
          (flag v 31 = true → t.mem.farRefused = false) ∧
          t = { s with mem := { s.mem with farHost := t.mem.farHost, farRefused := t.mem.farRefused } }) ∧
      (flag s.hif.control 0 = false → s.farHostMax < fld v 0 16 →
        exec (.farHostWrite v) s = .next { s with mem := { s.mem with farRefused := true } }) ∧
      (flag s.hif.control 0 = true → ∃ t, exec (.farHostWrite v) s = .next t ∧ t.mem.farHost = s.mem.farHost))

/-- DESCRIPTOR_FETCH of a partition that may fetch, with a candidate context and a ring pair to take from. A readable entry whose
descriptor passes validation is accepted: SQ_HEAD moves on by one, INFLIGHT rises by one, the command is in flight with the
descriptor of its 64 bytes, stamped now. One that fails completes at once with the status of the check. An entry that cannot be
read puts the pair in ERROR with ERR_CAUSE 2. A partition that may not fetch only takes the host's stores.
The order of validation: an opcode outside Table 3.16 answers ST_BAD_OPCODE before anything else, a set reserved bit or an
invalid encoding ST_BAD_DESC before the opcode's own checks, and those before the parameter buffer is read.
Where a clause goes beyond the rules cited it is the model's choice: log entries 7, 14, 15, 16, 17, 18. -/
def Obligations.DescriptorsAreFetchedAndValidated : Prop :=
  (∀ (s : State) (stores : List Host.Cell) (part : BitVec 4),
      ((s.hostStores stores).fetches part.toNat = false →
        exec (.descriptorFetch stores part) s = .next (s.hostStores stores)) ∧
      (∀ x q, (s.hostStores stores).fetches part.toNat = true →
        let s1 := (s.hostStores stores).candRefresh part.toNat
        let r := s1.ring q
        let a := (r.sqBase.toNat / 4096) * 4096 + 64 * r.sqHead
        let c : Cmd := { seq := s1.qm.nextSeq, ring := q, ctx := x, part := part.toNat, desc := descOfBytes (s1.hostRead a 64),
                         stamp := s1.hif.timer, qos := r.qos, pEpoch := (s1.part part.toNat).epoch }
        s1.pickCtx part.toNat = some x → s1.pickRing x = some q →
        (s1.hostOk a 64 = false → exec (.descriptorFetch stores part) s = .next ((s1.ringError q 2).candRefresh part.toNat)) ∧
        (s1.hostOk a 64 = true → ∃ s2 : State,
          (s2.ring q).sqHead = (r.sqHead + 1) % r.sqSize ∧ (s2.ring q).inflight = r.inflight + 1 ∧ (∀ p, p ≠ q → s2.ring p = s1.ring p) ∧
          c ∈ s2.qm.cmds ∧ s2.qm.nextSeq = s1.qm.nextSeq + 1 ∧ (∀ y ∈ s1.qm.cmds, y ∈ s2.qm.cmds) ∧
          s2 = { s1 with qm := s2.qm, sch := { s1.sch with ctxs := s2.sch.ctxs } } ∧
          (∀ block, s2.validate c = .ok block → c.pEpoch ≠ 0 →
            exec (.descriptorFetch stores part) s = .next ((s2.accept c block).candRefresh part.toNat)) ∧
          (∀ st, s2.validate c = .error st → st ≠ stUncorrectable →
            exec (.descriptorFetch stores part) s =
              .next ((s2.complete c st 0 0 false false).candRefresh part.toNat))))) ∧
  (∀ (s : State) (c : Cmd),
      (dOpcode c.desc ∉ opcodes → s.validate c = .error stBadOpcode) ∧
      (dOpcode c.desc ∈ opcodes → descOk c.desc (dOpcode c.desc) = false → s.validate c = .error stBadDesc) ∧
      (dOpcode c.desc ∈ opcodes → descOk c.desc (dOpcode c.desc) = true → ∀ st, s.fieldCheck c = some st → s.validate c = .error st) ∧
      (dOpcode c.desc ∈ opcodes → descOk c.desc (dOpcode c.desc) = true → s.fieldCheck c = none → s.validate c = s.paramBlock c))

/-- SEARCH and SEARCH_BATCH with no ENCODE, bound to a collection's content. The first stage reads the queries, routes them
and dispatches their probes: the command runs, its SPEC1 is the bound epoch and every query has its probes. A bound collection
that was not serving makes the command complete with ST_BUSY.
SEARCH and SEARCH_BATCH with no model stage, every query dispatched: when the coverage of the next query is determined and
its answer is found with no bad line, its result block is written at its place, a merge unit of the partition holds its row and the
command goes on to its end, and the lines of the residual records it read are counted on the random path; without regulator tokens for
those reads it waits; while the coverage is not determined nothing changes.
Where a clause goes beyond the rules cited it is the model's choice: log entries 7, 8, 9, 68, 70, 133. -/
def Obligations.SearchesDispatchAndAnswer : Prop :=
  (∀ (s : State) (n : Nat) (batch : Bool) (meet : ModelMeet) (c : Cmd),
      let i : Instr := if batch then .searchBatch n 1 meet else .search n meet
      let op := if batch then opSearchBatch else opSearch
      s.ready? n (· == op) = some c → c.query.map QueryWork.met = some true → meet.internal = none →
      (c.query.bind QueryWork.bound = none → exec i s = .next (s.refuse c stBusy)) ∧
      (∀ d qs c1, c.query.bind QueryWork.bound = some d → s.noMerge c.part = false → sEncode c = false →
        (c.query.getD {}).qs.any (fun q => q.probes.isNone) = true →
        let s1 := (((s.start n).modCmd n (fun c => { c with spec1 := d.epoch })).bwRequest c.part [(n, wholeInv)] []).2
        s1.cmd? n = some c1 → s1.readQueries c1 d.cfg (c.query.getD {}).qs.zipIdx = .ok qs → s1.tableLinesBad (dObject c.desc) = [] →
        routeLinesBad s1 d = [] → dirLinesBad s1 d (dedupBy id (probedOf (s1.dispatchAll c1 d qs)) []) = [] →
        ∃ t c2, exec i s = .next t ∧ t.cmd? n = some c2 ∧ c2.spec1 = d.epoch ∧ c2.run ≠ .waiting ∧
          (c2.query.getD {}).qs = s1.dispatchAll c1 d qs ∧ (∀ q ∈ (c2.query.getD {}).qs, q.probes.isSome = true) ∧
          t = { s with qm := { s.qm with cmds := t.qm.cmds }, colls := t.colls } ∧
          (∀ o, (t.coll o).data = (s.coll o).data ∧ (t.coll o).phys = (s.coll o).phys))) ∧
  (∀ (s : State) (n : Nat) (batch : Bool) (meet : ModelMeet) (c : Cmd) (d : CollData) (q : QState) (w : QueryWork),
      let i : Instr := if batch then .searchBatch n 1 meet else .search n meet
      let op := if batch then opSearchBatch else opSearch
      s.ready? n (· == op) = some c → c.query = some w → w.met = true → w.bound = some d → meet.internal = none →
      s.noMerge c.part = false → sEncode c = false → sRerank c = false → sRewrite c = false → dDevAddr c.desc = false →
      w.qs.any (fun q => q.probes.isNone) = false → w.qs[w.next]? = some q → q.bad = false →
      (s.coverage? c.part q = none → exec i s = .next s) ∧
      (∀ cover, s.coverage? c.part q = some cover →
        let rd := s.refineLines c w d q cover
        let g := s.bwRequest c.part [(n, wholeInv)] [(2, 64 * rd)]
        (g.1 = false → exec i s = .next g.2) ∧
        (∀ a, g.1 = true → g.2.answer c w d q w.next cover = .ok a → a.excls = [] → a.out = [] →
          let at' := sResultAddr c + w.next * sResultSize c
          let block := resultBlock (sK c) (similarity d.cfg) a.status d.epoch a.cover a.valid a.invalid a.entries [] 0 0
          let s1 := (g.2.randServed rd).stageRuns n []
          let c1 := (s1.cmd? n).getD c
          s.hostOk at' block.length = true →
          exec i s = .next ((((s1.hostWrite at' block).asterHold c.part a.wide (asterRow a.ranked)).blockWritten c1 w.next a).searchEnd n))))

/-- SCAN_PASS_START and GATHER_LIMIT. With a probe that is due waiting for a list or shard whose version is in memory, a free engine of
the partition's set and the stack in service, one pass over it starts, which the probes of one version share: its segments join the
running ones and take engines. With no probe due, no
free engine or the stack out of service, waiting segments take free engines, and due probes whose version is not yet in memory note since
when they wait.
Where a clause goes beyond the rules cited it is the model's choice: log entries 8, 71, 130. -/
def Obligations.ScanPassesStart : Prop :=
  ∀ (s : State) (part : BitVec 4) (coll : BitVec 10) (list : Option (BitVec 16)) (stack : Fin 12) (limit : Bool),
    let i : Instr := if limit then .gatherLimit part coll list stack else .scanPassStart part coll list stack
    let w := scannedOf list stack.val
    let s0 := s.assignEngines
    let ws := s0.waitingProbes part.toNat coll.toNat stack.val w
    let s1 := s0.noteVersionWait stack.val w ws
    let due := fun (h : Waiting) => h.mem && (decide (h.limit ≤ s.hif.timer) || (!limit && decide (qmax h.d.cfg ≤ (sharePass ws w h).length)))
    (ws.find? due = none ∨ s1.freeEngine part.toNat stack.val = none ∨ s1.stackOutFor part.toNat stack.val = true → exec i s = .next s1) ∧
    (∀ h0, ∀ h ∈ sharePass ws w h0, h.mem = true ∧ sameVersion h.d h0.d w = true) ∧
    (∀ h e, ws.find? due = some h → s1.freeEngine part.toNat stack.val = some e → s1.stackOutFor part.toNat stack.val = false →
      ∃ t, exec i s = .next t ∧ t.scan.nextPass = s.scan.nextPass + max 1 (cdiv (scanSpan h.d w) segmentSlots) ∧
        (∃ a ∈ t.scan.passes, a.id = s.scan.nextPass ∧ a.part = part.toNat ∧ a.coll = coll.toNat ∧ a.what = w ∧ a.stack = stack.val ∧
          a.first = 0 ∧ a.served.map (fun v => (v.cmd, v.q)) = (sharePass ws w h).map (fun x => (x.cmd, x.q))) ∧
        t = { s with qm := { s.qm with cmds := t.qm.cmds }, scan := { s.scan with passes := t.scan.passes, nextPass := t.scan.nextPass } })

/-- One slot for one query: a dropped slot, or one whose score the threshold withholds, brings nothing; a NaN score counts; another
brings one record with its score, slot, list, pass, query slot and ID.
CANDIDATE_RECORD: the queries of a segment read on to the slot, and with every line good what they read crosses to the hub, once, and
the slots and records are counted on the stack and far IDs on the random path; without regulator tokens the segment waits; a slot or query
slot outside the segment does nothing.
SEGMENT_DONE on an engine, in a partition that is not pausing, with every line good: the segment reads its rest and ends, and
collections' content, memory but for its count of random-path lines, host memory and the journal store stay. The only query of a
segment has its engine's busy time charged to its context.
Where a clause goes beyond the rules cited it is the model's choice: log entries 8, 71, 72, 91. -/
def Obligations.CandidatesCrossAndSegmentsEnd : Prop :=
  (∀ (s : State) (a : Pass) (d : CollData) (q : QState) (v : Served) (j : Nat) (x : Reading) (r : SlotRow),
      let k := scanCols d a.what a.stack
      let sc := v.score d q r
      let version := match a.what with | .list l => (d.lists.getD l {}).epoch | .shard _ => 0
      let rec0 : Record := { score := sc, slot := r.slot, list := scanList a.what, tag := a.id, qslot := j, id := 0, version := version }
      slotBad s.lineBad (fun ln => !s.usable ln) d.cfg k (!idsFar d a.what) v.filter.isSome r.slot = [] →
      (v.drops r = true → s.readRow a d q v j x r = x) ∧
      (v.drops r = false → isNaN .fp32 sc = true → s.readRow a d q v j x r = { x with nans := x.nans ++ [r.slot] }) ∧
      (v.drops r = false → isNaN .fp32 sc = false → s.withholds d v sc = true → s.readRow a d q v j x r = x) ∧
      (v.drops r = false → isNaN .fp32 sc = false → s.withholds d v sc = false →
        (idsFar d a.what = false → s.lineBad (idLine k r.slot) = false →
          s.readRow a d q v j x r = { x with records := x.records ++ [({ rec0 with id := r.entry.id }, r.entry.id)] }) ∧
        (idsFar d a.what = true →
          s.readRow a d q v j x r = { x with far := x.far ++ [idLine k r.slot], records := x.records ++ [(rec0, r.entry.id)] }))) ∧
  (∀ (s : State) (stack : Fin 12) (engine : Fin 18) (a : Pass) (c : Cmd) (w : QueryWork) (q : QState) (d : CollData) (i : Instr) (hi : Nat → Nat),
      s.segmentOn stack.val engine.val = some a → a.served.findSome? s.servedOf = some (c, w, q, d) →
      let xs := a.served.zipIdx.map (fun v => s.readFor a (hi v.2) v)
      let b := a.read (lineVectors d a.what a.stack) hi xs
      let rd := ((segSlots d a a.upto b.upto).filter (s.slotRead d a)).length
      let far := sumN (xs.map (fun x => x.far.length))
      let ws := (a.served.filter (fun v => !v.left)).map (fun v => (v.cmd, passInv a.pass))
      let g := s.bwRequest a.part ws [(s.scanReg a, scanBytes d a rd), (2, 64 * far)]
      let good := ∀ x ∈ xs, x.lines = [] ∧ ∀ l ∈ x.far, s.lineBad l = false
      (∀ (query : Fin 32) (slot : Word32), i = .candidateRecord stack engine query slot →
        let there := query.val < a.served.length ∧ a.first ≤ slot.toNat ∧ slot.toNat < a.first + a.count
        (¬ there → exec i s = .next s) ∧
        (there → (∀ j, hi j = if j ≤ query.val then slot.toNat + 1 else slot.toNat) →
          (g.1 = false → exec i s = .next g.2) ∧
          (g.1 = true → good → s.scan.emit.length = 12 → s.scan.read.length = 12 →
            ∃ t, exec i s = .next t ∧ lget 0 t.scan.read a.stack = (lget 0 s.scan.read a.stack + rd) % 2 ^ 64 ∧
              lget 0 t.scan.emit a.stack = (lget 0 s.scan.emit a.stack + sumN (xs.map (fun x => x.records.length))) % 2 ^ 64 ∧
              b ∈ t.scan.passes ∧ (∀ y ∈ s.scan.passes, y.id ≠ a.id → y ∈ t.scan.passes) ∧
              (∀ v x, a.served = [v] → xs = [x] → ∃ c' w' q', t.servedOf v = some (c', w', q', d) ∧
                q'.held.map (fun h => (h.score, h.slot, h.id)) = q.held.map (fun h => (h.score, h.slot, h.id)) ++
                  (x.records.filter (fun r => decide (v.top ≤ r.1.slot))).map (fun r => (r.1.score, r.1.slot, r.2))) ∧
              t = { s with qm := { s.qm with cmds := t.qm.cmds }, sch := { s.sch with parts := t.sch.parts },
                           scan := { s.scan with passes := t.scan.passes, emit := t.scan.emit, read := t.scan.read },
                           mem := { s.mem with randLines := satN 64 (s.mem.randLines + far) } }))) ∧
      (i = .segmentDone stack engine → (∀ j, hi j = a.first + a.count) →
        (g.1 = false → exec i s = .next g.2) ∧
        (g.1 = true → good → (s.part a.part).state = .active → s.scan.read.length = 12 →
          ∃ t, exec i s = .next t ∧ (∀ y ∈ t.scan.passes, y.id ≠ a.id) ∧
            lget 0 t.scan.read a.stack = (lget 0 s.scan.read a.stack + rd) % 2 ^ 64 ∧
            t.mem = { s.mem with randLines := satN 64 (s.mem.randLines + far) } ∧ t.hostMem = s.hostMem ∧ t.jrn = s.jrn ∧
            t.models = s.models ∧ t.tiles = s.tiles ∧ (∀ o, (t.coll o).data = (s.coll o).data) ∧
            (∀ v, a.served = [v] → v.left = false → (s.ctx c.ctx).borrower = none →
              (t.ctx c.ctx).engine = ((s.ctx c.ctx).engine + a.busy) % 2 ^ 64)))) ∧
  (∀ (s : State) (stack : Fin 12) (engine : Fin 18), s.segmentOn stack.val engine.val = none →
      exec (.segmentDone stack engine) s = .next s ∧ ∀ query slot, exec (.candidateRecord stack engine query slot) s = .next s)

/-- THETA_UPDATE of a query on a stack: with as many settled entries held as it keeps, the threshold becomes the score of the
last of the best ones unless that is worse than the one published, and reaches the engines on which the query holds an entry; with fewer
nothing happens.
COVERAGE_CUTOFF: before F + 0.85 b and the time it was held, or without PARTIAL_OK, nothing happens; after it every query's
mask is fixed or determined, and segments that no longer serve a query end, their engines' time charged.
Where a clause goes beyond the rules cited it is the model's choice: log entries 70, 73. -/
def Obligations.ThresholdsAndCutoff : Prop :=
  (∀ (s : State) (n i : Nat) (stack : Fin 12) (c : Cmd) (w : QueryWork) (q : QState) (d : CollData),
      s.servedOf { cmd := n, q := i } = some (c, w, q, d) →
      let p := queryParams c w q
      let sim := similarity d.cfg
      let best := bestOf sim 32 p.dedup p.depth (q.held.filter (fun x => x.stack == stack.val && (!p.dedup || settled d q x)))
      let reached := fun (a : Pass) (v : Served) => v.cmd = n ∧ v.q = i ∧ scanHome d a.what = stack.val ∧ q.thetaSlots.contains a.stack
      (best.length < p.depth → exec (.thetaUpdate n i stack) s = .next s) ∧
      (∀ z, p.depth ≤ best.length → best.getLast? = some z →
        ((∃ t, q.theta.find? (fun t => t.1 == stack.val) = some t ∧ orderKey sim 32 t.2 < orderKey sim 32 z.score) →
          exec (.thetaUpdate n i stack) s = .next s) ∧
        ((∀ t, q.theta.find? (fun t => t.1 == stack.val) = some t → orderKey sim 32 z.score ≤ orderKey sim 32 t.2) →
          ∃ t c' w' q', exec (.thetaUpdate n i stack) s = .next t ∧ t.servedOf { cmd := n, q := i } = some (c', w', q', d) ∧
            tget 0 q'.theta stack.val = z.score ∧ (∀ x, x ≠ stack.val → tget 0 q'.theta x = tget 0 q.theta x) ∧
            (∀ a ∈ s.scan.passes, { a with served := a.served.map (fun v => if reached a v then { v with theta := some z.score } else v) } ∈
              t.scan.passes) ∧
            t = { s with qm := { s.qm with cmds := t.qm.cmds }, scan := { s.scan with passes := t.scan.passes } }))) ∧
  (∀ (s : State) (n : Nat) (c : Cmd), s.cmd? n = some c → isSearch (dOpcode c.desc) = true →
      (s.hif.timer < c.stamp + 850 * qosBound c.qos + c.heldFor ∨ qosPartial c.qos = false →
        exec (.coverageCutoff n) s = .next s) ∧
      (c.stamp + 850 * qosBound c.qos + c.heldFor ≤ s.hif.timer → qosPartial c.qos = true → ctxRuns (s.ctx c.ctx) = true →
        let fixed := (c.query.getD {}).qs.map (s.fixQuery c.part)
        (∀ q ∈ fixed, q.written = true ∨ q.bad = true ∨ (s.coverage? c.part q).isSome = true) ∧
        ∃ t c', exec (.coverageCutoff n) s = .next t ∧ t.cmd? n = some c' ∧
          (c'.query.getD {}).qs.map (fun q => (q.fixed, q.held)) = fixed.map (fun q => (q.fixed, q.held)) ∧
          (∀ a ∈ t.scan.passes, a.served.any (fun v => !v.left) = true) ∧
          t = { s with qm := { s.qm with cmds := t.qm.cmds }, sch := { s.sch with ctxs := t.sch.ctxs },
                       scan := { s.scan with passes := t.scan.passes } }))

/-- INSERT, DELETE, UPSERT and ATTR_SET that are first in their order, and RANGE_LOCK_GRANT of one whose records are read, on a
READY collection: with their locks free, their records good and room for them, they hold the locks of Table 10.5 and their frame
takes the next JSEQs; the command is at its last step with the first of them in SPEC0, and no content changes yet.
A mutation that READ_ONLY or its collection's state bars completes with the status that names it, and no content changes: ST_JRN_FAIL,
ST_NO_OBJECT or ST_BUSY.
Where a clause goes beyond the rules cited it is the model's choice: log entries 57, 58, 60, 61. -/
def Obligations.MutationsLockAndTakeJseqs : Prop :=
  (∀ (s : State) (n : Nat) (c : Cmd) (bs : List Byte) (i : Instr),
      s.ready? n isMutation = some c →
      (i = .insert n ∧ dOpcode c.desc = opInsert ∧ c.muta = none) ∨ (i = .delete n ∧ dOpcode c.desc = opDelete ∧ c.muta = none) ∨
        (i = .upsert n ∧ dOpcode c.desc = opUpsert ∧ c.muta = none) ∨ (i = .attrSet n ∧ dOpcode c.desc = opAttrSet ∧ c.muta = none) ∨
        (∃ m, i = .rangeLockGrant n ∧ c.muta = some m ∧ m.bytes = bs ∧ bs ≠ [] ∧ m.waiting = true ∧ m.locked = false ∧ m.first = none) →
      (c.muta = none → s.bufRead (dDevAddr c.desc) (dfld c.desc 0x10 0 64) (dfld c.desc 0x18 0 32) = .ok bs) →
      (∀ x ∈ s.qm.cmds, x.seq = n → x = c) →
      (∀ x ∈ s.qm.cmds, x.before c = true → isMutation (dOpcode x.desc) = false) →
      let o := dObject c.desc
      let k := s.coll o
      let rs := splitRecs k.data.cfg (dOpcode c.desc) bs
      let ls := mutLocks k.data o (dOpcode c.desc) n rs
      let count := dfld c.desc 0x1C 0 16
      k.state = .ready → s.jrn.readOnly = false → s.jrn.quiesced = false → s.jrn.mirror = false → s.jrn.lp = 0 →
      s.lockFree c ls = true → badRecords k.data (dOpcode c.desc) rs = false →
      s.recordLinesBad o (dOpcode c.desc) k.data (rs.map recId) = [] →
      s.mutFits o (if addsFresh (dOpcode c.desc) then rs.length else 0) bs.length = true →
      s.frameRoom k.data.cfg.durability bs.length = true →
      ∃ t c', exec i s = .next t ∧ t.jrn.locks = s.jrn.locks ++ ls ∧ t.jrn.next = s.jrn.next + count ∧
        t.jrn.frames = s.jrn.frames ++ [{ coll := o, op := dOpcode c.desc, first := s.jrn.next, count := count, hseq := dfld c.desc 0x08 0 64,
                                          bytes := bs, place := if k.data.cfg.durability = 0 then .staging else .assigned }] ∧
        t.cmd? n = some c' ∧ c'.run = .last ∧ c'.spec0 = s.jrn.next ∧ t.jrn.h = s.jrn.h ∧ t.colls = s.colls ∧
        (∀ x ∈ s.qm.cmds, x.seq ≠ n → x ∈ t.qm.cmds) ∧
        t = { s with qm := { s.qm with cmds := t.qm.cmds }, jrn := t.jrn }) ∧
  (∀ (s : State) (n : Nat) (c : Cmd) (i : Instr),
      s.ready? n isMutation = some c → c.muta = none →
      (i = .insert n ∧ dOpcode c.desc = opInsert) ∨ (i = .delete n ∧ dOpcode c.desc = opDelete) ∨
        (i = .upsert n ∧ dOpcode c.desc = opUpsert) ∨ (i = .attrSet n ∧ dOpcode c.desc = opAttrSet) →
      (s.jrn.readOnly = true → exec i s = .next ((s.unlock n).complete c stJrnFail 0 0 false false)) ∧
      (s.jrn.readOnly = false → (s.coll (dObject c.desc)).state = .free →
        exec i s = .next ((s.unlock n).complete c stNoObject 0 0 false false)) ∧
      (s.jrn.readOnly = false → (s.coll (dObject c.desc)).state = .building ∨ (s.coll (dObject c.desc)).state = .failed ∨
          ((s.coll (dObject c.desc)).state = .exclusive ∧ (s.coll (dObject c.desc)).busyOp ≠ opCompact ∧
            (s.coll (dObject c.desc)).busyOp ≠ opTrain) →
        exec i s = .next ((s.unlock n).complete c stBusy 0 0 false false)))

/-- Frames move in JSEQ order. FRAME_ENTER_BUFFER moves the first one that is assigned or staged into the buffer where it fits,
once its partition's journal regulator lets its bytes go;
NAND_PROGRAM_DONE programs the first one in the buffer; FRAME_PERSISTED makes the first one not persisted durable once it is in
NAND, or in the buffer under HOLDUP_READY, and H reaches its last JSEQ. Contents and host memory stay.
JOURNAL_WRITE_FAIL with frames that are not persisted: exactly those are lost, the store is READ_ONLY, one JOURNAL_FAIL record
is written and the commands that own them complete with ST_JRN_FAIL; with none, nothing happens.
Where a clause goes beyond the rules cited it is the model's choice: log entries 60, 96. -/
def Obligations.FramesPersistInOrder : Prop :=
  ((∀ (s : State) (pre post : List Frame) (f : Frame), s.jrn.frames = pre ++ f :: post →
      (∀ g ∈ pre, g.place = .buffer ∨ g.place = .nand) → f.place = .assigned ∨ f.place = .staging →
      let g := s.frameRequest f [(4, f.bytes.length)]
      (s.jrn.bytesAt .buffer + f.bytes.length ≤ bufCap →
        (g.1 = false → exec .frameEnterBuffer s = .next g.2) ∧
        (g.1 = true → exec .frameEnterBuffer s = .next { g.2 with
          jrn := { s.jrn with lastUse := s.hif.timer, frames := pre ++ { f with place := .buffer } :: post } })) ∧
      (bufCap < s.jrn.bytesAt .buffer + f.bytes.length → exec .frameEnterBuffer s = .next s)) ∧
    (∀ (s : State) (pre post : List Frame) (f : Frame), s.jrn.frames = pre ++ f :: post → (∀ g ∈ pre, g.place = .nand) →
      f.place = .buffer →
      ∃ t, exec .nandProgramDone s = .next t ∧ t.jrn.frames = pre ++ { f with place := .nand } :: post ∧ t.jrn.h = s.jrn.h ∧
        lget 0 t.mgt.life 11 = lget 0 s.mgt.life 11 + (if 11 < s.mgt.life.length then (s.jrn.programmed + f.bytes.length) / 2 ^ 30 else 0) ∧
        t = { s with jrn := t.jrn, mgt := { s.mgt with life := t.mgt.life } }) ∧
    (∀ (s : State) (pre post : List Frame) (f : Frame), s.jrn.frames = pre ++ f :: post → (∀ g ∈ pre, g.persisted = true) →
      f.persisted = false →
      (f.place = .nand ∨ (f.place = .buffer ∧ s.module.holdupReady = true) →
        exec .framePersisted s = .next (State.reclaim { s with jrn := { s.jrn with
          h := max s.jrn.h (f.first + f.count - 1), frames := pre ++ { f with persisted := true } :: post } })) ∧
      (f.place = .assigned ∨ f.place = .staging → exec .framePersisted s = .next s))) ∧
  (∀ s : State,
      ((∀ f ∈ s.jrn.frames, f.persisted = true) → exec .journalWriteFail s = .next s) ∧
      ((∃ f ∈ s.jrn.frames, f.persisted = false) → (∀ c ∈ s.qm.cmds, c.muta.bind MutWork.first = none) →
        ∃ t, exec .journalWriteFail s = .next t ∧ t.jrn.readOnly = true ∧ t.jrn.frames = s.jrn.frames.filter Frame.persisted ∧
          t.jrn.h = s.jrn.h ∧ t.colls = s.colls ∧ s.mgt.nextEvt + 1 = t.mgt.nextEvt ∧ t.hostMem = s.hostMem) ∧
      (∀ f c, s.jrn.frames.filter (fun f => !f.persisted) = [f] →
        s.qm.cmds.find? (fun c => c.muta.bind MutWork.first == some f.first) = some c →
        ∃ u : State, exec .journalWriteFail s = .next ((u.unlock c.seq).complete c stJrnFail f.first f.applied false false) ∧
          u.jrn.readOnly = true ∧ u.jrn.frames = s.jrn.frames.filter Frame.persisted ∧ u.qm = s.qm ∧ u.colls = s.colls))

/-- RECORD_APPLY of a collection whose next frame may be applied, once its owner's stack regulator lets its bytes
go: its content, HOST_SEQ, chain and APPLIED_JSEQ become those of
the frame applied in record order, all other collections stay, and the descriptor that owns the frame completes with its JSEQ
and count.
What one record does to a collection's content. DELETE and ATTR_SET change the live entries of their ID and no others, and an
absent ID nothing; INSERT and UPSERT end the ID's live entries and add one live fresh entry of it.
Where a clause goes beyond the rules cited it is the model's choice: log entries 59, 114. -/
def Obligations.RecordsApplyTogether : Prop :=
  (∀ (s : State) (coll : BitVec 10) (f : Frame),
      let k := s.coll coll.toNat
      let r := k.applyFrame (s.heldFresh coll.toNat) f
      let g := s.frameRequest f [(0, f.bytes.length)]
      k.state ≠ .free → s.nextApply coll.toNat = some f →
      (g.1 = false → exec (.recordApply coll) s = .next g.2) ∧
      (g.1 = true → ∃ u : State, (u.coll coll.toNat).data = r.1.data ∧ (u.coll coll.toNat).hseq = f.hseq ∧
        (u.coll coll.toNat).applied = f.first + f.count - 1 ∧ (u.coll coll.toNat).g = r.1.g ∧
        (∀ o, o ≠ coll.toNat → (u.coll o).data = (s.coll o).data ∧ (u.coll o).g = (s.coll o).g) ∧ u.hostMem = s.hostMem ∧
        u.qm = g.2.qm ∧
        (g.2.qm.cmds.find? (fun c => c.muta.bind MutWork.first == some f.first) = none → exec (.recordApply coll) s = .next u) ∧
        (∀ c, g.2.qm.cmds.find? (fun c => c.muta.bind MutWork.first == some f.first) = some c →
          exec (.recordApply coll) s = .next ((u.unlock c.seq).complete c
            ((c.muta.bind MutWork.abort).getD (if r.2.absent then stOkAbsent else stOk)) f.first f.count false false)))) ∧
  (∀ (held : List Nat) (mean j : Nat) (a : Applied) (r : List Byte),
      let d := a.data
      let i := recId r
      let del := (applyRec held mean opDelete j a r).data
      (d.live i = true → del.live i = false ∧ (∀ x, x ≠ i → del.live x = d.live x)) ∧
      (d.live i = false → (applyRec held mean opDelete j a r).data = d ∧ (applyRec held mean opDelete j a r).absent = true) ∧
      (d.live i = true → ∀ x, (applyRec held mean opAttrSet j a r).data.live x = d.live x) ∧
      (d.live i = false → (applyRec held mean opAttrSet j a r).data = d) ∧
      (∀ op, op = opInsert ∨ op = opUpsert →
        let t := applyRec held mean op j a r
        t.data.live i = true ∧ (∀ x, x ≠ i → t.data.live x = d.live x) ∧ t.data.fresh.length = d.fresh.length + 1 ∧
        (∀ l ∈ t.data.lists, ∀ e ∈ l.slots, e.id = i → e.dead = true)))

/-- FILTER_DEFINE while the store is ACTIVE. On a serving collection, its table entry good and its partition's journal regulator open:
a program that is well formed and whose ID is defined already takes its place, and the deletion of a defined ID removes it; a
malformed one completes with ST_BAD_CONTENT, and deleting an undefined ID with ST_NO_OBJECT. A FREE number completes with
ST_NO_OBJECT, one that does not serve with ST_BUSY; while the regulator is closed the command waits.
VERSION_WRITE of a list. While a reader still needs the version in memory nothing happens; else memory takes the next version
that a reader needs, or the newest, and nothing else changes but the buffer entries it covers.
Where a clause goes beyond the rules cited it is the model's choice: log entries 115, 118. -/
def Obligations.FiltersAndVersions : Prop :=
  (∀ (s : State) (n : Nat) (c : Cmd), s.ready? n (· == opFilter) = some c →
    let o := dObject c.desc
    let fid := dSubop c.desc % 256
    let del := bitsOf (dSubop c.desc) 8 1
    let k := s.coll o
    let had := k.data.filters.any (fun f => f.1 == fid)
    let b := s.bwRequest c.part [(n, wholeInv)] [(5, c.block.length)]
    (s.jrn.lp ≠ 0 → exec (.filterDefine n) s = .next s.wakeStore) ∧
    (s.jrn.lp = 0 → k.state = .free → exec (.filterDefine n) s = .next (s.refuse c stNoObject)) ∧
    (s.jrn.lp = 0 → k.state ≠ .free → k.serves = false → exec (.filterDefine n) s = .next (s.refuse c stBusy)) ∧
    (s.jrn.lp = 0 → k.state ≠ .free → k.serves = true → s.tableLinesBad o = [] →
      (b.1 = false → exec (.filterDefine n) s = .next b.2) ∧
      (b.1 = true → had = true → (del = 0 → filterOk k.data.cfg.attrBytes c.block = true) →
        ∃ u : State, exec (.filterDefine n) s = .next (u.complete (u.again c) stOk 0 0 false false) ∧
          (∀ x, tget [] (u.coll o).data.filters x =
            (if x = fid then (if del = 1 then [] else c.block) else tget [] k.data.filters x)) ∧
          (u.coll o).data.lists = k.data.lists ∧ (u.coll o).data.fresh = k.data.fresh ∧ (∀ p, p ≠ o → u.coll p = s.coll p) ∧
          u = { b.2 with colls := u.colls, jrn := { s.jrn with images := u.jrn.images, lastUse := s.hif.timer } }) ∧
      (b.1 = true → del = 0 → filterOk k.data.cfg.attrBytes c.block = false →
        exec (.filterDefine n) s = .next (s.refuse c stBadContent)) ∧
      (b.1 = true → del = 1 → had = false → exec (.filterDefine n) s = .next (s.refuse c stNoObject)))) ∧
  (∀ (s : State) (coll : BitVec 10) (l : Nat),
    let k := s.coll coll.toNat
    let rs := s.readers coll.toNat (.list l)
    let d := nextVersion k.data (.list l) rs
    ((∃ x ∈ rs, x.memVer (.list l) ≤ k.phys.memVer (.list l)) → exec (.versionWrite coll l false) s = .next s) ∧
    ((∀ x ∈ rs, k.phys.memVer (.list l) < x.memVer (.list l)) → l < k.phys.lists.length →
      (d = k.data ∨ d ∈ rs) ∧ (∀ x ∈ rs, d.memVer (.list l) ≤ x.memVer (.list l)) ∧
      ∃ t, exec (.versionWrite coll l false) s = .next t ∧
        (t.coll coll.toNat).phys.lists[l]? = some (d.lists.getD l {}) ∧
        (t.coll coll.toNat).phys.memVer (.list l) = d.memVer (.list l) ∧
        (∀ m, m ≠ l → (t.coll coll.toNat).phys.lists[m]? = k.phys.lists[m]?) ∧
        (t.coll coll.toNat).data = k.data ∧ (∀ p, p ≠ coll.toNat → t.coll p = s.coll p) ∧
        t = { s with colls := t.colls, mem := { s.mem with wcb := t.mem.wcb } }))

/-- The store's low power. JRN_LP_ENTRY of an ACTIVE idle store, enabled, with every frame in NAND and no maintenance, begins it;
its end is LOW_POWER, or EXITING when a command or transfer waits; JRN_LP_EXIT_DONE with no mutation waiting makes the store
ACTIVE.
Twins. A write of JRN_TWIN outside a reset level with RETAIN kept stores MIRROR, RETAIN and QUIESCE, and with no mutation held
changes nothing else; RETAIN is lost, with one record, when less than 1 % of the journal is free. A read of JRN_COLL_HSEQ returns
the HOST_SEQ and latches the chain value G of one collection.
Where a clause goes beyond the rules cited it is the model's choice: log entries 57, 97. -/
def Obligations.JournalPowerAndTwins : Prop :=
  ((∀ s : State, s.jrn.lp = 0 → flag s.jrn.ctl 16 = true → s.jrn.lastUse + 1000000 * max 1 (fld s.jrn.ctl 0 16) ≤ s.hif.timer →
      s.jrn.maint.active = false → s.jrn.ready = true → (∀ f ∈ s.jrn.frames, f.place = .nand) →
      exec .jrnLpEntry s = .next { s with jrn := { s.jrn with lp := 1 } }) ∧
    (∀ s : State, flag s.jrn.ctl 16 = false ∨ s.hif.timer < s.jrn.lastUse + 1000000 * max 1 (fld s.jrn.ctl 0 16) →
      exec .jrnLpEntry s = .next s) ∧
    (∀ s : State, s.jrn.lp = 1 →
      exec .jrnLpEntryDone s = .next { s with jrn := { s.jrn with lp := if s.jrnWanted then 3 else 2 } }) ∧
    (∀ s : State, s.jrn.lp = 3 → (∀ c ∈ s.qm.cmds, c.muta = none) →
      exec .jrnLpExitDone s = .next { s with jrn := { s.jrn with lp := 0, lastUse := s.hif.timer } })) ∧
  ((∀ (s : State) (v : Word32), s.hif.inReset = none → flag v 30 = true → (∀ c ∈ s.qm.cmds, c.muta = none) →
      ∃ t, exec (.quiesce v) s = .next t ∧ t.jrn.mirror = flag v 31 ∧ t.jrn.retain = true ∧ t.jrn.quiesced = flag v 29 ∧
        (flag v 0 = true → flag t.jrn.twin 0 = false) ∧ t = { s with jrn := { s.jrn with twin := t.jrn.twin } }) ∧
    (∀ s : State, s.jrn.retain = true → 100 * s.jrn.freeBytes < jrnCap →
      ∃ t, exec .retainLost s = .next t ∧ t.jrn.retain = false ∧ flag t.jrn.twin 0 = true ∧ t.mgt.nextEvt = s.mgt.nextEvt + 1 ∧
        (∀ o, (t.coll o).data = (s.coll o).data) ∧ t.hostMem = s.hostMem) ∧
    (∀ s : State, s.jrn.retain = false ∨ jrnCap ≤ 100 * s.jrn.freeBytes → exec .retainLost s = .next s) ∧
    (∀ s : State, s.hif.inReset = none → (s.coll s.jrn.collSel).recovering = false →
      exec .jrnCollHseqRead s =
        .next { s with jrn := { s.jrn with latched := (s.coll s.jrn.collSel).g },
                       hif := { s.hif with rdata := BitVec.ofNat 64 (s.coll s.jrn.collSel).hseq } }))

/-- BUILD. A number that awaits recovery or maintenance completes with ST_BUSY; no room, with or without replicas, with ST_NO_SPACE; a
bad record with ST_BAD_CONTENT; a number that is then not FREE with ST_BUSY: each leaves the number as it was. Else, once the
regulators are open, the number is BUILDING, and where its parameters and structures are made and fit, the command holds the content
of epoch 1 that BUILD_DONE publishes, every unit done.
BUILD_DONE, RESTORE_DONE wake a store that is not ACTIVE and wait for the regulators. A BUILD whose content is made becomes READY at
epoch 1 in the partition of its context, with an image of its own that is current. A RESTORE whose image is laid out becomes READY at
the saved epoch with a marker frame at the next JSEQ, which H reaches, once every frame is persisted; in a READ_ONLY store it ends with
ST_JRN_FAIL. Both commands complete with every unit done.
Where a clause goes beyond the rules cited it is the model's choice: log entries 20, 32, 62, 66, 118. -/
def Obligations.CollectionsAreBuiltAndPublished : Prop :=
  (∀ (s : State) (n : Nat) (c : Cmd), s.ready? n (· == opBuild) = some c → c.job = none →
      let b := c.block
      let cfg := cfgOf b
      let o := dObject c.desc
      let dev := dDevAddr c.desc
      let count := if cfgSource b = 0 then 0 else cfgCount b
      let fits := fun (s : State) => s.buildFits cfg (cfgCount b * cfg.spillMax)
      let read := s.readRecords dev (cfgSource b) (cfgStride b) (contentBytes cfg) count
      let bad := fun (r : List Byte) => recId r == padId || (recEls cfg r).any (elemBad cfg)
      let g := s.bwRequest c.part [(n, wholeInv)] (listBulk cfg (cfgCount b) 1)
      (s.awaits o = true → exec (.build n) s = .next (s.refuse c stBusy)) ∧
      (s.awaits o = false →
        (fits s = false → fits s.dropReplicas = false → exec (.build n) s = .next (s.refuse c stNoSpace)) ∧
        (fits s = true ∨ fits s.dropReplicas = true →
          (∀ st, read = .error st → exec (.build n) s =
            .next ((s.recordsMet dev (cfgSource b) (cfgStride b) (contentBytes cfg) count).refuse c st)) ∧
          (∀ rs, read = .ok rs →
            (rs.any bad = true → exec (.build n) s = .next (s.refuse c stBadContent)) ∧
            (rs.any bad = false → (s.coll o).state ≠ .free → exec (.build n) s = .next (s.refuse c stBusy)) ∧
            (rs.any bad = false → (s.coll o).state = .free → g.1 = false → exec (.build n) s = .next g.2) ∧
            (rs.any bad = false → (s.coll o).state = .free → g.1 = true →
              let s1 := (g.2.modColl o (fun _ => { state := .building, owner := c.part, busyOp := opBuild, data := { cfg := cfg } })).modCmd n
                (fun c => { c with run := .running, spec0 := unitsSpec 0 (cfgCount b), job := some { total := cfgCount b } })
              ∀ cent cb rsc, s1.readF32 dev (cfgCent b) (cfg.listCount * cfg.dim) = .ok cent →
                s1.readF32 dev (cfgCode b) (codebookBytes cfg / 4) = .ok cb → s1.readF32 dev (cfgRes b) (resScaleBytes cfg / 4) = .ok rsc →
                let pr := s1.buildParams cfg cent cb rsc ((spread (cfgSample b) rs).map (fun r => vecF32 cfg (recEls cfg r)))
                let as := assignAll pr.1 ((keepLast rs).map (fun r => { id := recId r, attr := recAttr cfg r, form := vecForm cfg (recEls cfg r) }))
                let d0 := withResScale pr.1 as
                let e := encodeAll d0 as
                let want := fun (l : Nat) => if cfgPlace b = 0 then none else some (b.getD (128 + l) 0).toNat
                overLimits cfg e.lists 0 = false →
                ∀ d s2, (pr.2.fmtCount e.sat e.nan).orDropReplicas (fun s => s.layColl { d0 with epoch := 1 } want e.lists (fun _ => 1)) = some (d, s2) →
                  imageBytes d ≤ s2.jrn.freeBytes → s2.qm = s1.qm → s1.cmd? n ≠ none →
                  ∃ t c', exec (.build n) s = .next t ∧ t.cmd? n = some c' ∧ c'.job.bind Job.result = some d ∧ c'.run = .running ∧
                    c'.spec0 = unitsSpec (cfgCount b) (cfgCount b) ∧
                    (∀ x, t.coll x = s2.coll x) ∧ t = { s2 with qm := { s2.qm with cmds := t.qm.cmds } }))))) ∧
  ((∀ (s : State) (n : Nat) (c : Cmd) (j : Job) (d : CollData), s.ready? n (· == opBuild) = some c → c.job = some j →
      j.result = some d →
      let o := dObject c.desc
      let g := s.bwRequest c.part [(n, wholeInv)] [(5, imageBytes d)]
      (s.jrn.lp ≠ 0 → exec (.buildDone n) s = .next s.wakeStore) ∧
      (s.jrn.lp = 0 → g.1 = false → exec (.buildDone n) s = .next g.2) ∧
      (s.jrn.lp = 0 → g.1 = true →
        ∃ u : State, exec (.buildDone n) s = .next (u.doneUnits n 1) ∧ (u.coll o).state = .ready ∧ (u.coll o).owner = c.part ∧
          (u.coll o).data = d ∧ (u.coll o).phys = d ∧ (u.coll o).g = j.g ∧ (∀ p, p ≠ o → (u.coll p).data = (s.coll p).data) ∧
          (let i : Image := tget {} u.jrn.images o
           i.data = d ∧ i.mark = 0 ∧ i.epoch = d.epoch ∧ i.owner = c.part ∧ i.parts = imageParts d s.jrn.nextImg (fun _ => true) []) ∧
          (∀ p, p ≠ o → tget ({} : Image) u.jrn.images p = tget {} s.jrn.images p) ∧ u.qm = g.2.qm ∧ u.hostMem = s.hostMem ∧ u.mem = s.mem)) ∧
    (∀ (s : State) (n : Nat) (c : Cmd) (j : Job) (d : CollData), s.ready? n (· == opRestore) = some c → c.job = some j →
      j.result = some d →
      let g := s.bwRequest c.part [(n, wholeInv)] (listBulk d.cfg (sumN (d.lists.map (fun l => l.slots.length))) 1)
      (s.jrn.readOnly = true → exec (.restoreDone n) s = .next (s.abortCmd c stJrnFail false)) ∧
      (s.jrn.readOnly = false → s.jrn.lp ≠ 0 → exec (.restoreDone n) s = .next s.wakeStore) ∧
      (s.jrn.readOnly = false → s.jrn.lp = 0 → (∃ f ∈ s.jrn.frames, f.persisted = false) → exec (.restoreDone n) s = .next s) ∧
      (s.jrn.readOnly = false → s.jrn.lp = 0 → (∀ f ∈ s.jrn.frames, f.persisted = true) →
        (g.1 = false → exec (.restoreDone n) s = .next g.2) ∧
        (g.1 = true →
          let x : Snapshot := tget {} s.jrn.snaps j.snap
          ∃ u : State, exec (.restoreDone n) s = .next (u.doneUnits n x.epoch) ∧ (u.coll (dObject c.desc)).state = .ready ∧
            (u.coll (dObject c.desc)).data = d ∧ (u.coll (dObject c.desc)).phys = d ∧ (u.coll (dObject c.desc)).g = x.image.g ∧
            (u.coll (dObject c.desc)).hseq = x.image.hseq ∧ u.jrn.next = s.jrn.next + 1 ∧ u.jrn.h = s.jrn.next ∧
            (∀ o, o ≠ dObject c.desc → (u.coll o).data = (s.coll o).data) ∧ u.qm = g.2.qm ∧ u.hostMem = s.hostMem ∧ u.mem = s.mem))))

/-- COMPACT and TRAIN. Before they may bind nothing happens; a FREE number completes them with ST_NO_OBJECT, one that is not READY with
ST_BUSY; while their locks are not free they wait; at epoch 0xFFFFFFFF they complete with ST_NO_SPACE, and on an uncorrectable line
of what they read with ST_UNCORRECTABLE. Else, with their new content made and room for its image, the collection is EXCLUSIVE with its
content as it was, the locks are held, and the command holds the content it will publish. Run again they do one unit, and with every
unit done step 4: the image of epoch E + 1 at the binding mark is current, with its event to publish, and no content changes.
COMPACT_PUBLISH of a COMPACT whose image is committed, or of such a TRAIN with no late fresh entry: while another command holds a
conflicting lock on its range it waits to raise its own; else the new epoch is published with the catch-up, its locks end and the
command completes.
Where a clause goes beyond the rules cited it is the model's choice: log entries 65, 67, 118. -/
def Obligations.RewritesPublishTheirEpoch : Prop :=
  ((∀ (s : State) (n : Nat) (c : Cmd), s.ready? n (· == opCompact) = some c → c.job = none →
      let o := dObject c.desc
      let k := s.coll o
      let r := compactRange k.data.lists.length (dfld c.desc 0x08 0 32) (dfld c.desc 0x0C 0 32)
      let ls : List Lock := [{ coll := o, list := true, lo := r.1, hi := r.2, excl := false, cmd := n },
                             { coll := o, list := true, lo := freshList, hi := freshList, excl := false, cmd := n }]
      (s.rewriteBinds c = false → exec (.compact n) s = .next s) ∧
      (s.rewriteBinds c = true → k.state = .free → exec (.compact n) s = .next (s.refuse c stNoObject)) ∧
      (s.rewriteBinds c = true → k.state ≠ .free → k.state ≠ .ready → exec (.compact n) s = .next (s.refuse c stBusy)) ∧
      (s.rewriteBinds c = true → k.state = .ready →
        (s.lockFree c ls = false → exec (.compact n) s = .next (s.lockWait c ls)) ∧
        (s.lockFree c ls = true → k.data.epoch = 0xFFFFFFFF → exec (.compact n) s = .next (s.refuse c stNoSpace)) ∧
        (s.lockFree c ls = true → k.data.epoch ≠ 0xFFFFFFFF →
          let p := s.compactPlan k r.1 r.2
          let bad := s.rewriteLinesBad o k.data (List.range' r.1 (r.2 + 1 - r.1)) (!k.data.fresh.isEmpty)
          let made := s.orDropReplicas (fun s => s.compactRun (s.coll o) p)
          (bad ≠ [] → exec (.compact n) s = .next ((s.meetRead bad).refuse c stUncorrectable)) ∧
          (bad = [] → made = none → exec (.compact n) s = .next (s.refuse c stNoSpace)) ∧
          (∀ d s1, bad = [] → made = some (d, s1) →
            s1.jrn.newBytes (imageParts d s1.jrn.nextImg p.lists.contains (tget {} s.jrn.images o : Image).parts) ≤ s1.jrn.freeBytes →
            ∃ t, exec (.compact n) s = .next t ∧ (t.coll o).state = .exclusive ∧ (t.coll o).busyOp = opCompact ∧
              (t.coll o).data = (s1.coll o).data ∧ t.jrn.locks = s1.jrn.locks ++ ls ∧
              (∀ c' ∈ t.qm.cmds, c'.seq = n → c'.job.bind Job.result = some d ∧ c'.run = .running ∧ c'.spec0 = unitsSpec 0 p.lists.length) ∧
              t = { s1 with qm := { s1.qm with cmds := t.qm.cmds }, colls := t.colls,
                            jrn := { s1.jrn with locks := t.jrn.locks, peak := t.jrn.peak } })))) ∧
    (∀ (s : State) (n : Nat) (c : Cmd), s.ready? n (· == opTrain) = some c → c.job = none →
      let o := dObject c.desc
      let k := s.coll o
      let ls : List Lock := [{ coll := o, list := true, lo := 0, hi := freshList, excl := false, cmd := n }]
      (s.rewriteBinds c = false → exec (.train n) s = .next s) ∧
      (s.rewriteBinds c = true → k.state = .free → exec (.train n) s = .next (s.refuse c stNoObject)) ∧
      (s.rewriteBinds c = true → k.state ≠ .free → k.state ≠ .ready → exec (.train n) s = .next (s.refuse c stBusy)) ∧
      (s.rewriteBinds c = true → k.state = .ready → s.lockFree c ls = false → exec (.train n) s = .next (s.lockWait c ls)) ∧
      (∀ x, s.rewriteBinds c = true → k.state = .ready → s.lockFree c ls = true → k.data.epoch ≠ 0xFFFFFFFF →
        s.rewriteLinesBad o k.data (List.range k.data.lists.length) true = [] → s.trainSample c k.data = .ok x →
        let t0 := trainParams k.data x.1 (bitsOf (dSubop c.desc) 1 1 == 1) (bitsOf (dSubop c.desc) 0 1 == 1) (dfld c.desc 0x14 0 32)
          (dfld c.desc 0x18 0 32)
        let d0 := withResScale { t0.1 with epoch := k.data.epoch + 1 } (assignAll t0.1 (liveVecs k.data))
        ∀ r s1, (s.fmtCount t0.2.1 t0.2.2).orDropReplicas (fun s => s.trainRun d0 (liveVecs k.data)) = some (r, s1) →
          imageBytes r.1 ≤ s1.jrn.freeBytes →
          ∃ t, exec (.train n) s = .next t ∧ (t.coll o).state = .exclusive ∧ (t.coll o).busyOp = opTrain ∧
            (t.coll o).data = (s1.coll o).data ∧ t.jrn.locks = s1.jrn.locks ++ ls ∧
            (∀ c' ∈ t.qm.cmds, c'.seq = n → c'.job.bind Job.result = some r.1 ∧ c'.run = .running ∧
              c'.spec0 = unitsSpec 0 (trainUnits (dSubop c.desc) (dfld c.desc 0x14 0 32) (liveEntries k.data).length)) ∧
            t = { s1 with qm := { s1.qm with cmds := t.qm.cmds }, colls := t.colls,
                          jrn := { s1.jrn with locks := t.jrn.locks, peak := t.jrn.peak } })) ∧
    (∀ (s : State) (n : Nat) (c : Cmd) (j : Job) (r : CollData) (i : Instr),
      (i = .compact n ∧ s.ready? n (· == opCompact) = some c) ∨ (i = .train n ∧ s.ready? n (· == opTrain) = some c) →
      c.job = some j → j.result = some r →
      let o := dObject c.desc
      let g := s.bwRequest c.part [(n, wholeInv)] (listBulk (s.coll o).data.cfg c.rewriteEntries (c.spec0 / 2 ^ 32))
      (c.unitsDone = false → exec i s = .next (if g.1 then g.2.unitStep n else g.2)) ∧
      (c.unitsDone = true → j.committed = true → exec i s = .next s) ∧
      (c.unitsDone = true → j.committed = false → s.jrn.lp ≠ 0 → exec i s = .next s.wakeStore) ∧
      (c.unitsDone = true → j.committed = false → s.jrn.lp = 0 →
        ((s.rewriteImage c).1 = false → exec i s = .next (s.rewriteImage c).2) ∧
        ((s.rewriteImage c).1 = true →
          ∃ t, exec i s = .next t ∧ (∀ x, (t.coll x).data = (s.coll x).data ∧ (t.coll x).state = (s.coll x).state) ∧
            (let a : Image := tget {} t.jrn.images o
             a.epoch = r.epoch ∧ a.mark = j.mark ∧ a.after = j.mark ∧ a.pub = some (publishEvent c j r.epoch) ∧ a.data.lists = r.lists) ∧
            (∀ x, x ≠ o → tget ({} : Image) t.jrn.images x = tget {} s.jrn.images x) ∧
            (∀ c' ∈ t.qm.cmds, c'.seq = n → c'.run = .last) ∧ t.jrn.locks = s.jrn.locks ∧ t.mem = s.mem ∧ t.hostMem = s.hostMem)))) ∧
  (∀ (s : State) (n : Nat) (c : Cmd) (j : Job) (bound result : CollData),
      s.ready? n (fun op => op == opCompact || op == opTrain) = some c → c.job = some j → j.bound = some bound → j.result = some result →
      j.committed = true →
      let o := dObject c.desc
      let k := s.coll o
      let pub := published bound k.data result j.moved
      let mine := (s.jrn.locks.filter (fun l => l.cmd == n)).map (fun l => { l with excl := true })
      let held := s.jrn.locks.any (fun h => h.cmd != n && mine.any (fun l => l.conflicts h))
      (held = true → exec (.compactPublish n) s = .next ((s.modJob n (fun j => { j with raise := true })).modCmd n
        (fun c => { c with lockFrom := some (c.lockFrom.getD s.hif.timer) }))) ∧
      (held = false → dOpcode c.desc = opCompact ∨ pub.fresh = [] →
        ∃ u : State, exec (.compactPublish n) s = .next (u.doneUnits n pub.epoch) ∧ (u.coll o).state = .ready ∧ (u.coll o).data = pub ∧
          (u.coll o).phys = publishedMem k.phys pub ∧ (u.coll o).g = absorb k.g (publishEvent c j pub.epoch) ∧
          (tget {} u.jrn.images o : Image).pub = none ∧ (tget {} u.jrn.images o : Image).data = (tget {} s.jrn.images o : Image).data ∧
          (∀ l ∈ u.jrn.locks, l.cmd ≠ n) ∧ (∀ l ∈ s.jrn.locks, l.cmd ≠ n → l ∈ u.jrn.locks) ∧
          (∀ x, x ≠ o → (u.coll x).data = (s.coll x).data) ∧ u.qm = (s.modCmd n (lockGot s.hif.timer)).qm ∧ u.hostMem = s.hostMem ∧
          u.mem = s.mem))

/-- SNAPSHOT and SNAPSHOT_SESSION. A bound snapshot waits until H reaches its mark; then, with a catalog entry and room, the
bound content stands under its label and the command completes. A session snapshot keeps the sequences of its context. A store
that is READ_ONLY completes them with ST_JRN_FAIL; no catalog entry or room completes them with ST_NO_SPACE.
RESTORE and RESTORE_SESSION. RESTORE of a saved label onto a FREE, READY or FAILED number whose image can be laid out makes the
number EXCLUSIVE, its index epoch as it was, with the command running; run again it does one unit. No such label completes with
ST_NO_OBJECT, a number in use or awaiting recovery with ST_BUSY, an image that fits nowhere with ST_NO_SPACE. RESTORE_SESSION re-creates the saved sequences
in slots that hold the same models, with room; else ST_BAD_CONTENT or ST_NO_SPACE and no sequence changes.
While a regulator they need is closed they wait.
Where a clause goes beyond the rules cited it is the model's choice: log entries 21, 64, 118. -/
def Obligations.SnapshotsAndRestores : Prop :=
  ((∀ (s : State) (n : Nat) (c : Cmd) (j : Job) (d : CollData), s.ready? n (· == opSnapshot) = some c → dSubop c.desc = 0 →
      s.mutsDone c = true → s.jrn.lp = 0 → c.job = some j → j.bound = some d →
      (s.jrn.readOnly = true → exec (.snapshot n) s = .next (s.refuse c stJrnFail)) ∧
      (s.jrn.readOnly = false → s.jrn.h < j.mark →
        exec (.snapshot n) s = .next ((s.start n).modCmd n (fun c => { c with spec0 := unitsSpec 0 (imageMiB d), spec1 := d.epoch }))) ∧
      (s.jrn.readOnly = false → j.mark ≤ s.jrn.h →
        let cur : Image := j.img.getD {}
        let img : Image := { cur with epoch := d.epoch, after := j.mark, owner := c.part, data := d, nextFresh := j.nextFresh, hseq := j.hseq,
                                      g := j.g, checks := j.checks, drift := j.drift.afterReset, events := [], pub := none,
                                      wins := cur.wins ++ [(cur.after, j.mark)] }
        let x : Snapshot := { part := c.part, object := dObject c.desc, label := dfld c.desc 0x08 0 64, epoch := d.epoch, image := img }
        let on := (s.start n).modCmd n (fun c => { c with spec0 := unitsSpec 0 (imageMiB d), spec1 := d.epoch })
        (on.commitSnap x = none → exec (.snapshot n) s = .next (on.refuse c stNoSpace)) ∧
        (∀ i u, on.commitSnap x = some u →
          exec (.snapshot n) s = .next (u.doneUnits n d.epoch) ∧ u.colls = s.colls ∧ u.hostMem = s.hostMem ∧
          (s.jrn.findSnap c.part false (dObject c.desc) x.label = some i → tget {} u.jrn.snaps i.1 = x)))) ∧
    (∀ (s : State) (n : Nat) (c : Cmd), s.ready? n (· == opSnapshot) = some c → dSubop c.desc = 1 → s.jrn.lp = 0 →
      (∀ x ∈ s.qm.cmds, x.before c = true → x.ring ≠ c.ring) →
      (s.jrn.readOnly = true → exec (.snapshotSession n) s = .next (s.refuse c stJrnFail)) ∧
      (s.jrn.readOnly = false →
        let qs := (s.models.seqs.filter (fun q => q.ctx == c.ctx)).map (fun q => ((tget {} s.models.slots q.slot : Slot).modelId, q))
        let y : Snapshot := { part := c.part, session := true, object := c.ctx, label := dfld c.desc 0x08 0 64, seqs := qs }
        let g := s.bwRequest c.part [(n, wholeInv)] [(5, y.stateBytes)]
        (g.1 = false → exec (.snapshotSession n) s = .next g.2) ∧
        (∀ u, g.1 = true → g.2.commitSnap y = some u → exec (.snapshotSession n) s =
          .next (u.complete (u.again c) stOk (unitsSpec (sessionMiB qs) (sessionMiB qs)) 0 false false)) ∧
        (g.1 = true → g.2.commitSnap y = none → exec (.snapshotSession n) s = .next (g.2.refuse (g.2.again c) stNoSpace))))) ∧
  ((∀ (s : State) (n : Nat) (c : Cmd) (j : Job), s.ready? n (· == opRestore) = some c → dSubop c.desc = 0 → c.job = some j → s.jrn.lp = 0 →
      let g := s.bwRequest c.part [(n, wholeInv)] [(5, 2 ^ 20)]
      exec (.restore n) s = .next (if g.1 then g.2.unitStep n else g.2)) ∧
    (∀ (s : State) (n : Nat) (c : Cmd), s.ready? n (· == opRestore) = some c → dSubop c.desc = 0 → c.job = none → s.jrn.lp = 0 →
      let o := dObject c.desc
      let k := s.coll o
      (s.jrn.readOnly = true → exec (.restore n) s = .next (s.refuse c stJrnFail)) ∧
      (s.jrn.readOnly = false → s.awaits o = true ∨ k.state = .building ∨ k.state = .exclusive →
        exec (.restore n) s = .next (s.refuse c stBusy)) ∧
      (s.jrn.readOnly = false → s.awaits o = false → k.state = .free ∨ k.state = .ready ∨ k.state = .failed →
        (s.jrn.findSnap c.part false o (dfld c.desc 0x08 0 64) = none → exec (.restore n) s = .next (s.refuse c stNoObject)) ∧
        (∀ x, s.jrn.findSnap c.part false o (dfld c.desc 0x08 0 64) = some x →
          let u : State := { s with colls := tset s.colls o { k with
            state := .exclusive, owner := if k.state = .free then c.part else k.owner, busyOp := opRestore,
            data := { cfg := k.data.cfg, epoch := k.data.epoch }, phys := {} } }
          (u.orDropReplicas (fun s => s.layImage x.2.image.data) = none → exec (.restore n) s = .next (s.refuse c stNoSpace)) ∧
          (∀ d s1, u.orDropReplicas (fun s => s.layImage x.2.image.data) = some (d, s1) →
            ∃ t, exec (.restore n) s = .next t ∧
              (∀ c' ∈ t.qm.cmds, c'.seq = n → c'.job.bind Job.result = some d ∧ c'.run = .running ∧ c'.spec0 = unitsSpec 0 (imageMiB d) ∧
                c'.spec1 = k.data.epoch) ∧
              t = { s1 with qm := { s1.qm with cmds := t.qm.cmds } })))) ∧
    (∀ (s : State) (n : Nat) (c : Cmd) (i : Nat) (y : Snapshot), s.ready? n (· == opRestore) = some c → dSubop c.desc = 1 → s.jrn.lp = 0 →
      s.jrn.readOnly = false → s.jrn.findSnap c.part true c.ctx (dfld c.desc 0x08 0 64) = some (i, y) →
      let holds := fun (q : Nat × Seq) => (tget {} s.models.slots q.2.slot : Slot).state = .ready ∧
        (tget {} s.models.slots q.2.slot : Slot).modelId = q.1 ∧ (tget {} s.models.slots q.2.slot : Slot).owner = c.part
      let back := y.seqs.map Prod.snd
      let kept := s.models.seqs.filter (fun q => !back.any (fun z => z.slot == q.slot && z.ctx == q.ctx && z.seq == q.seq))
      ((∃ q ∈ y.seqs, ¬ holds q) → exec (.restoreSession n) s = .next (s.refuse c stBadContent)) ∧
      ((∀ q ∈ y.seqs, holds q) → s.sessionFits kept back = false → exec (.restoreSession n) s = .next (s.refuse c stNoSpace)) ∧
      ((∀ q ∈ y.seqs, holds q) → s.sessionFits kept back = true →
        let g := s.bwRequest c.part [(n, wholeInv)] [(5, y.stateBytes)]
        (g.1 = false → exec (.restoreSession n) s = .next g.2) ∧
        (g.1 = true → exec (.restoreSession n) s =
          .next (({ g.2 with models := { s.models with seqs := kept ++ back } } : State).complete (g.2.again c) stOk
            (unitsSpec (sessionMiB y.seqs) (sessionMiB y.seqs)) 0 false false)))))

/-- SNAP_DELETE outside a reset level removes exactly the selected entry and what no image or snapshot then needs; while a RESTORE reads
it, it stays until that ends. COLLECTION_RECOVERY of a ready store wakes it when it is not ACTIVE, waits for the regulator, and loads
the lowest collection that waits, with its image and the frames above it applied in order, and records it; one that fits nowhere, and
none waiting, change nothing.
SANITISE and FORMAT start where no such operation runs and the collection is READY or FAILED, or on the whole store; another
running, a collection in use or awaiting recovery makes them complete with ST_BUSY, a FREE number with ST_NO_OBJECT. Run again, they
and MAINT_RESUME do one GiB unit, which is persisted, all but the last. MAINT_DONE that a command runs completes it: of one collection
it frees it with its image, frames and snapshots, and SANITISE leaves none of its bytes; of the whole store nothing of it is left.
MAINT_RESUME takes up an operation that was cut short.
Where a clause goes beyond the rules cited it is the model's choice: log entries 63, 98, 99, 112, 118, 132. -/
def Obligations.CollectionsRecoverAndEnd : Prop :=
  ((∀ (s : State) (v : Word32), s.hif.inReset = none → flag v 0 = true →
      s.jrn.snaps.any (fun x => x.1 == s.jrn.snapSel) = true →
      let reads := fun (c : Cmd) => dOpcode c.desc = opRestore ∧ c.job.map Job.snap = some s.jrn.snapSel
      ((∀ c ∈ s.qm.cmds, ¬ reads c) →
        ∃ t, exec (.snapDelete v) s = .next t ∧ t.jrn.snaps = tdel s.jrn.snaps s.jrn.snapSel ∧
          (∀ f ∈ t.jrn.frames, f ∈ s.jrn.frames) ∧ (s.jrn.retain = true → t.jrn.frames = s.jrn.frames) ∧
          (∀ o, (t.coll o).data = (s.coll o).data) ∧
          t = { s with colls := t.colls, jrn := { s.jrn with snaps := t.jrn.snaps, frames := t.jrn.frames, kept := t.jrn.kept } }) ∧
      ((∃ c ∈ s.qm.cmds, reads c) →
        ∃ t, exec (.snapDelete v) s = .next t ∧ (∀ c ∈ t.qm.cmds, reads c → c.job.map Job.gone = some true) ∧
          t = { s with qm := { s.qm with cmds := t.qm.cmds } })) ∧
    (∀ s : State, s.jrn.recov = [] → exec .collectionRecovery s = .next s) ∧
    (∀ (s : State) (o : Nat) (rest : List Nat), s.jrn.recov = o :: rest → s.jrn.ready = true →
      let i : Image := tget {} s.jrn.images o
      let k := recoveredColl i (s.jrn.framesAbove o i.after)
      let g := s.bwRequest i.owner [] [(5, imageBytes i.data)]
      let laid := g.2.orDropReplicas (fun s => s.layImage k.data)
      (s.jrn.lp ≠ 0 → exec .collectionRecovery s = .next s.wakeStore) ∧
      (s.jrn.lp = 0 → g.1 = false → exec .collectionRecovery s = .next g.2) ∧
      (s.jrn.lp = 0 → g.1 = true → laid = none → exec .collectionRecovery s = .next s) ∧
      (∀ d s1, s.jrn.lp = 0 → g.1 = true → laid = some (d, s1) →
        ∃ t, exec .collectionRecovery s = .next t ∧ t.jrn.recov = rest ∧ (t.coll o) = { k with data := d, phys := d } ∧
          (∀ x, x ≠ o → t.coll x = s1.coll x) ∧ t.mgt.nextEvt = s1.mgt.nextEvt + 1 ∧ t.jrn.snaps = s1.jrn.snaps ∧ t.mem = s1.mem))) ∧
  ((∀ (s : State) (n : Nat) (c : Cmd) (sanitise : Bool),
      let i : Instr := if sanitise then .sanitise n else .format n
      let op := if sanitise then opSanitise else opFormat
      let k := s.coll (dObject c.desc)
      s.ready? n (· == op) = some c → s.jrn.lp = 0 →
      (c.job.isSome = true → exec i s = .next s.maintUnit) ∧
      (c.job = none → s.jrn.maint.active = true → exec i s = .next (s.refuse c stBusy)) ∧
      (c.job = none → s.jrn.maint.active = false → dObject c.desc ≠ 0xFFFF →
        k.recovering = true ∨ k.state = .building ∨ k.state = .exclusive → exec i s = .next (s.refuse c stBusy)) ∧
      (c.job = none → s.jrn.maint.active = false → dObject c.desc ≠ 0xFFFF → k.recovering = false → k.state = .free →
        exec i s = .next (s.refuse c stNoObject)) ∧
      (c.job = none → s.jrn.maint.active = false →
          dObject c.desc = 0xFFFF ∨ (k.recovering = false ∧ (k.state = .ready ∨ k.state = .failed)) →
        ∃ t, exec i s = .next t ∧ t.jrn.maint.active = true ∧ t.jrn.maint.op = (if sanitise then 2 else 1) ∧
          t.jrn.maint.total = s.maintUnits (dObject c.desc) ∧ t.jrn.maint.done = 0 ∧ t.jrn.maint.cmd = some n ∧
          (dObject c.desc ≠ 0xFFFF → (t.coll (dObject c.desc)).state = .exclusive ∧ (t.coll (dObject c.desc)).data = k.data) ∧
          t = { s with qm := { s.qm with cmds := t.qm.cmds }, colls := t.colls, jrn := { s.jrn with maint := t.jrn.maint } })) ∧
    (∀ s : State,
      let m := s.jrn.maint
      let g := s.maintRequest
      (m.total ≤ m.done + 1 → s.maintUnit = s) ∧ (m.done + 1 < m.total → g.1 = false → s.maintUnit = g.2) ∧
      (m.done + 1 < m.total → g.1 = true →
        s.maintUnit.jrn = { s.jrn with lastUse := s.hif.timer, maint := { m with done := m.done + 1 } } ∧ s.maintUnit.colls = s.colls ∧
        s.maintUnit.mem = s.mem ∧ s.maintUnit.hostMem = s.hostMem)) ∧
    (∀ (s : State) (n : Nat) (c : Cmd), s.jrn.maint.active = true → s.jrn.maint.cmd = some n → s.cmd? n = some c →
      s.jrn.maint.target ≠ 0x7FF →
      ∃ u : State, exec .maintDone s = .next (u.doneUnits n 0) ∧ u.jrn.maint.active = false ∧ u.jrn.maint.done = s.jrn.maint.total ∧
        (u.coll s.jrn.maint.target).state = .free ∧ (∀ x, x ≠ s.jrn.maint.target → u.coll x = s.coll x) ∧
        (∀ f ∈ u.jrn.frames, f.coll ≠ s.jrn.maint.target) ∧ (∀ f ∈ s.jrn.frames, f.coll ≠ s.jrn.maint.target → f ∈ u.jrn.frames) ∧
        (∀ x ∈ u.jrn.snaps, x.2.session = true ∨ x.2.object ≠ s.jrn.maint.target) ∧ u.qm = s.qm ∧ u.hostMem = s.hostMem ∧
        (s.jrn.maint.op = 1 → u = { s with colls := u.colls, jrn := u.jrn }) ∧
        (s.jrn.maint.op ≠ 1 → ∀ x ∈ u.mem.dev, ∀ e ∈ (s.coll s.jrn.maint.target).data.runs, e.has (x.1 / blockBytes) = false)) ∧
    (∀ (s : State) (n : Nat) (c : Cmd), s.jrn.maint.active = true → s.jrn.maint.cmd = some n → s.cmd? n = some c →
      s.jrn.maint.target = 0x7FF →
      ∃ u : State, exec .maintDone s = .next (u.doneUnits n 0) ∧ u.colls = [] ∧ u.jrn.frames = [] ∧ u.jrn.images = [] ∧ u.jrn.snaps = [] ∧
        u.jrn.h = 0 ∧ u.jrn.next = 1 ∧ u.jrn.readOnly = false ∧ (s.jrn.maint.op = 2 → u.mem.dev = []) ∧ u.hostMem = s.hostMem) ∧
    (∀ s : State, s.jrn.maint.active = true → s.jrn.maint.cmd = none →
      (s.jrn.maint.resumed = true → exec .maintResume s = .next s.maintUnit) ∧
      (s.jrn.maint.resumed = false → s.jrn.maint.target = 0x7FF → s.hif.bootStage = 0x60 → s.jrn.ready = false →
        exec .maintResume s = .next { s with jrn := { s.jrn with maint := { s.jrn.maint with resumed := true } } }) ∧
      (s.jrn.maint.resumed = false → s.jrn.maint.target ≠ 0x7FF → s.jrn.ready = true →
        ∃ t, exec .maintResume s = .next t ∧ t.jrn.maint.resumed = true ∧ (t.coll s.jrn.maint.target).state = .exclusive ∧
          ((s.coll s.jrn.maint.target).state = .exclusive ∨ (s.coll s.jrn.maint.target).recovering = true →
            (t.coll s.jrn.maint.target).data = (s.coll s.jrn.maint.target).data) ∧
          s.jrn.maint.target ∉ t.jrn.recov ∧ t = { s with colls := t.colls, jrn := t.jrn })))

/-- MODEL_LOAD of a slot that is free or unused, with a well-formed image that can be read and room for it: the slot is LOADING with
the image, owned by the command's partition; a malformed header refuses with ST_BAD_CONTENT, a slot in use with ST_BUSY.
In a partition that is not DRAINING
MODEL_LOAD_DONE makes it READY with its MODEL_ID. Run again, MODEL_LOAD copies one MiB once the BULK regulator is open.
MODEL_UNLOAD frees an unused slot, and refuses a used one with ST_BUSY.
MODEL_ACTIVATE of a READY model of an ACTIVE partition on a tile group of its placement: in the stacks, read in place or with a
working copy, it is active there and the group's tiles hold its pinned tensors; a far one with room in the model area gets its working
copy first, once the regulators are open. Of another model or group nothing changes.
Where a clause goes beyond the rules cited it is the model's choice: log entries 34, 102, 103, 105, 118, 134. -/
def Obligations.ModelsLoadAndBecomeActive : Prop :=
  (∀ (s : State) (n : Nat) (c : Cmd), s.ready? n (· == opModelLoad) = some c →
      let o := dObject c.desc
      let m : Slot := tget {} s.models.slots o
      let dev := dDevAddr c.desc
      let a := dfld c.desc 0x08 0 64
      let len := dfld c.desc 0x10 0 32
      let far := bitsOf (dSubop c.desc) 0 1 == 1
      (bitsOf (dSubop c.desc) 1 1 = 0 → c.job = none →
        (m.state ≠ .free → s.slotUsed c o = true → exec (.modelLoad n) s = .next (s.refuse c stBusy)) ∧
        (m.state = .free ∨ s.slotUsed c o = false → ∀ h, s.bufRead dev a 256 = .ok h →
          (headerOk h len = false → exec (.modelLoad n) s = .next (s.refuse c stBadContent)) ∧
          (headerOk h len = true → ∀ dir img rs s1, s.bufRead dev (a + hdrDir h) (64 * hdrTensors h) = .ok dir →
            (dirEntries h dir).all (tensorOk · len) = true →
            (s.slotFree o).orDropReplicas (fun x => x.modelSpace far
              (weightBytes (dirEntries h dir) + shadowTotal (dirEntries h dir)) (hdrPool h * 2 ^ 20)) = some (rs, s1) →
            s1.bufRead dev a len = .ok img →
            ∃ t k, exec (.modelLoad n) s = .next t ∧ tget {} t.models.slots o = k ∧ k.state = .loading ∧ k.owner = c.part ∧
              k.hdr = h ∧ k.image = img ∧ k.far = far ∧ k.runs = rs ∧ k.tensors.map Tensor.entry = dirEntries h dir ∧
              (∀ q, q ≠ o → tget {} t.models.slots q = tget {} s1.models.slots q) ∧ t.hostMem = s1.hostMem ∧ t.jrn = s1.jrn))) ∧
      (bitsOf (dSubop c.desc) 1 1 = 0 → c.job ≠ none →
        exec (.modelLoad n) s = .next (let g := s.copyGo n c.part far; if g.1 then g.2.unitStep n else g.2)) ∧
      (c.job ≠ none → m.state = .loading → (s.part c.part).state ≠ .draining →
        ∃ t k, exec (.modelLoadDone n) s = .next t ∧ tget {} t.models.slots o = k ∧ k.state = .ready ∧ k.owner = m.owner ∧
          k.image = m.image ∧ k.modelId = modelIdOf m.hdr m.image (m.tensors.map Tensor.entry) ∧
          (∀ q, q ≠ o → tget {} t.models.slots q = tget {} s.models.slots q) ∧ (∀ x ∈ t.qm.cmds, x.seq ≠ n)) ∧
      (bitsOf (dSubop c.desc) 1 1 = 1 →
        (s.slotUsed c o = true → exec (.modelUnload n) s = .next (s.refuse c stBusy)) ∧
        (s.slotUsed c o = false → ∃ t, exec (.modelUnload n) s = .next t ∧
          t = (s.slotFree o).complete c stOk 0 0 false false ∧ (∀ x ∈ t.models.slots, x.1 ≠ o) ∧
          (∀ x ∈ t.models.active, x.2 ≠ o)))) ∧
  (∀ (s : State) (part : BitVec 4) (group : Fin 64) (slot : BitVec 8),
      let p := part.toNat
      let o := slot.toNat
      let m : Slot := tget {} s.models.slots o
      let may := m.state = .ready ∧ m.owner = p ∧ (s.part p).state = .active ∧ (s.part p).place.any (fun e => e.2 == group.val) = true
      let here := m.far = false ∨ m.inPlace = true ∨ s.models.copies.any (fun w => w.slot == o && w.part == p) = true
      let used := sumN ((s.models.copies.filter (fun w => w.part == p)).map (fun w => (tget {} s.models.slots w.slot : Slot).weights))
      let on := tset s.models.active (64 * p + group.val) o
      (¬ may → exec (.modelActivate part group slot) s = .next s) ∧
      let tiles := groupTiles (s.part p).place group.val
      let pinned := fun (t : State) => (∀ x ∈ tiles, (t.tile x).pins = m.pinned.map (fun y => (o, y.2))) ∧ (∀ x, x ∉ tiles → t.tile x = s.tile x)
      let g := s.bwRequest p [] [(3, m.weights), (1, m.weights)]
      (may → here → ∃ t, exec (.modelActivate part group slot) s = .next t ∧ pinned t ∧
        t = { s with tiles := t.tiles, models := { s.models with active := on } }) ∧
      (may → ¬ here → used + m.weights ≤ s.modelArea p →
        (g.1 = false → exec (.modelActivate part group slot) s = .next s) ∧
        (g.1 = true → ∃ t, exec (.modelActivate part group slot) s = .next t ∧ pinned t ∧
          t = { g.2 with tiles := t.tiles, models := { s.models with
            active := on, copies := s.models.copies ++ [{ slot := o, part := p, stepped := s.hif.timer }] } })))

/-- MODEL_STEP of a READY model active in its partition, the first of its slot and context. A step buffer out of its ranges, or a token
at or above the vocabulary, refuses with ST_BAD_CONTENT and steps nothing. A good one waits for the regulators of its weight reads;
then one that meets no error steps once: its output
records go to the output buffer after their count, the sequences are those the step leaves, and deferred joins show as
ST_OK_DEFERRED. A hard error refuses with ST_UNCORRECTABLE, and an output that cannot be written with ST_HOST_MEM_FAULT; an
inconsistency that the device finds stops it with ST_INTERNAL and one record.
Where a clause goes beyond the rules cited it is the model's choice: log entries 34, 92, 104, 118, 127. -/
def Obligations.ModelStepsEmitTheirRecords : Prop :=
  ∀ (s : State) (n : Nat) (c : Cmd), s.ready? n (· == opModelStep) = some c →
    let o := dObject c.desc
    let m : Slot := tget {} s.models.slots o
    let dev := dDevAddr c.desc
    let js := (List.range (stepJoins c.block)).map (joinAt c.block)
    m.state = .ready → s.modelActive c.part o = true →
    s.earlier c (fun y => dOpcode y.desc == opModelStep && dObject y.desc == o && y.ctx == c.ctx) = false →
    (∀ e code, e.internal = some code → exec (.modelStep n e) s = .next ((s.event 0x0070 3 0 0 code.toNat 0).abortCmd c stInternal false)) ∧
    (s.stepOk m o c.ctx c.block = false → ∀ e, e.internal = none → exec (.modelStep n e) s = .next (s.refuse c stBadContent)) ∧
    (s.stepOk m o c.ctx c.block = true → ∀ ts, s.readJoins dev js = .ok ts →
      let wrong := ts.any (fun t => (t.2.1 ++ t.2.2).any (fun k => decide (hdrVocab m.hdr ≤ k)))
      let g := s.bwRequest c.part [(n, wholeInv)] (s.weightReads [o])
      let s0 := ((g.2.start n).repin c.part o).modCmd n (fun x => { x with fallback := m.marks.any id })
      let c0 := (s0.cmd? n).getD c
      let r := stepRun m o c.ctx s.models.seqs c.block [] ts
      let out := natBytes 4 r.recs.length ++ natBytes 60 0 ++ r.recs.flatten
      (wrong = true → ∀ e, e.internal = none → exec (.modelStep n e) s = .next (s.refuse c stBadContent)) ∧
      (wrong = false → g.1 = false → ∀ e, e.internal = none → exec (.modelStep n e) s = .next g.2) ∧
      (wrong = false → g.1 = true →
        (∀ bad, exec (.modelStep n { hard := true, seqs := bad }) s = .next (s0.refuse c0 stUncorrectable)) ∧
        (s0.writeAll dev (r.outs ++ [(dfld c.desc 0x18 0 64, out)]) = none →
          exec (.modelStep n {}) s = .next (s0.refuse c0 stHostMemFault)) ∧
        ((s.part c.part).state ≠ .draining → ∀ s1, s0.writeAll dev (r.outs ++ [(dfld c.desc 0x18 0 64, out)]) = some s1 →
          ∃ t, exec (.modelStep n {}) s = .next t ∧ t.models.seqs = r.seqs ∧
            t.models.slots = s.models.slots ∧ t.models.active = s.models.active ∧
            t = ((({ s1 with models := { s1.models with seqs := r.seqs } } : State).stampCopy c.part o).complete c0
              (if r.deferred = 0 then stOk else stOkDeferred) r.spec0 r.tokens true false))))

/-- ATOMIC whose operand reads and whose target has no uncorrectable line, once the LC regulator of the target's tier is open: the sum
is in memory and SPEC0 holds the old value, 0 for a vector; an uncorrectable target refuses with ST_UNCORRECTABLE. QUERY_PROGRESS
SUBOP 1 answers H; SUBOP 0 answers the state and SPEC0
of the command its tag names. DIGEST SUBOP 0 with no earlier mutation of its ring and no recovery writes M over the contributing
collections.
Where a clause goes beyond the rules cited it is the model's choice: log entries 91, 101, 118. -/
def Obligations.AddsAndQueriesAnswer : Prop :=
  (∀ (s : State) (n : Nat) (c : Cmd) (x : List Byte), s.ready? n (· == opAtomic) = some c →
    let ty := bitsOf (dSubop c.desc) 0 3
    let a := dfld c.desc 0x08 0 64
    let v := dfld c.desc 0x10 0 64
    let w := atomicBytes ty
    let g := s.bwRequest c.part [(n, wholeInv)] [(lcOf a, w)]
    let u := ((if farBase ≤ a then g.2.randServed 1 else g.2).wcbDrop (a / 64 * 64) 64).devMemPut a (atomicBytesOf ty (s.devRead a w) x)
    (if ty = 4 then s.bufRead (dDevAddr c.desc) v 64 else .ok (natBytes w v)) = .ok x →
    (s.badLines a w = [] →
      (g.1 = false → exec (.atomic n) s = .next g.2) ∧
      (g.1 = true → ∃ t, exec (.atomic n) s = .next t ∧ t.mem.dev = memWrite s.mem.dev a (atomicBytesOf ty (s.devRead a w) x) ∧
        t = u.complete (u.again c) stOk (if ty = 4 then 0 else bytesNat (s.devRead a w)) 0 false false)) ∧
    (s.badLines a w ≠ [] → exec (.atomic n) s = .next ((s.meetRead (s.badLines a w)).refuse c stUncorrectable))) ∧
  (∀ (s : State) (n : Nat) (c : Cmd), s.ready? n (· == opProgress) = some c →
    (dSubop c.desc = 1 → exec (.queryProgress n) s = .next (s.complete c stOk s.jrn.h 0 false false)) ∧
    (dSubop c.desc ≠ 1 →
      let r := (s.start n).progressOf (dfld c.desc 0x08 0 12) (dfld c.desc 0x0A 0 16)
      exec (.queryProgress n) s = .next (s.complete c stOk r.2 r.1 false false))) ∧
  (∀ (s : State) (n : Nat) (c : Cmd), s.ready? n (· == opDigest) = some c →
    (∀ x ∈ s.qm.cmds, x.before c = true → x.ring = c.ring → isMutation (dOpcode x.desc) = false) →
    (s.jrn.recov ≠ [] → exec (.digest n) s = .next (s.refuse c stBusy)) ∧
    (s.jrn.recov = [] → dSubop c.desc = 0 →
      let cs := s.contributors
      let d := s.moduleDigest (cs.map (fun k => (k.1, k.2.data.epoch, k.2.g)))
      ∀ s1, s.bufWrite (dDevAddr c.desc) (dfld c.desc 0x08 0 64) d = some s1 →
        exec (.digest n) s = .next (s1.complete c stOk (maxL (cs.map (fun k => k.2.applied))) (maxL (cs.map (fun k => k.2.data.epoch)))
          true false)))

/-- CONTEXT_CREATE of the context selected: a FREE one in a partition that is neither OFF nor DRAINING becomes ACTIVE with its
accounting cleared; one that is not FREE gets ERR 1, one in an OFF or DRAINING partition ERR 2. CONTEXT_DESTROY: an ACTIVE or
TORN_DOWN one with no ring pair becomes FREE; one with a ring pair gets ERR 3, another ERR 4.
PARTITION_ENABLE of the partition selected: one not OFF gets ERR 4; one that shares a cluster, scan slot or ring-pair group with a
partition not OFF ERR 1; one with no cluster or no slot ERR 2; one whose areas do not fit the stacks ERR 3; any other becomes
ACTIVE with no placement, semaphore or saved image and its configuration as it was, and no other partition changes.
Where a clause goes beyond the rules cited it is the model's choice: log entry 86. -/
def Obligations.PartitionsAndContextsStart : Prop :=
  (∀ s : State, s.hif.inReset = none →
      let x := s.sch.ctxSel
      let k := s.ctx x
      let q := s.part (fld k.cfg 16 4)
      (k.state = .free → q.state ≠ .off → q.state ≠ .draining →
        exec .contextCreate s = .next (s.modCtx x (fun k => { ({} : Context) with cfg := k.cfg, state := .active }))) ∧
      (k.state ≠ .free → exec .contextCreate s = .next (s.modCtx x (fun k => { k with err := 1 }))) ∧
      (k.state = .free → q.state = .off ∨ q.state = .draining → exec .contextCreate s = .next (s.modCtx x (fun k => { k with err := 2 }))) ∧
      (k.state = .active ∨ k.state = .tornDown → s.ringsOfCtx x = [] →
        exec .contextDestroy s = .next (s.modCtx x (fun k => { k with state := .free, err := 0 }))) ∧
      (k.state = .active ∨ k.state = .tornDown → s.ringsOfCtx x ≠ [] →
        exec .contextDestroy s = .next (s.modCtx x (fun k => { k with err := 3 }))) ∧
      (k.state ≠ .active → k.state ≠ .tornDown → exec .contextDestroy s = .next (s.modCtx x (fun k => { k with err := 4 })))) ∧
  (∀ s : State, s.hif.inReset = none →
      let p := s.sch.partSel
      let q := s.part p
      let r := q.res.toNat
      let clash := allParts.any (fun o => o != p && decide ((s.part o).state ≠ .off) && (s.part o).res.toNat &&& (r % 2 ^ 48) != 0)
      let empty := bitsOf r 0 16 = 0 ∨ bitsOf r 16 16 = 0
      let need := (areaBlocks q).1 + (areaBlocks q).2.1 + (areaBlocks q).2.2
      let fits := need ≤ sumN ((List.range 12).map s.freeBlocks)
      let err := fun (e : Nat) => s.modPart p (fun q => { q with err := e })
      (q.state ≠ .off → exec .partitionEnable s = .next (err 4)) ∧
      (q.state = .off → clash = true → exec .partitionEnable s = .next (err 1)) ∧
      (q.state = .off → clash = false → empty → exec .partitionEnable s = .next (err 2)) ∧
      (q.state = .off → clash = false → ¬ empty → ¬ fits → exec .partitionEnable s = .next (err 3)) ∧
      (q.state = .off → clash = false → ¬ empty → fits →
        ∃ t, exec .partitionEnable s = .next t ∧ (t.part p).state = .active ∧ (t.part p).err = 0 ∧ (t.part p).place = [] ∧
          (t.part p).sems = [] ∧ (t.part p).images = [] ∧ (t.part p).res = q.res ∧ (t.part p).cfg = q.cfg ∧ (t.part p).mem = q.mem ∧
          (∀ o, o ≠ p → t.part o = s.part o) ∧ t.sch.ctxs = s.sch.ctxs ∧ t.colls = s.colls ∧ t.models = s.models ∧ t.tiles = s.tiles))

/-- DISABLE of an ACTIVE partition with no stopped context, and DISABLE_FORCE of an ACTIVE or PAUSED one, leave it DRAINING or OFF; in
another state they set ERR 4. PARTITION_RESET of an ACTIVE, PAUSING or PAUSED one leaves it RESETTING with no semaphore and no saved
image, its tiles empty, its contexts ACTIVE or TORN_DOWN and their sequences gone; PARTITION_RESET_DONE makes it ACTIVE once none of
its commands is left.
PLACE of an ACTIVE, PAUSING or PAUSED partition with a table that can be read: a valid one that keeps the saved images' tiles is in
force under the next epoch number; another sets ERR 5, one that cannot be read ERR 6, and in another state ERR 4. A bandwidth
regulator's refill adds RATE for the time that has passed, up to BURST; a request proceeds where each regulator it draws on is
unregulated or holds more than 0, and is charged its bytes; else it waits and no regulator changes.
Where a clause goes beyond the rules cited it is the model's choice: log entries 52, 85, 87. -/
def Obligations.PartitionsDrainResetAndPlace : Prop :=
  (∀ s : State, s.hif.inReset = none →
      let p := s.sch.partSel
      let st := (s.part p).state
      let err4 := s.modPart p (fun q => { q with err := 4 })
      let stopped := (s.ctxsOfPart p).any (fun x => decide ((s.ctx x).state = .pausing ∨ (s.ctx x).state = .yielded ∨
        (s.ctx x).state = .saved ∨ (s.ctx x).state = .borrowed))
      (st = .active → stopped = false →
        ∃ t, exec .disable s = .next t ∧ ((t.part p).state = .draining ∨ (t.part p).state = .off)) ∧
      (st ≠ .active ∨ stopped = true → exec .disable s = .next err4) ∧
      (st = .active ∨ st = .paused →
        ∃ t, exec .disableForce s = .next t ∧ ((t.part p).state = .draining ∨ (t.part p).state = .off) ∧ (t.part p).images = []) ∧
      (st ≠ .active → st ≠ .paused → exec .disableForce s = .next err4) ∧
      (st = .active ∨ st = .pausing ∨ st = .paused →
        ∃ t, exec .partitionReset s = .next t ∧ (t.part p).state = .resetting ∧ (t.part p).sems = [] ∧ (t.part p).images = [] ∧
          (∀ i ∈ s.partTiles p, (t.tile i).running = none ∧ (t.tile i).scratch = [] ∧ (t.tile i).vregs = []) ∧
          (∀ x ∈ s.ctxsOfPart p, (t.ctx x).state = .active ∨ (t.ctx x).state = .tornDown) ∧
          (∀ y ∈ t.models.seqs, y.ctx ∉ s.ctxsOfPart p)) ∧
      (st ≠ .active → st ≠ .pausing → st ≠ .paused → exec .partitionReset s = .next err4) ∧
      (∀ part : BitVec 4,
        ((s.part part.toNat).state = .resetting → (∀ c ∈ s.qm.cmds, c.part ≠ part.toNat) →
          exec (.partitionResetDone part) s = .next ((s.modPart part.toNat (fun q => { q with state := .active })).candRefresh part.toNat)) ∧
        ((s.part part.toNat).state ≠ .resetting → exec (.partitionResetDone part) s = .next s))) ∧
  ((∀ (s : State) (stores : List Host.Cell), s.hif.inReset = none →
      let p := s.sch.partSel
      let s0 := s.hostStores stores
      let q := s0.part p
      let a := q.placeAddr.toNat
      let n := getLE (s0.hostRead a 64) 0 2
      let bs := s0.hostRead a (64 + 8 * n)
      let can := q.state = .active ∨ q.state = .pausing ∨ q.state = .paused
      let good := s0.placeOk p bs = true ∧ imagesKeep q (placeEntries bs n) = true
      let err := fun (e : Nat) => s0.modPart p (fun q => { q with err := e })
      (¬ can → exec (.place stores) s = .next (err 4)) ∧
      (can → s0.hostOk a (64 + 8 * n) = false → exec (.place stores) s = .next (err 6)) ∧
      (can → s0.hostOk a (64 + 8 * n) = true → ¬ good → exec (.place stores) s = .next (err 5)) ∧
      (can → s0.hostOk a (64 + 8 * n) = true → good →
        ∃ t, exec (.place stores) s = .next t ∧ (t.part p).place = placeEntries bs n ∧ (t.part p).epoch = (q.epoch + 1) % 2 ^ 32 ∧
          (t.part p).err = 0 ∧ (t.part p).state = q.state ∧ (∀ o, o ≠ p → t.part o = s0.part o) ∧ t.qm = s0.qm ∧ t.hostMem = s0.hostMem ∧
          (∀ i, i ∉ (placeEntries bs n).map Prod.fst → t.tile i = s0.tile i))) ∧
    (∀ (s : State) (part : BitVec 4) (n : Fin 6) (ns : Nat), (s.part part.toNat).bw.length = 6 →
      let r := lget {} (s.part part.toNat).bw n.val
      let gone := min ns (s.hif.timer - r.filled)
      ∃ t, exec (.bwRegulatorRefill part n ns) s = .next t ∧
        (lget {} (t.part part.toNat).bw n.val).level = min (r.level + (fld r.reg 0 20 * gone / 10 : Nat)) (fld r.reg 20 12 * 4096 : Nat) ∧
        (lget {} (t.part part.toNat).bw n.val).filled = r.filled + gone ∧
        (∀ m, m ≠ n.val → lget {} (t.part part.toNat).bw m = lget {} (s.part part.toNat).bw m) ∧
        t = s.modPart part.toNat (fun q => { q with bw := (t.part part.toNat).bw })) ∧
    (∀ (s : State) (p : Nat) (ws rs : List (Nat × Nat)),
      let reg := fun (s : State) (n : Nat) => lget ({} : Regulator) (s.part p).bw n
      let g := s.bwRequest p ws rs
      (g.1 = true ↔ ∀ r ∈ rs, 0 < r.2 → fld (reg s r.1).reg 0 20 = 0 ∨ 0 < (reg s r.1).level) ∧
      (g.1 = false → ∀ n, reg g.2 n = reg s n) ∧
      (∀ n b, rs = [(n, b)] → n < (s.part p).bw.length → g.1 = true →
        (reg g.2 n).level = (if fld (reg s n).reg 0 20 = 0 then (reg s n).level else (reg s n).level - (b : Nat)) ∧
        (∀ m, m ≠ n → reg g.2 m = reg s m)) ∧
      g.2 = { s with qm := { s.qm with cmds := g.2.qm.cmds }, sch := { s.sch with parts := g.2.sch.parts } }))

/-- PAUSE (a yield) and PAUSE_SAVE (an instruction-precise one) of a context or a partition, at their turn. One of a PAUSING target waits;
another target that is not ACTIVE is left as it is and the command completes. PAUSE of a quiet context makes it YIELDED at once, of a
busy one PAUSING. PAUSE_SAVE without images left completes with ST_NO_SPACE; with running tiles the context is PAUSING until
TILE_SAVE_DONE has written each tile's image and freed the tile, once the regulator is open; with none it is SAVED. A partition is
PAUSING or PAUSED. TILE_SAVE_DONE of a BORROWED context's last tile makes it SAVED.
RESUME waits while its target is PAUSING, or a tile of an image to restore is occupied (this model's choice, log entry 121), and makes
a YIELDED, SAVED or BORROWED context, or a PAUSED partition, ACTIVE.
A precise pause of a context that holds a semaphore or a reservation: HOLD_DEFER_EXPIRY, HOLD_DEFER_US after the PAUSE was
fetched, marks what it holds; earlier it changes nothing. HOLDER_RESTORE with no waiter on a marked holding changes nothing; a waiter
makes the SAVED holder run BORROWED, the waiters' invocations on the holder's tiles saved first, or stopped with ST_UNIT_FAULT where too
few images are left. A tile that another invocation occupies is waited for (this model's choice, log entries 121, 138).
A reference-clock cycle, with the power and the clock there, charges each context 10 engine-ns for every tile that runs an invocation
of one of its commands; a context that runs on a waiter's share has its time charged to the waiter, with the sum added to its own
BORROW. Virtual time rises by the time charged over the share, and no other field of a context changes.
Where a clause goes beyond the rules cited it is the model's choice: log entries 80, 82, 83, 84, 116, 118, 121, 138. -/
def Obligations.ContextsPauseAndResume : Prop :=
  ((∀ (s : State) (n : Nat) (c : Cmd) (i : Instr), s.ready? n (· == opPause) = some c → c.run = .waiting → ctlPartScope c.desc = false →
      (i = .pause n ∧ ctlPrecise c.desc = false) ∨ (i = .pauseSave n ∧ ctlPrecise c.desc = true) →
      let x := ctlTarget c.desc
      let done := if ctlPrecise c.desc then s.ctxTiles x = [] else (s.start n).ctxQuiet x = true
      let full := ctlPrecise c.desc = true ∧ s.imagesLeft c.part < (s.ctxTiles x).length
      ((s.ctx x).state = .pausing → exec i s = .next s) ∧
      ((s.ctx x).state ≠ .active → (s.ctx x).state ≠ .pausing → exec i s = .next (s.complete c stOk 0 0 false false)) ∧
      ((s.ctx x).state = .active → full → exec i s = .next (s.complete c stNoSpace 0 0 false false)) ∧
      ((s.ctx x).state = .active → ¬ full → (s.part c.part).state ≠ .draining →
        ∃ t, exec i s = .next t ∧
          (done → (t.ctx x).state = (if ctlPrecise c.desc then .saved else .yielded) ∧ (∀ y ∈ t.qm.cmds, y.seq ≠ n)) ∧
          (¬ done → (s.part c.part).state ≠ .pausing → (t.ctx x).state = .pausing ∧ (t.ctx x).precise = ctlPrecise c.desc ∧
            (t.ctx x).pauseCmd = some n ∧ (∀ y, y ≠ x → t.ctx y = s.ctx y) ∧ t.hostMem = s.hostMem ∧ t.colls = s.colls))) ∧
    (∀ (s : State) (n : Nat) (c : Cmd) (i : Instr), s.ready? n (· == opPause) = some c → c.run = .waiting → ctlPartScope c.desc = true →
      (i = .pause n ∧ ctlPrecise c.desc = false) ∨ (i = .pauseSave n ∧ ctlPrecise c.desc = true) →
      let x := ctlTarget c.desc
      let run := (s.ctxsOfPart x).filter (fun y => decide ((s.ctx y).state = .active))
      let full := ctlPrecise c.desc = true ∧ s.imagesLeft x < ((run ++ [devCtx x]).flatMap s.ctxTiles).length
      ((s.part x).state = .pausing → exec i s = .next s) ∧
      ((s.part x).state ≠ .active → (s.part x).state ≠ .pausing → exec i s = .next (s.complete c stOk 0 0 false false)) ∧
      ((s.part x).state = .active → full → exec i s = .next (s.complete c stNoSpace 0 0 false false)) ∧
      ((s.part x).state = .active → ¬ full →
        ∃ t, exec i s = .next t ∧ ((t.part x).state = .pausing ∨ (t.part x).state = .paused))) ∧
    (∀ (s : State) (tile : Fin 272) (n : Nat) (c : Cmd), (s.tile tile.val).running = some n → s.cmd? n = some c →
      isSearch (dOpcode c.desc) = false → (s.part c.part).state ≠ .draining →
      let g := s.bwRequest c.part [(c.seq, tileInv tile.val)] [(0, tileImageBytes)]
      let s1 := g.2.saveTile c tile.val
      let saving := (s.ctx c.ctx).state = .pausing ∧ (s.ctx c.ctx).precise = true ∧ s.deferring c.ctx = false
      let ending := (s.ctx c.ctx).state = .borrowed ∧ s.awaited c.ctx = false
      (¬ saving → ¬ ending → exec (.tileSaveDone tile) s = .next s) ∧
      (saving ∨ ending → g.1 = false → exec (.tileSaveDone tile) s = .next g.2) ∧
      (saving ∨ ending → g.1 = true →
        ∃ t i, exec (.tileSaveDone tile) s = .next t ∧ i ∈ (t.part c.part).images ∧ i.ctx = c.ctx ∧ i.cmd = c.seq ∧ i.phys = tile.val ∧
          i.tile.scratch = (s.tile tile.val).scratch ∧ i.tile.vregs = (s.tile tile.val).vregs ∧
          ((∀ j ∈ (s.part c.part).images, ctxRuns (s.ctx j.ctx) = false) →
            (t.tile tile.val).running = none ∧ (t.part c.part).images = (s.part c.part).images ++ [i]) ∧
          (s1.ctxTiles c.ctx = [] → (t.ctx c.ctx).state = .saved) ∧
          (s1.ctxTiles c.ctx ≠ [] → (t.ctx c.ctx).state = (s.ctx c.ctx).state))) ∧
    (∀ (s : State) (n : Nat) (c : Cmd), s.ready? n (· == opResume) = some c → ctlPartScope c.desc = true →
      let x := ctlTarget c.desc
      let room := (s.ctxsOfPart x ++ [devCtx x]).all (s.roomFor x)
      ((s.part x).state = .pausing → exec (.resume n) s = .next s) ∧
      ((s.part x).state = .paused → room = false → exec (.resume n) s = .next s) ∧
      ((s.part x).state = .paused → room = true → exec (.resume n) s = .next (((s.ctxsOfPart x).foldl State.resumeCtx
        ((s.putImages x (fun i => i.ctx == devCtx x)).modPart x (fun q => { q with state := .active, mergesSaved := [] }))).complete c
          stOk 0 0 false false)) ∧
      ((s.part x).state ≠ .pausing → (s.part x).state ≠ .paused → exec (.resume n) s = .next (s.complete c stOk 0 0 false false))) ∧
    (∀ (s : State) (n : Nat) (c : Cmd), s.ready? n (· == opResume) = some c → ctlPartScope c.desc = false →
      let x := ctlTarget c.desc
      let rests := (s.ctx x).state = .active ∨ (s.ctx x).state = .tornDown
      (rests → exec (.resume n) s = .next (s.complete c stOk 0 0 false false)) ∧
      (¬ rests → (s.ctx x).state = .pausing ∨ s.roomFor c.part x = false → exec (.resume n) s = .next s) ∧
      (¬ rests → (s.ctx x).state ≠ .pausing → s.roomFor c.part x = true →
        exec (.resume n) s = .next ((s.resumeCtx x).complete c stOk 0 0 false false)) ∧
      ((s.ctx x).state = .yielded ∨ (s.ctx x).state = .saved ∨ (s.ctx x).state = .borrowed →
        ((s.resumeCtx x).ctx x).state = .active ∧ (∀ i ∈ ((s.resumeCtx x).part (s.ctx x).part).images, i.ctx ≠ x)))) ∧
  (∀ (s : State) (ctx : BitVec 12),
      let x := ctx.toNat
      let k := s.ctx x
      let q := s.part k.part
      let waits := k.state = .pausing ∧ k.precise = true ∧ s.holds x = true
      let due := s.pauseStamp x + 1000 * fld q.cfg 0 16 ≤ s.hif.timer
      (waits → due → exec (.holdDeferExpiry ctx) s = .next (s.markHeld x)) ∧
      (¬ waits ∨ ¬ due → exec (.holdDeferExpiry ctx) s = .next s) ∧
      (s.waiterOf x = none → exec (.holderRestore ctx) s = .next s) ∧
      (∀ w, s.waiterOf x = some w →
        let ws := (s.waitersOf x).map SemWaiter.cmd
        let used := (s.imageTiles k.part x).filterMap (fun i => (s.tile i).running)
        let runsOnLoan := ∃ t, exec (.holderRestore ctx) s = .next t ∧ (t.ctx x).state = .borrowed ∧ (t.ctx x).borrower = some w.ctx ∧
          (∀ i ∈ (t.part k.part).images, i.ctx ≠ x) ∧ (used = [] → t.hostMem = s.hostMem ∧ t.colls = s.colls)
        (k.state ≠ .saved ∨ (∃ n ∈ used, n ∉ ws) → exec (.holderRestore ctx) s = .next s) ∧
        (k.state = .saved → used = [] → runsOnLoan) ∧
        (∀ n, k.state = .saved → used ≠ [] → (∀ y ∈ used, y = n) → n ∈ ws →
          let s1 := s.saveWaiter n
          ((s1.ctx x).state = .saved ∧ s1.roomFor k.part x = true → runsOnLoan) ∧
          (¬ ((s1.ctx x).state = .saved ∧ s1.roomFor k.part x = true) → exec (.holderRestore ctx) s = .next s1)))) ∧
  (∀ (s : State) (n : Nat) (c : Cmd), s.cmd? n = some c →
      let ts := (s.tiles.filter (fun t => t.2.running == some n)).map Prod.fst
      let s1 := s.saveWaiter n
      (s.imagesLeft c.part < ts.length → s1 = s.abortCmd c stUnitFault false) ∧
      (ts.length ≤ s.imagesLeft c.part → ∀ i ∈ ts, (s1.tile i).running = none ∧
        ∃ m ∈ (s1.part c.part).images, m.ctx = c.invCtx ∧ m.cmd = n ∧ m.phys = i ∧ m.tile.scratch = (s.tile i).scratch)) ∧
  (∀ s : State, s.pending = [] → s.clockRuns = true →
      let user := fun (x : Nat × Tile) => (x.2.running.bind s.cmd?).map Cmd.ctx
      let payer := fun (x : Nat) => (s.ctx x).borrower.getD x
      let paid := fun (x : Nat) => 10 * (s.tiles.filter (fun e => (user e).map payer == some x)).length
      let lent := fun (x : Nat) => if (s.ctx x).borrower.isSome then 10 * (s.tiles.filter (fun e => user e == some x)).length else 0
      ∃ t, step s = .next t ∧ t.hif.timer = (s.hif.timer + 10) % 2 ^ 64 ∧
        (∀ x, (t.ctx x).engine = ((s.ctx x).engine + paid x) % 2 ^ 64 ∨ (paid x = 0 ∧ (t.ctx x).engine = (s.ctx x).engine)) ∧
        (∀ x, (t.ctx x).borrow = ((s.ctx x).borrow + lent x) % 2 ^ 64 ∨ (lent x = 0 ∧ (t.ctx x).borrow = (s.ctx x).borrow)) ∧
        (∀ x, (t.ctx x).v = (s.ctx x).v + (paid x : Rat) / (max 1 (fld (s.ctx x).cfg 0 16) : Nat)) ∧
        (∀ x, t.ctx x = { s.ctx x with engine := (t.ctx x).engine, borrow := (t.ctx x).borrow, v := (t.ctx x).v }) ∧
        t.tiles = s.tiles ∧ t.hostMem = s.hostMem ∧ t.mem.dev = s.mem.dev)

/-- Semaphores, used by an invocation whose context may run. WAIT of an amount the count covers with nobody waiting takes it at once;
else it waits, and a cycle of waits fires the watchdog. SIGNAL adds to the count and serves the waiters in order; past 65,535 it is a context fault.
SET stores the count and serves them. WATCHDOG fires on an admitted stream without progress for LIMIT_US, never on one that is
halted or not admitted.
Where a clause goes beyond the rules cited it is the model's choice: log entry 81. -/
def Obligations.SemaphoresAndWatchdog : Prop :=
  (∀ (s : State) (tile : Fin 272) (sem : BitVec 10) (n : BitVec 16) (c : Cmd), s.tileCmd tile.val = some c →
    let p := c.part
    let k := sem.toNat
    let m := s.sem p k
    let w : SemWaiter := { ctx := c.ctx, cmd := c.seq, tile := tile.val, amount := n.toNat, since := s.hif.timer,
                           heldFrom := if m.marked.any (· != c.ctx) then some s.hif.timer else none }
    let s2 := ((s.modTile tile.val (Tile.useSem k)).modSem p k (fun m => { m with waiters := m.waiters ++ [w] })).semGrant p k
    (m.waiters = [] → n.toNat ≤ m.count →
      exec (.semWait tile sem n) s = .next s2 ∧ (s2.sem p k).count = m.count - n.toNat ∧ (s2.sem p k).waiters = [] ∧
      tget 0 (s2.sem p k).holds c.ctx = tget 0 m.holds c.ctx + n.toNat) ∧
    (m.waiters = [] → m.count < n.toNat →
      (s2.sem p k).count = m.count ∧ (s2.sem p k).waiters = [w] ∧
      (s2.waitCycle c.ctx = false → exec (.semWait tile sem n) s = .next s2) ∧
      (s2.waitCycle c.ctx = true → exec (.semWait tile sem n) s = .next (s2.wdogFire c.ctx 1))) ∧
    (65535 < m.count + n.toNat → exec (.semSignal tile sem n) s = .next (s.contextFault c.ctx 5)) ∧
    (m.count + n.toNat ≤ 65535 → ∃ t, exec (.semSignal tile sem n) s = .next t ∧
      (m.waiters = [] → (t.sem p k).count = m.count + n.toNat) ∧
      (∀ w0 rest, m.waiters = w0 :: rest → w0.amount ≤ m.count + n.toNat → (t.sem p k).count + w0.amount ≤ m.count + n.toNat)) ∧
    (∃ t, exec (.semSet tile sem n) s = .next t ∧ (m.waiters = [] → (t.sem p k).count = n.toNat))) ∧
  (∀ (s : State) (stream : Nat) (t : Stream), s.mem.streams.find? (fun t => t.id == stream) = some t →
    let still := t.admitted = true ∧ t.halted = false ∧
      t.since + 1000 * max 1 (fld s.sch.wdog 0 16) ≤ s.hif.timer
    (still → exec (.watchdog stream) s = .next (s.wdogFire t.ctx 2) ∧ flag (s.wdogFire t.ctx 2).sch.wdog 31 = true ∧
      fld (s.wdogFire t.ctx 2).sch.wdog 16 12 = t.ctx % 4096) ∧
    (¬ still → exec (.watchdog stream) s = .next s))

/-- STREAM_DESCRIPTOR by a command that may issue on a free or own tile: a descriptor out of its ranges is a context fault (7, or 4 for a
destination outside the placement); another adds one stream, admitted unless it runs between tile groups, and a cycle of waits fires
the watchdog. STREAM_ADMIT admits the first waiting stream of its partition whose buffer meets no admitted one. DMA_ENGINE_FAULT stops the
stream's command. A tile's stream unit issues requests to its streams so that at most 1,024 tags are out, and changes nothing else.
TAG_LANDED of a tag issued and not yet landed of an admitted stream whose invocation runs: with its lines usable, its regulators open and
both sides reachable, its bytes are at the destination and the stream ends once every element has landed. A missing block under rebuild halts
the stream, a closed regulator makes it wait, a bad line stops its command. STREAM_RESUME of a halted stream with no missing block left
lets it go on after its frontier, every element beyond it requested again.
Where a clause goes beyond the rules cited it is the model's choice: log entries 79, 80, 136. -/
def Obligations.StreamsMoveTheirElements : Prop :=
  ((∀ (s : State) (n : Nat) (tile : Fin 272) (d : Desc) (c : Cmd), s.mayIssue n tile.val = some c →
      let s1 := (s.takeTile n tile.val).1
      let may := (s.takeTile n tile.val).2 = true ∧ s1.tileWaits n tile.val = false
      let fault := streamFault d (s1.placement c).length ((s1.placeOf c).map Prod.snd)
      let res := s1.betweenGroups c d tile.val
      let x : Stream := { id := maxL (s1.mem.streams.map Stream.id) + 1, ctx := c.ctx, cmd := n, tile := tile.val, desc := d, reserve := res,
                          admitted := !res, since := s1.hif.timer }
      let s2 := ({ s1 with mem := { s1.mem with streams := s1.mem.streams ++ [x] } }.issueTags tile.val).modTile tile.val
        (fun y => { y with pos := y.pos + 1, credits := y.credits ++ [x.id] })
      (¬ may → exec (.streamDescriptor n tile d) s = .next s1) ∧
      (may → ∀ row, fault = some row → exec (.streamDescriptor n tile d) s = .next (s1.contextFault c.ctx row)) ∧
      (may → fault = none → res = true → s2.waitCycle c.ctx = true → exec (.streamDescriptor n tile d) s = .next (s2.wdogFire c.ctx 1)) ∧
      (may → fault = none → res = false ∨ s2.waitCycle c.ctx = false → exec (.streamDescriptor n tile d) s = .next s2)) ∧
    (∀ (s : State) (id : Nat) (x : Stream), s.mem.streams.find? (fun x => x.id == id) = some x →
      let mine := s.mem.streams.filter (fun y => (s.ctx y.ctx).part == (s.ctx x.ctx).part && y.reserve)
      let free := mine.any (fun y => y.admitted && s.buffersClash y x) = false
      let first := (mine.find? (fun y => !y.admitted)).map Stream.id = some id
      (x.admitted = false → first → free →
        exec (.streamAdmit id) s = .next (((s.modStream id (fun x => { x with admitted := true, since := s.hif.timer })).issueTags
          x.tile).restoreFree (s.ctx x.ctx).part)) ∧
      (x.admitted = true ∨ ¬ first ∨ ¬ free → exec (.streamAdmit id) s = .next s)) ∧
    (∀ (s : State) (tile : Nat),
      let used := fun (s : State) => sumN ((s.mem.streams.filter (fun x => x.tile == tile)).map Stream.out)
      let t := s.issueTags tile
      t = { s with mem := { s.mem with streams := t.mem.streams } } ∧ t.mem.streams.map (fun z => { z with next := 0 }) =
        s.mem.streams.map (fun z => { z with next := 0 }) ∧ (∀ z, z.tile ≠ tile → (z ∈ t.mem.streams ↔ z ∈ s.mem.streams)) ∧
      ((∀ z ∈ s.mem.streams, z.frontier * dTags z.desc + z.landed.length ≤ z.next) → used s ≤ 1024 → used t ≤ 1024)) ∧
    (∀ (s : State) (id : Nat) (x : Stream) (c : Cmd) (host : Bool), s.mem.streams.find? (fun x => x.id == id) = some x →
      s.cmd? x.cmd = some c →
      exec (.dmaEngineFault id host) s = .next (s.abortCmd c (if host then stHostMemFault else stTransferFault) false))) ∧
  ((∀ (s : State) (id e k : Nat) (x : Stream) (c : Cmd), s.mem.streams.find? (fun x => x.id == id) = some x → s.cmd? x.cmd = some c →
      let d := x.desc
      let i := e * dTags d + k
      let n := min 256 (dElem d - 256 * k)
      let due := x.admitted = true ∧ s.streamRuns c x = true ∧ i < x.next ∧ k < dTags d ∧ x.frontier ≤ e ∧ i ∉ x.landed
      (¬ due → exec (.tagLanded id e k) s = .next s) ∧
      (due → s.streamReach d e (256 * k) n = .stop →
        exec (.tagLanded id e k) s = .next ((s.streamMet d e (256 * k) n).abortCmd c stUncorrectable false)) ∧
      (due → s.streamReach d e (256 * k) n = .halt → x.halted = true → exec (.tagLanded id e k) s = .next s) ∧
      (due → s.streamReach d e (256 * k) n = .halt → x.halted = false →
        exec (.tagLanded id e k) s = .next (s.modStream id (fun x => { x with halted := true, since := s.hif.timer }))) ∧
      (due → s.streamReach d e (256 * k) n = .ok → (streamBw d e).all (s.bwOpen c.part) = false →
        exec (.tagLanded id e k) s = .next (s.modStream id (fun x => { x with bwWait := some (x.bwWait.getD s.hif.timer) }))) ∧
      (due → s.streamReach d e (256 * k) n = .ok → (streamBw d e).all (s.bwOpen c.part) = true →
        (∀ st, s.streamRead c d e (256 * k) n = .error st → exec (.tagLanded id e k) s = .next (s.abortCmd c st false)) ∧
        (∀ bs s1, s.streamRead c d e (256 * k) n = .ok bs → s.streamWrite c d e (256 * k) bs = .ok s1 →
          let y := Stream.settle (x.landed.length + 1) { x with landed := x.landed ++ [i], since := s.hif.timer, bwWait := none }
          ∃ t, exec (.tagLanded id e k) s = .next t ∧ t.mem.dev = s1.mem.dev ∧ t.hostMem = s1.hostMem ∧ t.tiles = s1.tiles ∧
            t.colls = s.colls ∧ t.jrn = s.jrn ∧ (∀ z, z.id ≠ id → z.tile ≠ x.tile → (z ∈ t.mem.streams ↔ z ∈ s.mem.streams)) ∧
            (y.frontier = dElems d → ∀ z ∈ t.mem.streams, z.id ≠ id) ∧
            (y.frontier ≠ dElems d → ∃ z ∈ t.mem.streams, { z with next := y.next } = y)))) ∧
    (∀ (s : State) (id : Nat) (x : Stream), s.mem.streams.find? (fun x => x.id == id) = some x →
      let missing := (List.range (dElems x.desc - x.frontier)).any
        (fun i => decide (s.streamReach x.desc (x.frontier + i) 0 (dElem x.desc) = .halt))
      let runs := (s.cmd? x.cmd).any (s.streamRuns · x)
      (x.halted = true → runs = true → missing = false →
        exec (.streamResume id) s = .next (((s.modStream id (fun x => { x with
          halted := false, landed := [], next := x.frontier * dTags x.desc, since := s.hif.timer })).issueTags x.tile).modCmd
          x.cmd (addDelayOn (tileInv x.tile) 7 (s.hif.timer - x.since)))) ∧
      (x.halted = false ∨ runs = false ∨ missing = true → exec (.streamResume id) s = .next s)))

/-- Operations on accumulator slots by a command that may issue, on a tile that is free or its own: SLOT_TILE_WRITE makes the tile's
values the slot's, SLOT_TILE_READ writes the slot's values to the scratchpad, MATRIX_GROUP adds one group's sums to the slot, which keeps
the product of its tensor scales, and starts a reduction of K = 0 with the values of C or +0; COMBINE adds
2, 4 or 8 parts element by element. An FP64 tile is in both slots of its set. Nothing else of the tile's scratchpad and vector registers changes. Shapes, slots and addresses
out of range are context fault 7, a 257th group fault 2; a set that drains makes the operation wait.
Where a clause goes beyond the rules cited it is the model's choice: log entries 74, 75, 137. -/
def Obligations.TileSlotsAccumulate : Prop :=
  ∀ (s s1 : State) (n : Nat) (tile : Fin 272) (c : Cmd), s.mayIssue n tile.val = some c → s.takeTile n tile.val = (s1, true) →
    s1.tileWaits n tile.val = false →
    let T := s1.tile tile.val
    let put := fun (x : Tile) => (s1.modTile tile.val (fun _ => x)).fmtCount 0 0
    (∀ (setY : Bool) (slot : Fin 2) (fmt : Sys2Proof.AccFmt) (rows cols a : Nat), (T.set setY).slots.length = 2 →
      let w := accBytes fmt
      let ok := shapeOk rows cols = true ∧ slotOk fmt slot.val = true
      let z : AccSlot := if ((T.set setY).slot slot.val).rows = 0 then { fmt := fmt, rows := rows, cols := cols } else (T.set setY).slot slot.val
      (ok → a + rows * cols * w ≤ scratchBytes → (T.set setY).state ≠ .draining →
        ∃ x, exec (.slotTileWrite n tile setY slot fmt rows cols a) s = .next (put x) ∧
          ((x.set setY).slot slot.val).values = (T.readTile a w (rows * cols)).map (accCanon fmt) ∧
          ((x.set setY).slot slot.val).scaleAB = ((T.set setY).slot slot.val).scaleAB ∧
          (fmt = .fp64 → ((x.set setY).slot 1) = ((x.set setY).slot 0)) ∧ x.scratch = T.scratch ∧ x.vregs = T.vregs) ∧
      (¬ ok ∨ scratchBytes < a + rows * cols * w →
        exec (.slotTileWrite n tile setY slot fmt rows cols a) s = .next (s1.contextFault c.ctx 7)) ∧
      (ok → slotOk z.fmt slot.val = true → a + z.rows * z.cols * accBytes z.fmt ≤ scratchBytes → (T.set setY).state ≠ .draining →
        exec (.slotTileRead n tile setY slot fmt rows cols a) s =
          .next (put { T with scratch := memWrite T.scratch a (z.values.flatMap (natBytes (accBytes z.fmt))), pos := T.pos + 1 })) ∧
      (¬ ok ∨ slotOk z.fmt slot.val = false ∨ scratchBytes < a + z.rows * z.cols * accBytes z.fmt →
        exec (.slotTileRead n tile setY slot fmt rows cols a) s = .next (s1.contextFault c.ctx 7)) ∧
      (ok → a + rows * cols * w ≤ scratchBytes → (T.set setY).state = .draining →
        exec (.slotTileWrite n tile setY slot fmt rows cols a) s = .next s1)) ∧
    (∀ (setY : Bool) (slot : Fin 2) (rows cols len : Nat) (first : Bool) (init : Option Nat) (a b : Sys2Proof.MatOperand),
      (T.set setY).slots.length = 2 →
      let f := pairAcc a b
      let z0 := (T.set setY).slot slot.val
      let z : AccSlot := if first then { fmt := f, rows := rows, cols := cols, init := init.map (fun p => T.readTile p (accBytes f) (rows * cols)) }
                         else z0
      shapeOk rows cols = true → slotOk f slot.val = true → 1 ≤ len → len ≤ 32 → operandOk a rows len = true → operandOk b cols len = true →
      (∀ p, init = some p → p + rows * cols * accBytes f ≤ scratchBytes) →
      (first = false → z0.fmt = f ∧ z0.rows = rows ∧ z0.cols = cols) → (T.set setY).state ≠ .draining →
      (z.groups < 256 →
        ∃ x, exec (.matrixGroup n tile setY slot rows cols len first init a b) s = .next (put x) ∧
          ((x.set setY).slot slot.val).groups = z.groups + 1 ∧ ((x.set setY).slot slot.val).init = z.init ∧
          ((x.set setY).slot slot.val).levels =
            pushTile f z.levels ((List.range rows).flatMap (fun r => (List.range cols).map (fun k => T.group f a b r k len))) ∧
          ((x.set setY).slot slot.val).scaleAB = fmul .fp32 a.tscale b.tscale ∧ x.scratch = T.scratch ∧ x.vregs = T.vregs) ∧
      (256 ≤ z.groups → exec (.matrixGroup n tile setY slot rows cols len first init a b) s = .next (s1.contextFault c.ctx 2))) ∧
    (∀ (setY : Bool) (slot : Fin 2) (rows cols : Nat) (init : Option Nat) (a b : Sys2Proof.MatOperand),
      (T.set setY).slots.length = 2 →
      let f := pairAcc a b
      let start := init.map (fun p => T.readTile p (accBytes f) (rows * cols))
      shapeOk rows cols = true → slotOk f slot.val = true → operandOk a rows 0 = true → operandOk b cols 0 = true →
      (∀ p, init = some p → p + rows * cols * accBytes f ≤ scratchBytes) → (T.set setY).state ≠ .draining →
      ∃ x, exec (.matrixGroup n tile setY slot rows cols 0 true init a b) s = .next (put x) ∧
        ((x.set setY).slot slot.val).groups = 0 ∧
        ((x.set setY).slot slot.val).values = (match start with
          | some v => v.map (accCanon f)
          | none => List.replicate (rows * cols) 0) ∧ x.scratch = T.scratch ∧ x.vregs = T.vregs) ∧
    (∀ (fmt : Sys2Proof.AccFmt) (rows cols dst : Nat) (parts : List (Option Nat)),
      let w := accBytes fmt
      let ok := shapeOk rows cols = true ∧ (parts.length = 2 ∨ parts.length = 4 ∨ parts.length = 8) ∧
        (∀ p ∈ parts, ∀ a, p = some a → a + rows * cols * w ≤ scratchBytes) ∧ dst + rows * cols * w ≤ scratchBytes
      (¬ ok → exec (.combine n tile fmt rows cols parts dst) s = .next (s1.contextFault c.ctx 7)) ∧
      let sums := (List.range (rows * cols)).map (fun i =>
        (combineAcc fmt (Nat.log2 parts.length) (parts.map (fun p => p.map (fun a => T.read (a + w * i) w)))).getD 0)
      (ok → exec (.combine n tile fmt rows cols parts dst) s =
        .next (put { T with scratch := memWrite T.scratch dst (sums.flatMap (natBytes w)), pos := T.pos + 1 })))

/-- DRAIN of a set with no drain under way writes its output tile and side vector and leaves the set DRAINING, and the other set active
where it was the active one; a bad control word is context fault 3, and a drain under way makes it wait. DRAIN_DONE leaves the set HELD where
KEEP is 1, else EMPTY. VECTOR_OP writes lane by lane what its operation gives: arithmetic changes only the destination register.
Where a clause goes beyond the rules cited it is the model's choice: log entries 2, 74, 75, 76, 137. -/
def Obligations.DrainsAndVectorOps : Prop :=
  (∀ (s s1 : State) (n : Nat) (tile : Fin 272) (c : Cmd), s.mayIssue n tile.val = some c → s.takeTile n tile.val = (s1, true) →
    s1.tileWaits n tile.val = false →
    let T := s1.tile tile.val
    let free := fun i => Config.freeValue (s.freeCtr + i)
    let went := fun (k : Nat) (u : State) => { u with freeCtr := u.freeCtr + k }
    (∀ (setY : Bool) (v : Word64),
      let d := drainWord v
      let z := ((T.set setY).slot d.slot).shaped
      let idle := T.x.state ≠ .draining ∧ T.y.state ≠ .draining
      (drainOk d z = false → exec (.drain n tile setY v) s = .next (went 4096 (s1.contextFault c.ctx 3))) ∧
      (drainOk d z = true → ¬ idle → exec (.drain n tile setY v) s = .next (went 4096 s1)) ∧
      (drainOk d z = true → idle →
        let r := drainSlot T d z free
        ∃ x, exec (.drain n tile setY v) s = .next (went 4096 ((s1.modTile tile.val (fun _ => x)).fmtCount r.sat r.nan)) ∧
          x.scratch = (T.putDrain d (accBytes z.fmt) r).scratch ∧ x.vregs = T.vregs ∧ (x.set setY).state = .draining ∧
          (x.set setY).keep = d.keep ∧ (x.set setY).slots = (T.set setY).slots ∧ (T.activeY = setY → x.activeY = !setY))) ∧
    (∀ op : Sys2Proof.VecOp,
      (∀ x sat nan, vectorOp op free T = .done x sat nan →
        exec (.vectorOp n tile op) s = .next (went 32 ((s1.modTile tile.val (fun _ => { x with pos := x.pos + 1 })).fmtCount sat nan))) ∧
      (∀ row, vectorOp op free T = .fault row → exec (.vectorOp n tile op) s = .next (went 32 (s1.contextFault c.ctx row))) ∧
      vectorOp op free T ≠ .wait) ∧
    (∀ (op : Sys2Proof.LaneOp) (f : Sys2Proof.LaneFmt) (d a b : Fin 64), ∃ x, vectorOp (.arith op f d a b) free T = .done x 0 0 ∧
      (∀ i < 32, lget 0 (x.vreg d.val) i = laneArith op f (free i) (lget 0 (T.vreg a.val) i) (lget 0 (T.vreg b.val) i)) ∧
      (∀ r, r ≠ d.val → x.vreg r = T.vreg r) ∧ x.scratch = T.scratch ∧ x.x = T.x ∧ x.y = T.y)) ∧
  (∀ (s : State) (tile : Fin 272), ∃ t, exec (.drainDone tile) s = .next t ∧ t = { s with tiles := t.tiles } ∧
    (∀ i, i ≠ tile.val → t.tile i = s.tile i) ∧ (t.tile tile.val).scratch = (s.tile tile.val).scratch ∧
    (∀ y, ((s.tile tile.val).set y).state = .draining →
      (((s.tile tile.val).set y).keep = true → ((t.tile tile.val).set y).state = .held ∧
        ((t.tile tile.val).set y).slots = ((s.tile tile.val).set y).slots) ∧
      (((s.tile tile.val).set y).keep = false → ((t.tile tile.val).set y).state = .empty)) ∧
    (∀ y, ((s.tile tile.val).set y).state ≠ .draining → (t.tile tile.val).set y = (s.tile tile.val).set y))

/-- TILE_UNIT_FAULT, SCAN_ENGINE_FAULT, MERGE_UNIT_FAULT and UNIT_STALL. A unit that fails is FAILED with its cause, and its failure is
recorded; one that has failed already stays. A failed tile runs nothing, and the first spare tile of its cluster becomes active. An
engine with no segment, or a unit that holds no work, does not fail.
Where a clause goes beyond the rules cited it is the model's choice: log entry 88. -/
def Obligations.UnitsFail : Prop :=
  (∀ (s : State) (n cause : Nat), n < 504 →
    ((s.unit n).state = .failed → s.unitFail n cause = s) ∧
    ((s.unit n).state ≠ .failed → ((s.unitFail n cause).unit n).state = .failed ∧ ((s.unitFail n cause).unit n).cause = cause ∧
      ((s.unitFail n cause).unit n).record = true ∧ (n < 272 → ((s.unitFail n cause).tile n).running = none) ∧
      (∀ sp, n < 272 → (s.unit n).state = .active →
        ((List.range 17).map (fun i => 17 * (n / 17) + i)).find? (fun t => decide ((s.unit t).state = .spare)) = some sp →
        ((s.unitFail n cause).unit sp).state = .active))) ∧
  (∀ (s : State) (tile : Fin 272), exec (.tileUnitFault tile) s = .next (s.unitFail tile.val 2)) ∧
  (∀ (s : State) (stack : Fin 12) (engine : Fin 18),
    (s.segmentOn stack.val engine.val = none → exec (.scanEngineFault stack engine) s = .next s) ∧
    (s.segmentOn stack.val engine.val ≠ none →
      exec (.scanEngineFault stack engine) s = .next (s.engineLost (engineUnit stack.val engine.val) 2) ∧
      ((s.engineLost (engineUnit stack.val engine.val) 2).unit (engineUnit stack.val engine.val)).state = .failed)) ∧
  (∀ (s : State) (cluster : Fin 16) (cmds : List Nat),
    ((s.unit (488 + cluster.val)).state = .failed → exec (.mergeUnitFault cluster cmds) s = .next s) ∧
    ((s.unit (488 + cluster.val)).state ≠ .failed → ∃ t, exec (.mergeUnitFault cluster cmds) s = .next t ∧
      (t.unit (488 + cluster.val)).state = .failed ∧ (t.unit (488 + cluster.val)).cause = 2 ∧ t.mem.dev = s.mem.dev)) ∧
  (∀ (s : State) (unit : Fin 504),
    (s.mayStall unit.val = false → exec (.unitStall unit) s = .next s) ∧
    (s.mayStall unit.val = true → ∃ t, exec (.unitStall unit) s = .next t ∧ (t.unit unit.val).state = .failed ∧
      ((s.unit unit.val).state ≠ .failed → (t.unit unit.val).cause = 3)))

/-- TEST_SLICE of a unit in service and at rest, with tests and rails on: a pass counts the slice, the last one of a pass counts the pass and starts
the next, a failure fails the unit with cause 1. Off, at work or failed, nothing runs. TEST_OVERDUE flags a unit whose test age is past the
limit, once. TST_RETEST with KEY 0x3D91 clears the unit's failure record and has it tested again; another KEY sets HIF_ERR_STATUS
bit 2.
MERGE_ROW leaves the k best entries of a row, by key, ID and index, in the registers of the first working merge unit of the partition
(the model's choice, log entry 133), at most 256 a register or 128 in wide mode; a row or k out of
range is context fault 1. Writes of STK_SAT_STATUS (DRIFT_CLEAR), FMT_CTL (FMT_CLR) and MGT_EVT_SEL (EVT_SELECT) outside a
reset level: DRIFT clears the drift counts of the collection selected, CLR both conversion counters, and a selection without a retained record
sets GONE. -/
def Obligations.UnitsAreTestedAndCounted : Prop :=
  ((∀ (s : State) (unit : Fin 504),
      let n := unit.val
      let u := s.unit n
      let force := 1000000000 * (fld s.tst.ctl 0 16 - fld s.tst.ctl 16 8) ≤ s.hif.timer - u.pass
      let runs := flag s.tst.ctl 31 = true ∧ s.module.rails = true ∧ u.state ≠ .failed ∧ s.atRest n = true ∧ (n < 272 → s.pwr.parked.contains n = true → force)
      (¬ runs → ∀ pass worn, exec (.testSlice unit pass worn) s = .next s) ∧
      (runs → ∀ worn, exec (.testSlice unit false worn) s = .next (s.unitLost n 1) ∧
        ((s.unitLost n 1).unit n).state = .failed ∧ ((s.unitLost n 1).unit n).cause = 1) ∧
      (runs → ∃ t, exec (.testSlice unit true false) s = .next t ∧
        (u.slices + 1 ≠ passSlices n → (t.unit n).slices = u.slices + 1 ∧ (t.unit n).pass = u.pass ∧ t.tst.passes = s.tst.passes) ∧
        (u.slices + 1 = passSlices n → (t.unit n).slices = 0 ∧ (t.unit n).overdue = false ∧
          t.tst.passes = (s.tst.passes + 1) % 2 ^ 64) ∧
        (t.unit n).state = u.state ∧ (∀ m, m ≠ n → t.unit m = s.unit m) ∧
        t = { s with tst := { s.tst with units := t.tst.units, passes := t.tst.passes } })) ∧
    (∀ (s : State) (unit : Fin 504),
      let n := unit.val
      let due := (s.unit n).state ≠ .failed ∧ (s.unit n).overdue = false ∧ s.module.rails = true ∧
        1000000000 * fld s.tst.ctl 0 16 < s.hif.timer - (s.unit n).pass
      (due → exec (.testOverdue unit) s =
        .next ((s.modTest n (fun u => { u with overdue := true })).event 0x0014 2 (testKind n) (testNum n) (s.testAge n) 0)) ∧
      (¬ due → exec (.testOverdue unit) s = .next s)) ∧
    (∀ (s : State) (v : Word32), s.hif.inReset = none →
      (fld v 16 16 ≠ 0x3D91 → exec (.tstRetest v) s = .next (s.hifErr 2)) ∧
      (fld v 16 16 = 0x3D91 → fld v 0 9 < 504 → (s.unit (fld v 0 9)).record = true →
        exec (.tstRetest v) s = .next (s.modTest (fld v 0 9) (fun u => { u with record := false, retest := true }))) ∧
      (fld v 16 16 = 0x3D91 → (s.unit (fld v 0 9)).record = false ∨ 504 ≤ fld v 0 9 → exec (.tstRetest v) s = .next s))) ∧
  ((∀ (s : State) (tile : Fin 272) (wide sim : Bool) (k : Nat) (row : List (Nat × Nat)),
      (s.tileCmd tile.val = none → exec (.mergeRow tile wide sim k row) s = .next s) ∧
      (∀ c, s.tileCmd tile.val = some c →
        (2 ^ 24 < row.length ∨ 4096 < k → exec (.mergeRow tile wide sim k row) s = .next (s.contextFault c.ctx 1)) ∧
        (row.length ≤ 2 ^ 24 → k ≤ 4096 → ∀ u,
          (s.part c.part).clusters.find? (fun u => decide ((s.unit (488 + u)).state ≠ .failed)) = some u →
          (∃ regs, exec (.mergeRow tile wide sim k row) s =
            .next { s.modTile tile.val (fun x => { x with pos := x.pos + 1 }) with
              scan := { s.scan with aster := tset s.scan.aster u (wide, regs) } } ∧
            regs.flatten = mergeRowBest wide sim k row ∧ ∀ r ∈ regs, r.length ≤ (if wide then 128 else 256)) ∧
          (mergeRowBest wide sim k row).length ≤ k ∧
          (∀ e ∈ mergeRowBest wide sim k row, isNaN (if wide then .fp64 else .fp32) e.score = false ∧
            ∃ i, i < row.length ∧ e.index = 0xFF000000 + i)))) ∧
    (∀ (s : State) (v : Word32), s.hif.inReset = none →
      (flag v 31 = true → exec (.driftClear v) s = .next (s.modColl s.scan.satSel (fun k =>
        { k with drift := { k.drift with flag := false, frozen := false, elems := 0, hits := 0 } }))) ∧
      (flag v 31 = false → exec (.driftClear v) s = .next s) ∧
      exec (.fmtClr v) s = .next { s with fmt := { s.fmt with
        ctl := v &&& 1, sat := if flag v 1 then 0 else s.fmt.sat, nan := if flag v 1 then 0 else s.fmt.nan } }) ∧
    (∀ (s : State) (v : Word64), s.hif.inReset = none →
      (∀ e, s.eventAt v.toNat = some e → exec (.evtSelect v) s = .next { s with mgt := { s.mgt with evtSel := v, selGone := false } }) ∧
      (s.eventAt v.toNat = none →
        exec (.evtSelect v) s = .next { s with mgt := { s.mgt with evtSel := v, selGone := true, evtStatus := 1 } })))

/-- RAIL_CURRENT_REPORT with the rails on: above its limit a rail's fraction rises by 16/256 up to 224/256, below nine tenths of the limit
it falls by 4/256, between it stays; the other rails stay, and no throttled cluster keeps a boost. INPUT_POWER_REPORT shows power and
voltage, counts the unassigned energy, and with the cap off no cap fraction is left.
VR_ALERT_N asserted: fraction 224/256 and no boost. Deasserted: the fraction ends, and the tiles at work leave through the unpark
queue. An idle active tile joins the park queue after IDLE_PARK_US unless HOLD is set. RAMP_STEP parks and unparks the first GROUP of each queue,
in ascending order.
Where a clause goes beyond the rules cited it is the model's choice: log entries 29, 93, 94. -/
def Obligations.PowerReportsAndRamps : Prop :=
  ((∀ (s : State) (rail : Fin 45) (current mv : BitVec 16), s.pwr.rails.length = 45 →
      let lim := railLimit rail.val
      let b := (lget {} s.pwr.rails rail.val).bubble
      (s.module.rails = false → exec (.railCurrentReport rail current mv) s = .next s) ∧
      (s.module.rails = true → ∃ t, exec (.railCurrentReport rail current mv) s = .next t ∧
        t = { s with pwr := { s.pwr with rails := t.pwr.rails, boost := t.pwr.boost } } ∧
        (∀ e ∈ t.pwr.boost, e ∈ s.pwr.boost ∧ t.throttled e.1 = false) ∧ (lget {} t.pwr.rails rail.val).mv = mv.toNat ∧
        (∀ i, i ≠ rail.val → lget {} t.pwr.rails i = lget {} s.pwr.rails i) ∧
        (lim < current.toNat → (lget {} t.pwr.rails rail.val).bubble = min 224 (b + 16)) ∧
        (current.toNat ≤ lim → 10 * current.toNat < 9 * lim → (lget {} t.pwr.rails rail.val).bubble = b - 4) ∧
        (current.toNat ≤ lim → 9 * lim ≤ 10 * current.toNat → (lget {} t.pwr.rails rail.val).bubble = b))) ∧
    (∀ (s : State) (power vin u : Nat) (meas energy : List (Nat × Nat × Nat)) (un : Nat) (miss : Bool),
      ∃ t, exec (.inputPowerReport power vin u meas energy un miss) s = .next t ∧
        fld t.pwr.input 0 16 = min power 65535 ∧ fld t.pwr.input 16 16 = min vin 65535 ∧ t.pwr.u = u ∧
        t.pwr.overshoot = u - 10 * (capLimit s.pwr.cap - capGuard s.pwr.cap) ∧ t.pwr.paceMiss = miss ∧
        t.pwr.energyUn = (s.pwr.energyUn + un) % 2 ^ 64 ∧ (pwrCapEn s.pwr.ctl = false → t.pwr.capDyn = 0 ∧ t.pwr.capFix = 0) ∧
        (energy = [] → t.pwr.energyPart = s.pwr.energyPart ∧ t.qm = s.qm) ∧ t = { s with pwr := t.pwr, qm := { s.qm with rings := t.qm.rings } })) ∧
  ((∀ s : State, ∃ t, exec .vrAlertAssert s = .next t ∧ t.pwr.alert = true ∧ t.pwr.alertFrac = 224 ∧ t.pwr.boost = [] ∧
      (pwrThrEvt s.pwr.ctl = false → t = { s with pwr := { s.pwr with alert := true, alertFrac := 224, boost := [] } })) ∧
    (∀ s : State,
      (s.pwr.alert = true → exec .vrAlertDeassert s = .next { s with pwr := { s.pwr with
        alert := false, alertFrac := 0, unparkQ := dedupBy id (s.pwr.unparkQ ++ s.busyTiles) [], parked := dedupBy id (s.pwr.parked ++ s.busyTiles) [] } }) ∧
      (s.pwr.alert = false → exec .vrAlertDeassert s = .next s)) ∧
    (∀ (s : State) (tile : Fin 272),
      let n := tile.val
      let joins := rampHold s.pwr.ramp = false ∧ (s.tile n).running = none ∧ (s.unit n).state = .active ∧ n ∉ s.pwr.parkQ ∧
        n ∉ s.pwr.parked ∧ (s.tile n).workSince + 1000 * rampIdle s.pwr.ramp ≤ s.hif.timer
      (joins → exec (.parkQueueJoin tile) s = .next { s with pwr := { s.pwr with parkQ := s.pwr.parkQ ++ [n] } }) ∧
      (¬ joins → exec (.parkQueueJoin tile) s = .next s)) ∧
    (∀ s : State,
      let g := rampGroup s.pwr.ramp
      let pq := sortBy (fun (a b : Nat) => decide (a < b)) s.pwr.parkQ
      let uq := sortBy (fun (a b : Nat) => decide (a < b)) s.pwr.unparkQ
      ∃ t, exec .rampStep s = .next t ∧ t.pwr.parkQ = pq.drop g ∧ t.pwr.unparkQ = uq.drop g ∧
        (∀ n, n ∈ t.pwr.parked ↔ (n ∈ s.pwr.parked ∨ n ∈ pq.take g) ∧ n ∉ uq.take g) ∧
        t = { s with pwr := { s.pwr with parkQ := t.pwr.parkQ, unparkQ := t.pwr.unparkQ, parked := t.pwr.parked } }))

/-- THERMAL_REPORT with the rails on and no power-loss flush: the sensors show the temperatures, each hub-die cluster and stack has the
fraction of its own temperature, the maxima rise, a cluster that heat throttles loses its boost, and nothing else of the machine but its
flags, cycle counts and events changes; at a trip temperature the module is handled as at a loss of input, latched for a thermal trip with THERMTRIP_N and PWR_GOOD not high,
and its SPDM sessions end.
Where a clause goes beyond the rules cited it is the model's choice: log entries 28, 29, 94. -/
def Obligations.ThermalReportsThrottleAndTrip : Prop :=
  ∀ (s : State) (hub base dram far : List Int) (nand inlet : Int),
    let h := padTo 0 16 hub
    let b := padTo 0 12 base
    let d := padTo 0 12 dram
    let on := s.module.rails = true ∧ s.module.flushing = false
    (¬ on → exec (.thermalReport hub base dram far nand inlet) s = .next s) ∧
    (on → tripTemp h b d = none →
      ∃ t, exec (.thermalReport hub base dram far nand inlet) s = .next t ∧ t.thm.hub = h ∧ t.thm.base = b ∧ t.thm.dram = d ∧
        t.thm.nand = nand ∧ t.thm.inlet = inlet ∧ t.thm.hubFrac = h.map (fun x => heatFrac (x - 4 * (thmHubThrot s.thm.ctl : Int))) ∧
        t.thm.stkFrac = b.map (fun x => heatFrac (x - 4 * (thmHubThrot s.thm.ctl : Int))) ∧
        t.thm.hubMax = List.zipWith max s.thm.hubMax h ∧ t.module = s.module ∧ t.colls = s.colls ∧ t.jrn = s.jrn ∧ t.mem = s.mem ∧
        t.tiles = s.tiles ∧ t.qm = s.qm ∧ t.pwr = { s.pwr with boost := t.pwr.boost } ∧
        (∀ e ∈ t.pwr.boost, e ∈ s.pwr.boost ∧ lget 0 t.thm.hubFrac e.1 = 0)) ∧
    (on → ∀ x, tripTemp h b d = some x →
      ∃ t, exec (.thermalReport hub base dram far nand inlet) s = .next t ∧ t.module.latch = .thermal ∧ t.module.tripped = true ∧
        t.module.flushing = true ∧ t.thermTripN ≠ some true ∧ t.pwrGood ≠ some true ∧ t.sec.sessions = [])

/-- PR_SEC_TICK on standby power counts a second, of powered life with a valid input and of standby life without; PR_SEC_STORE stores the
count 60 s after the last store; CALENDAR_RECOMPUTE on the hour recomputes the calendar; SIGN_TOKEN_REFILL adds one token per 8 s up to 1,024.
Without standby power nothing of this happens. AAK_GENERATION_DONE gives the new key one DIK index.
Where a clause goes beyond the rules cited it is the model's choice: log entry 27. -/
def Obligations.StandbyClockCounts : Prop :=
  ∀ s : State,
    (s.module.standby = false → exec .prSecTick s = .next s ∧ exec .prSecStore s = .next s ∧ exec .calendarRecompute s = .next s ∧
      exec .signTokenRefill s = .next s) ∧
    (s.module.standby = true →
      (∃ t, exec .prSecTick s = .next t ∧ t.mgt.prSec = (s.mgt.prSec + 1) % 2 ^ 32 ∧
        t.mgt.life = lmod s.mgt.life (if s.module.inputValid then 0 else 1) (· + 1) ∧
        t = { s with mgt := { s.mgt with prSec := t.mgt.prSec, powered30 := t.mgt.powered30, life := t.mgt.life } }) ∧
      (s.mgt.prStored + 60 ≤ s.mgt.prSec → exec .prSecStore s = .next { s with mgt := { s.mgt with prStored := s.mgt.prSec } }) ∧
      (s.mgt.prSec < s.mgt.prStored + 60 → exec .prSecStore s = .next s) ∧
      (s.mgt.prSec % 3600 = 0 → exec .calendarRecompute s = .next { s with mgt := { s.mgt with cal := s.calendar } }) ∧
      (s.mgt.prSec % 3600 ≠ 0 → exec .calendarRecompute s = .next s) ∧
      (s.sec.tokenSec + 8 ≤ s.mgt.prSec → exec .signTokenRefill s = .next { s with sec := { s.sec with
        tokens := min 1024 (s.sec.tokens + 1), tokenSec := s.sec.tokenSec + 8 } }) ∧
      (s.mgt.prSec < s.sec.tokenSec + 8 → exec .signTokenRefill s = .next s)) ∧
    (s.primrose = true → s.sec.aakBusy = true → exec .aakGenerationDone s = .next { s with sec := s.sec.noted { s.sec with
      aakBusy := false, aakNext := 0, aakGen := min (s.sec.aakGen + 1) 65535, dikNext := s.sec.dikNext + 1 } }) ∧
    (s.primrose = false ∨ s.sec.aakBusy = false → exec .aakGenerationDone s = .next s)

/-- SPDM requests on a transport that reaches Primrose, at the progress they need. GET_VERSION answers 1.1 and 1.2 and restarts the
connection, ending its transport's sessions (the model's reading, log entry 37); GET_CAPABILITIES, NEGOTIATE_ALGORITHMS, GET_DIGESTS and
GET_CERTIFICATE answer; unsigned measurements are always answered. FINISH, KEY_UPDATE, HEARTBEAT and END_SESSION act on their
session. Before that progress the answer is an error; on a transport that does not reach Primrose nothing happens.
Signed SPDM requests (CHALLENGE, GET_MEASUREMENTS with a signature, KEY_EXCHANGE with fewer than four sessions) at their progress: with both
keys used up they answer Unspecified; while a key is generated ResponseNotReady, and the request waits for RESPOND_IF_READY; on an
empty bucket Busy; else the response carries the next AAK index, one token less remains, and index 1,023 starts the next key while the DIK has an
index. A fifth session is refused.
Where a clause goes beyond the rules cited it is the model's choice: log entries 37, 38, 107. -/
def Obligations.SpdmAnswersAndSigns : Prop :=
  (∀ (s : State) (tr : Fin 3),
      let t := tr.val
      let bad := fun (e : Nat) (i : Instr) => exec i s = .next (s.reply (.error e))
      let conn := fun (n : Nat) => lmod s.sec.conns t (max n)
      (s.reaches t = false → ∀ (common sg h : Bool) (slot : BitVec 4) (w : BitVec 8) (n : Nat),
        ∀ i ∈ [Instr.getVersion tr, .getCapabilities tr, .negotiateAlgorithms tr common, .getDigests tr, .getCertificate tr slot,
               .challenge tr slot, .getMeasurements tr w sg, .keyExchange tr, .finish tr n h, .keyUpdate tr n, .heartbeat tr n,
               .endSession tr n, .respondIfReady tr], exec i s = .next s) ∧
      (s.reaches t = true →
        exec (.getVersion tr) s = .next (({ s with sec := { s.sec with
          conns := lmod s.sec.conns t (fun _ => 1)
          delayed := tdel s.sec.delayed t
          sessions := s.sec.sessions.filter (fun x => x.transport != t) } } : State).reply (.version [0x11, 0x12])) ∧
        (s.conn t < 1 → bad spdmUnexpected (.getCapabilities tr)) ∧
        (1 ≤ s.conn t → exec (.getCapabilities tr) s = .next (({ s with sec := { s.sec with conns := conn 2 } } : State).reply .capabilities)) ∧
        (s.conn t < 2 → ∀ b, bad spdmUnexpected (.negotiateAlgorithms tr b)) ∧
        (2 ≤ s.conn t → bad spdmInvalid (.negotiateAlgorithms tr false) ∧ exec (.negotiateAlgorithms tr true) s =
          .next (({ s with sec := { s.sec with conns := conn 3 } } : State).reply .algorithms)) ∧
        (s.conn t < 3 → ∀ (sg h : Bool) (slot : BitVec 4) (w : BitVec 8) (n : Nat),
          ∀ i ∈ [Instr.getDigests tr, .getCertificate tr slot, .challenge tr slot, .getMeasurements tr w sg, .keyExchange tr, .finish tr n h,
                 .keyUpdate tr n, .heartbeat tr n, .endSession tr n, .respondIfReady tr], bad spdmUnexpected i) ∧
        (3 ≤ s.conn t →
          exec (.getDigests tr) s = .next (s.reply (.digests s.sec.aakGen)) ∧
          exec (.getCertificate tr 0) s = .next (s.reply (.certificate s.sec.aakGen)) ∧
          (∀ slot, slot ≠ 0 → bad spdmInvalid (.getCertificate tr slot) ∧ bad spdmInvalid (.challenge tr slot)) ∧
          (∀ w : BitVec 8, w.toNat ≤ 8 ∨ w.toNat = 0xFF →
            exec (.getMeasurements tr w false) s = .next (s.reply (s.measured w.toNat none))) ∧
          (∀ (w : BitVec 8) (sg : Bool), 8 < w.toNat → w.toNat ≠ 0xFF → bad spdmInvalid (.getMeasurements tr w sg)) ∧
          (∀ n : Nat,
            (s.session? t n false = true →
              exec (.finish tr n true) s = .next ((s.modSession n (fun x => { x with up := true })).reply (.finish n)) ∧
              exec (.finish tr n false) s = .next ((s.dropSession n).reply (.error spdmDecrypt))) ∧
            (s.session? t n false = false → ∀ h, bad spdmSession (.finish tr n h)) ∧
            (s.session? t n true = true →
              exec (.keyUpdate tr n) s = .next ((s.modSession n (fun x => { x with updates := x.updates + 1 })).reply (.keyUpdate n)) ∧
              exec (.heartbeat tr n) s = .next (s.reply (.heartbeat n)) ∧
              exec (.endSession tr n) s = .next ((s.dropSession n).reply (.endSession n))) ∧
            (s.session? t n true = false → bad spdmSession (.keyUpdate tr n) ∧ bad spdmSession (.heartbeat tr n) ∧
              bad spdmSession (.endSession tr n)))))) ∧
  (∀ (s : State) (tr : Fin 3) (w : BitVec 8), s.reaches tr.val = true → 3 ≤ s.conn tr.val → w.toNat ≤ 8 ∨ w.toNat = 0xFF →
      let t := tr.val
      let x := s.sec
      let asks := fun (i : Instr) (a : Asked) (r : Reply) =>
        (x.exhausted = true → exec i s = .next (s.reply (.error spdmUnspecified))) ∧
        (x.exhausted = false → x.aakBusy = true → exec i s =
          .next (({ s with sec := { x with delayed := tset x.delayed t a } } : State).reply (.error spdmNotReady))) ∧
        (x.exhausted = false → x.aakBusy = false → x.tokens = 0 → exec i s = .next (s.reply (.error spdmBusy))) ∧
        (x.exhausted = false → x.aakBusy = false → 0 < x.tokens →
          ∃ u, exec i s = .next u ∧ u.sec.reply = some r ∧ u.sec.aakNext = x.aakNext + 1 ∧ u.sec.tokens = x.tokens - 1 ∧
            (u.sec.aakBusy = true ↔ 1023 ≤ x.aakNext ∧ x.dikNext < 65536) ∧ u.sec.dikNext = x.dikNext ∧ u = { s with sec := u.sec } ∧
            (a = .keyExchange → u.sec.sessions = x.sessions ++ [{ id := x.nextSession, transport := t, up := false }]) ∧
            (a ≠ .keyExchange → u.sec.sessions = x.sessions))
      asks (.challenge tr 0) .challenge (.challengeAuth x.aakGen x.aakNext) ∧
      asks (.getMeasurements tr w true) (.measurements w.toNat) (s.measured w.toNat (some (x.aakGen, x.aakNext))) ∧
      (4 ≤ x.sessions.length → exec (.keyExchange tr) s = .next (s.reply (.error spdmSessionLimit))) ∧
      (x.sessions.length < 4 → asks (.keyExchange tr) .keyExchange (.keyExchange x.nextSession x.aakGen x.aakNext)) ∧
      (∀ a, x.delayed.find? (fun d => d.1 == t) = some (t, a) → exec (.respondIfReady tr) s =
        .next (({ s with sec := { x with delayed := tdel x.delayed t } } : State).signRequest t a)) ∧
      (x.delayed.find? (fun d => d.1 == t) = none → exec (.respondIfReady tr) s = .next (s.reply (.error spdmUnexpected))))

/-- Firmware update, in band (FWU_GO outside a reset level) and out of band (PLDM_FIRMWARE_UPDATE). Without an update under way the named
components' inactive banks are invalid and none of them is staged; with one, a second is refused (ERR 1, ALREADY_IN_UPDATE_MODE). FWU_ABORT ends it with
ERR 5. FWU_STAGING_DONE stages the images that are valid: ERR 2 for a malformed package, ERR 4 where it cannot be read. FWU_ACTIVATE marks
staged components, with ERR 6 where one is not staged; ACTIVATE_FIRMWARE marks all staged ones. No running bank changes.
Where a clause goes beyond the rules cited it is the model's choice: log entry 106. -/
def Obligations.FirmwareIsStagedAndActivated : Prop :=
  (∀ (s : State) (comps : BitVec 4), s.hif.inReset = none → s.primrose = true →
    (s.sec.fwuState = 1 → exec (.fwuGo comps) s = .next { s with sec := { s.sec with fwuErr := 1 } }) ∧
    (s.sec.fwuState ≠ 1 → ∃ t, exec (.fwuGo comps) s = .next t ∧ t.sec.fwuState = 1 ∧ t.sec.fwuErr = 0 ∧ t.sec.fwuOob = false ∧
      t.sec.comps.length = s.sec.comps.length ∧ t.sec.comps.map Comp.run = s.sec.comps.map Comp.run ∧
      (∀ k < s.sec.comps.length, bitsOf comps.toNat k 1 = 1 → (lget {} t.sec.comps k).staged = false ∧
        (lget {} t.sec.comps k).activate = false ∧ (lget {} t.sec.comps k).inactive.sound = false) ∧
      (∀ k, bitsOf comps.toNat k 1 = 0 → lget {} t.sec.comps k = lget {} s.sec.comps k) ∧ t = { s with sec := t.sec })) ∧
  (∀ (s : State) (i3c : Bool) (comps : BitVec 4) (len : Word32),
    (s.reaches (1 + bit i3c) = false → exec (.pldmFirmwareUpdate i3c comps len) s = .next s ∧ exec (.activateFirmware i3c) s = .next s) ∧
    (s.reaches (1 + bit i3c) = true →
      (s.sec.fwuState = 1 → exec (.pldmFirmwareUpdate i3c comps len) s = .next (s.reply (.pldm pldmAlready))) ∧
      (s.sec.fwuState ≠ 1 → exec (.pldmFirmwareUpdate i3c comps len) s =
        .next (({ s with sec := s.sec.stage comps.toNat true len.toNat } : State).reply (.pldm pldmOk))) ∧
      (s.sec.comps.any Comp.staged = false → exec (.activateFirmware i3c) s = .next (s.reply (.pldm pldmState))) ∧
      (s.sec.comps.any Comp.staged = true → exec (.activateFirmware i3c) s = .next (({ s with sec := { s.sec with
        comps := s.sec.comps.map (fun (c : Comp) => { c with activate := c.activate || c.staged }) } } : State).reply (.pldm pldmOk))))) ∧
  (∀ s : State, s.hif.inReset = none →
    (s.sec.fwuState = 1 → exec .fwuAbort s = .next { s with sec := { s.sec with fwuState := 3, fwuErr := 5, fwuOob := false } }) ∧
    (s.sec.fwuState ≠ 1 → exec .fwuAbort s = .next s)) ∧
  (∀ (s : State) (bad : Bool) (images : List Sys2Proof.FwImage),
    (s.sec.fwuState ≠ 1 ∨ s.primrose = false → exec (.fwuStagingDone bad images) s = .next s) ∧
    (s.sec.fwuState = 1 → s.primrose = true →
      let read := s.sec.fwuOob = true ∨ s.hostOk s.sec.fwuBase s.sec.fwuTotal = true
      ∃ t, exec (.fwuStagingDone bad images) s = .next t ∧ t.sec.comps.map Comp.run = s.sec.comps.map Comp.run ∧ t = { s with sec := t.sec } ∧
        (¬ read → t.sec.fwuState = 3 ∧ t.sec.fwuErr = 4 ∧ t.sec.comps = s.sec.comps) ∧
        (read → bad = true → t.sec.fwuState = 3 ∧ t.sec.fwuErr = 2 ∧ t.sec.comps = s.sec.comps) ∧
        (read → bad = false → (t.sec.fwuState = 2 ∧ t.sec.fwuErr = 0 ↔ ∀ im ∈ images, (lget {} t.sec.comps im.comp.val).staged = true)) ∧
        (read → bad = false → (t.sec.fwuState = 2 ∨ t.sec.fwuState = 3) ∧ (t.sec.fwuErr = 0 ∨ t.sec.fwuErr = 3)))) ∧
  (∀ (s : State) (mask : BitVec 4), s.hif.inReset = none →
    ∃ t, exec (.fwuActivate mask) s = .next t ∧ t.sec.comps.length = s.sec.comps.length ∧
      (∀ k < s.sec.comps.length, (lget {} t.sec.comps k).activate =
        ((lget {} s.sec.comps k).activate || (bitsOf mask.toNat k 1 == 1 && (lget {} s.sec.comps k).staged))) ∧
      ((∃ k < s.sec.comps.length, bitsOf mask.toNat k 1 = 1 ∧ (lget {} s.sec.comps k).staged = false) → t.sec.fwuErr = 6) ∧
      t = { s with sec := { s.sec with comps := t.sec.comps, fwuErr := t.sec.fwuErr } })

/-- PLDM over a binding that reaches Primrose: a sensor answers its value, the power-cap effecter stores LIMIT_W at the nearest end of
600 to 1500 W, and the FRU record answers A1, the far-tier variant, the serial number and the lifetime records. SET_ENDPOINT_ID takes an EID that is
neither null nor broadcast, and I3C_DYNAMIC_ADDRESS the bus owner's address. Otherwise nothing happens.
IDE_INTEGRITY_FAILURE of a secure stream with the rails on makes it insecure and holds the device's requests; in skid mode one of the
CXL.cache and CXL.mem stream raises viral too. A stream that is not secure changes nothing. IDE_KEY_PROGRAM over an established DOE session
makes the stream secure on its other key set, and with no stream insecure the held requests go out; without the session nothing happens.
Where a clause goes beyond the rules cited it is the model's choice: log entries 28, 36, 108, 109. -/
def Obligations.SidebandAndIde : Prop :=
  (∀ (s : State) (i3c : Bool),
      let ok := s.reaches (1 + bit i3c) = true
      (∀ n : Sys2Proof.PldmSensor, (¬ ok → exec (.pldmGetSensor i3c n) s = .next s) ∧
        (ok → exec (.pldmGetSensor i3c n) s = .next (s.reply (.sensor (s.sensorValue n))))) ∧
      (∀ w : Nat, (¬ ok → exec (.pldmSetEffecter i3c w) s = .next s) ∧
        (ok → ∃ t, exec (.pldmSetEffecter i3c w) s = .next t ∧ t.sec.reply = some (.pldm pldmOk) ∧
          capLimit t.pwr.cap = (if w < 600 then 600 else if 1500 < w then 1500 else w) ∧ capGuard t.pwr.cap = capGuard s.pwr.cap ∧
          t = { s with pwr := { s.pwr with cap := t.pwr.cap }, sec := { s.sec with reply := t.sec.reply } })) ∧
      (¬ ok → exec (.pldmFruRead i3c) s = .next s) ∧
      (ok → exec (.pldmFruRead i3c) s =
        .next (s.reply (.fru 0xA1 (if s.module.farVariant4 then 4 else 2) Config.serialNumber s.lifeRecords))) ∧
      (∀ eid : BitVec 8,
        (¬ ok ∨ eid.toNat = 0 ∨ eid.toNat = 0xFF → exec (.setEndpointId i3c eid) s = .next s) ∧
        (ok → eid.toNat ≠ 0 → eid.toNat ≠ 0xFF → exec (.setEndpointId i3c eid) s = .next { s with module :=
          { s.module with eidI3c := if i3c then eid.toNat else s.module.eidI3c, eidSmbus := if i3c then s.module.eidSmbus else eid.toNat } })) ∧
      (∀ a : BitVec 7,
        (s.primrose = true → exec (.i3cDynamicAddress a) s = .next { s with module := { s.module with i3cAddr := some a.toNat } }) ∧
        (s.primrose = false → exec (.i3cDynamicAddress a) s = .next s))) ∧
  ((∀ (s : State) (stream : Fin 3) (aer : Word32),
      let may := ideState s.sec.ide stream.val = 1 ∧ s.module.rails = true
      let s1 : State := { s with hif := { s.hif with aer := s.hif.aer ++ [aer.toNat] },
                                 sec := { s.sec with ide := setFld s.sec.ide (2 + 2 * stream.val) 2 2, ideHold := true } }
      (¬ may → exec (.ideIntegrityFailure stream aer) s = .next s) ∧
      (may → ∃ t, exec (.ideIntegrityFailure stream aer) s = .next t ∧ t.sec.ideHold = true ∧ ideState t.sec.ide stream.val = 2 ∧
        (∀ k < 3, k ≠ stream.val → ideState t.sec.ide k = ideState s.sec.ide k) ∧
        (stream.val ≠ 2 ∨ fld s.sec.ide 8 2 ≠ 2 → t = s1.event 0x0004 3 11 0 aer.toNat 0) ∧
        (stream.val = 2 → fld s.sec.ide 8 2 = 2 → t.hif.viral = true))) ∧
    (∀ (s : State) (session : Nat) (stream : Fin 3) (skid : Bool),
      let may := s.reaches 0 = true ∧ s.session? 0 session true = true
      let quiet := ∀ k < 3, k ≠ stream.val → ideState s.sec.ide k ≠ 2
      (¬ may → exec (.ideKeyProgram session stream skid) s = .next s) ∧
      (may → ∃ t, exec (.ideKeyProgram session stream skid) s = .next t ∧ ideState t.sec.ide stream.val = 1 ∧
        (stream.val = 2 → fld t.sec.ide 8 2 = if skid then 2 else 1) ∧
        (s.sec.ideHold = true → quiet → t.sec.ideHold = false ∧ t.sec.held = []) ∧
        (stream.val < s.sec.ideSet.length → lget 0 t.sec.ideSet stream.val = 1 - lget 0 s.sec.ideSet stream.val) ∧
        (∀ k, k ≠ stream.val → lget 0 t.sec.ideSet k = lget 0 s.sec.ideSet k) ∧
        (s.sec.ideHold = false ∨ ¬ quiet → t = { s with sec := { s.sec with ide := t.sec.ide, ideSet := t.sec.ideSet } }))))

/-- A write of JRN_XFER_CTL outside a reset level, whichever command it is for. GO while a transfer runs only sets ERR 1. Without GO it stores its
fields, and ABORT takes while a transfer runs. GO of an export of the selected snapshot runs, or fails with ERR 2 where that is none; of an import runs; of
frames fails with ERR 3 where the collection does not serve, with ERR 4 where the range is not retained, or runs.
XFER_HOST_CHUNK stores HOST. XFER_DEVICE_CHUNK without a running transfer changes nothing, and of an aborted one fails it with ERR 8. An export's
next chunk, where the host has freed its half and the frames it needs have persisted, is in its half of the buffer and the last one completes it; an
import's next chunk, where the host has filled it, joins the image, and a first one that is no snapshot image fails with ERR 5. A host access that
fails is ERR 7.
Where a clause goes beyond the rules cited it is the model's choice: log entries 23, 100. -/
def Obligations.TransfersMoveTheirImages : Prop :=
  (∀ (s : State) (v : Word32) (i : Instr), i = .exportSnap v ∨ i = .exportFrames v ∨ i = .importSnap v ∨ i = .xferAbort v →
      let x := s.jrn.xfer
      let op := fld v 28 2
      (s.hif.inReset ≠ none → exec i s = .next s) ∧
      (s.hif.inReset = none → flag v 31 = true → x.state = 1 → exec i s = .next { s with jrn := { s.jrn with xfer := { x with err := 1 } } }) ∧
      (s.hif.inReset = none → flag v 31 = false → exec i s = .next { s with jrn := { s.jrn with xfer := { x with
        ctl := v &&& 0x3FF003FF, abort := x.abort || (flag v 30 && x.state == 1) } } }) ∧
      (s.hif.inReset = none → flag v 31 = true → x.state ≠ 1 →
        ∃ t y, exec i s = .next t ∧ t.jrn.xfer = y ∧ y.ctl = v &&& 0x3FF003FF ∧ y.op = op ∧ y.dev = 0 ∧ y.host = 0 ∧ y.abort = false ∧
          y.base = x.addr.toNat ∧ y.half = 2 ^ (19 + min 10 (fld v 20 4)) ∧ y.owner = fld v 24 4 ∧ t.jrn.frames = s.jrn.frames ∧
          t.jrn.snaps = s.jrn.snaps ∧ t = { s with jrn := t.jrn } ∧
          (op = 1 → ∀ k z, s.jrn.snaps.find? (fun a => a.1 == s.jrn.snapSel) = some (k, z) →
            (z.session = false → y.state = 1 ∧ y.err = 0 ∧ y.image =
              xferImage 1 z.object z.label z.epoch z.image.hseq z.image.hseq z.image.g (Config.snapBody z.image)) ∧
            (z.session = true → y.state = 3 ∧ y.err = 2)) ∧
          (op = 1 → s.jrn.snaps.find? (fun a => a.1 == s.jrn.snapSel) = none → y.state = 3 ∧ y.err = 2) ∧
          (op = 2 → y.state = 1 ∧ y.err = 0 ∧ y.image = []) ∧
          (op = 3 →
            let o := fld v 0 10
            let k := s.coll o
            let til := if x.stop = 0 then k.hseq else x.stop.toNat
            let kept := (tget {} s.jrn.images o : Image).markHseq ≤ x.start.toNat ∨ s.jrn.retain = true
            let serves := k.state = .ready ∨ k.state = .exclusive
            (¬ serves → y.state = 3 ∧ y.err = 3) ∧
            (serves → ¬ kept ∨ til ≤ x.start.toNat ∨ k.hseq < til → y.state = 3 ∧ y.err = 4) ∧
            (serves → kept → x.start.toNat < til → til ≤ k.hseq → y.state = 1 ∧ y.err = 0)))) ∧
  ((∀ (s : State) (stores : List Host.Cell) (v : Word32), s.hif.inReset = none →
      exec (.xferHostChunk stores v) s = .next { s with hostMem := memCells s.hostMem stores,
                                                        jrn := { s.jrn with xfer := { s.jrn.xfer with host := v.toNat } } }) ∧
    (∀ s : State,
      let x := s.jrn.xfer
      let a := x.base + (x.dev % 2) * x.half
      let fails := fun (e : Nat) => ∃ t, exec .xferDeviceChunk s = .next t ∧ t.jrn.xfer.state = 3 ∧ t.jrn.xfer.err = e ∧
        t = { s with jrn := { s.jrn with xfer := t.jrn.xfer, lastUse := t.jrn.lastUse } }
      (x.state ≠ 1 → exec .xferDeviceChunk s = .next s) ∧
      (x.state = 1 → x.abort = true → fails 8) ∧
      (x.state = 1 → x.abort = false → s.jrn.lp = 0 → x.op ≠ 2 →
        let bs := (x.image.drop (x.dev * x.half)).take x.half
        let may := x.dev < x.host + 2 ∧ x.last ≤ s.jrn.h
        (¬ may → exec .xferDeviceChunk s = .next s) ∧
        (may → s.hostOk a bs.length = false → fails 7) ∧
        (may → s.hostOk a bs.length = true → ∃ t, exec .xferDeviceChunk s = .next t ∧ t.jrn.xfer.dev = x.dev + 1 ∧
          t.jrn.xfer.state = (if x.dev + 1 = x.total then 2 else 1) ∧ t.jrn.frames = s.jrn.frames ∧ t.colls = s.colls ∧
          (s.sec.ideHold = false → t.hostMem = memWrite s.hostMem a bs))) ∧
      (x.state = 1 → x.abort = false → s.jrn.lp = 0 → x.op = 2 →
        (x.host ≤ x.dev → exec .xferDeviceChunk s = .next s) ∧
        (x.dev = 0 → 0 < x.host → s.hostOk a 256 = true → getLE (s.hostRead a 256) 0 4 ≠ 0x53575831 → fails 5) ∧
        (x.dev = 0 → 0 < x.host → s.hostOk a 256 = false → fails 7) ∧
        (x.dev = 0 → 0 < x.host → s.hostOk a 256 = true → getLE (s.hostRead a 256) 0 4 = 0x53575831 → getLE (s.hostRead a 256) 4 1 = 1 →
          getLE (s.hostRead a 256) 6 2 < 1024 → 320 ≤ getLE (s.hostRead a 256) 8 8 → x.half < getLE (s.hostRead a 256) 8 8 → 0 < x.half →
          s.hostOk a x.half = true →
          ∃ t, exec .xferDeviceChunk s = .next t ∧ t.jrn.xfer.dev = 1 ∧ t.jrn.xfer.state = 1 ∧
            t.jrn.xfer.image = x.image ++ s.hostRead a x.half ∧ t.jrn.xfer.total = cdiv (getLE (s.hostRead a 256) 8 8) x.half ∧
            t = { s with jrn := { s.jrn with xfer := t.jrn.xfer, lastUse := s.hif.timer } }))))

end
end

