-- ==== Sys2Proof/Laws/Memory.lean ====
section
/-!
SUPPORT. The laws of sparse memory: every operation keeps the canonical form, a byte reads back as it was written, and a
write leaves every other byte alone.
-/

namespace Sys2Proof.Machine

theorem memWfFrom_mono {lo lo' : Nat} (h : lo' ≤ lo) (m : List Host.Cell) (w : memWfFrom lo m = true) :
    memWfFrom lo' m = true := by
  cases m with
  | nil => rfl
  | cons c m =>
    obtain ⟨a, b⟩ := c
    simp only [memWfFrom, Bool.and_eq_true, decide_eq_true_eq] at w ⊢
    exact ⟨⟨Nat.le_trans h w.1.1, w.1.2⟩, w.2⟩

theorem memPut_wfFrom (m : List Host.Cell) (lo a : Nat) (b : Byte) (h : lo ≤ a) (w : memWfFrom lo m = true) :
    memWfFrom lo (memPut m a b) = true := by
  induction m generalizing lo with
  | nil =>
    simp only [memPut]
    split <;> simp_all [memWfFrom]
  | cons c m ih =>
    obtain ⟨a', b'⟩ := c
    simp only [memWfFrom, Bool.and_eq_true, decide_eq_true_eq] at w
    simp only [memPut]
    split
    · rename_i lt
      split
      · simp only [memWfFrom, Bool.and_eq_true, decide_eq_true_eq]
        exact w
      · rename_i ne
        simp only [memWfFrom, Bool.and_eq_true, decide_eq_true_eq]
        exact ⟨⟨h, ne⟩, ⟨⟨lt, w.1.2⟩, w.2⟩⟩
    · split
      · rename_i eq
        subst eq
        split
        · exact memWfFrom_mono (by omega) m w.2
        · rename_i ne
          simp only [memWfFrom, Bool.and_eq_true, decide_eq_true_eq]
          exact ⟨⟨h, ne⟩, w.2⟩
      · simp only [memWfFrom, Bool.and_eq_true, decide_eq_true_eq]
        exact ⟨w.1, ih (a' + 1) (by omega) w.2⟩

/-- Putting one byte keeps the canonical form. -/
theorem memPut_wf (m : List Host.Cell) (a : Nat) (b : Byte) (w : Memory.wf m = true) : Memory.wf (memPut m a b) = true :=
  memPut_wfFrom m 0 a b (Nat.zero_le _) w

/-- Writing a byte string keeps the canonical form. -/
theorem memWrite_wf (m : List Host.Cell) (a : Nat) (bs : List Byte) (w : Memory.wf m = true) :
    Memory.wf (memWrite m a bs) = true := by
  induction bs generalizing m a with
  | nil => exact w
  | cons b bs ih => exact ih _ _ (memPut_wf m a b w)

/-- Writing listed cells keeps the canonical form. -/
theorem memCells_wf (m : List Host.Cell) (cs : List Host.Cell) (w : Memory.wf m = true) :
    Memory.wf (memCells m cs) = true := by
  induction cs generalizing m with
  | nil => exact w
  | cons c cs ih => exact ih _ (memPut_wf m c.1 c.2 w)

theorem filter_wfFrom (p : Host.Cell → Bool) (lo : Nat) (m : List Host.Cell) (w : memWfFrom lo m = true) :
    memWfFrom lo (m.filter p) = true := by
  induction m generalizing lo with
  | nil => rfl
  | cons c m ih =>
    obtain ⟨a, b⟩ := c
    simp only [memWfFrom, Bool.and_eq_true, decide_eq_true_eq] at w
    simp only [List.filter]
    split
    · simp only [memWfFrom, Bool.and_eq_true, decide_eq_true_eq]
      exact ⟨w.1, ih _ w.2⟩
    · exact memWfFrom_mono (by omega) _ (ih _ w.2)

/-- Dropping cells keeps the canonical form. -/
theorem filter_wf (p : Host.Cell → Bool) (m : List Host.Cell) (w : Memory.wf m = true) :
    Memory.wf (m.filter p) = true := filter_wfFrom p 0 m w

theorem memGet_of_wfFrom {lo : Nat} (m : List Host.Cell) (a : Nat) (w : memWfFrom lo m = true) (h : a < lo) :
    memGet m a = emptyByte := by
  induction m generalizing lo with
  | nil => rfl
  | cons c m ih =>
    obtain ⟨a', b'⟩ := c
    simp only [memWfFrom, Bool.and_eq_true, decide_eq_true_eq] at w
    simp only [memGet]
    split
    · omega
    · exact ih w.2 (by omega)

theorem memGet_memPut_from (m : List Host.Cell) (lo a x : Nat) (b : Byte) (w : memWfFrom lo m = true) :
    memGet (memPut m a b) x = if x = a then b else memGet m x := by
  induction m generalizing lo with
  | nil =>
    simp only [memPut]
    split <;> rename_i h
    · simp [memGet, h]
    · by_cases e : a = x
      · simp [memGet, e]
      · simp [memGet, e, Ne.symm e]
  | cons c m ih =>
    obtain ⟨a', b'⟩ := c
    simp only [memWfFrom, Bool.and_eq_true, decide_eq_true_eq] at w
    simp only [memPut]
    split
    · rename_i lt
      have no : memGet m a = emptyByte := memGet_of_wfFrom m a w.2 (by omega)
      split
      · rename_i hb
        by_cases e : x = a
        · subst e
          have : ¬ a' = x := by omega
          simp [memGet, this, no, hb]
        · simp [memGet, e]
      · by_cases e : x = a
        · subst e; simp [memGet]
        · simp [memGet, e, Ne.symm e]
    · split
      · rename_i eq
        subst eq
        have no : memGet m a = emptyByte := memGet_of_wfFrom m a w.2 (by omega)
        split
        · rename_i hb
          by_cases e : x = a
          · subst e; simp [no, hb]
          · simp [memGet, e, Ne.symm e]
        · by_cases e : x = a
          · subst e; simp [memGet]
          · simp [memGet, e, Ne.symm e]
      · rename_i h1 h2
        simp only [memGet]
        split
        · rename_i e
          have : ¬ x = a := by omega
          simp [this]
        · exact ih _ w.2

/-- Reading after putting one byte: the byte at its address, every other byte as before. -/
theorem memGet_memPut (m : List Host.Cell) (a x : Nat) (b : Byte) (w : Memory.wf m = true) :
    memGet (memPut m a b) x = if x = a then b else memGet m x := memGet_memPut_from m 0 a x b w

/-- A write leaves every byte outside it alone. -/
theorem memGet_memWrite_out (m : List Host.Cell) (a x : Nat) (bs : List Byte) (w : Memory.wf m = true)
    (h : x < a ∨ a + bs.length ≤ x) : memGet (memWrite m a bs) x = memGet m x := by
  induction bs generalizing m a with
  | nil => rfl
  | cons b bs ih =>
    simp only [memWrite, List.length_cons] at h ⊢
    rw [ih _ _ (memPut_wf m a b w) (by omega), memGet_memPut m a x b w]
    have : ¬ x = a := by omega
    simp [this]

/-- A written byte string reads back. -/
theorem memBytes_memWrite (m : List Host.Cell) (a : Nat) (bs : List Byte) (w : Memory.wf m = true) :
    memBytes (memWrite m a bs) a bs.length = bs := by
  induction bs generalizing m a with
  | nil => rfl
  | cons b bs ih =>
    have wf := memPut_wf m a b w
    simp only [memWrite, List.length_cons, memBytes]
    rw [ih _ _ wf, memGet_memWrite_out _ _ _ _ wf (by omega), memGet_memPut m a a b w]
    simp

/-- Two canonical memories that read alike everywhere are the same list. -/
theorem memory_ext {lo : Nat} (m n : List Host.Cell) (wm : memWfFrom lo m = true) (wn : memWfFrom lo n = true)
    (h : ∀ a, memGet m a = memGet n a) : m = n := by
  induction m generalizing n lo with
  | nil =>
    cases n with
    | nil => rfl
    | cons c n =>
      obtain ⟨a, b⟩ := c
      simp only [memWfFrom, Bool.and_eq_true, decide_eq_true_eq] at wn
      have := h a
      simp [memGet] at this
      exact absurd this.symm wn.1.2
  | cons c m ih =>
    obtain ⟨a, b⟩ := c
    cases n with
    | nil =>
      simp only [memWfFrom, Bool.and_eq_true, decide_eq_true_eq] at wm
      have := h a
      simp [memGet] at this
      exact absurd this wm.1.2
    | cons c' n =>
      obtain ⟨a', b'⟩ := c'
      simp only [memWfFrom, Bool.and_eq_true, decide_eq_true_eq] at wm wn
      have ha : a = a' := by
        rcases Nat.lt_trichotomy a a' with lt | eq | gt
        · have := h a
          have e : ¬ a' = a := by omega
          simp only [memGet, if_true, e, if_false] at this
          rw [memGet_of_wfFrom n a wn.2 (by omega)] at this
          exact absurd this wm.1.2
        · exact eq
        · have := h a'
          have e : ¬ a = a' := by omega
          simp only [memGet, if_true, e, if_false] at this
          rw [memGet_of_wfFrom m a' wm.2 (by omega)] at this
          exact absurd this.symm wn.1.2
      subst ha
      have hb : b = b' := by simpa [memGet] using h a
      subst hb
      rw [ih n wm.2 wn.2 (fun x => ?_)]
      by_cases e : a = x
      · subst e
        rw [memGet_of_wfFrom m a wm.2 (by omega), memGet_of_wfFrom n a wn.2 (by omega)]
      · simpa [memGet, e] using h x

end Sys2Proof.Machine
end

