-- ==== Sys2Proof/Laws/Tables.lean ====
section
/-!
SUPPORT. What the keyed tables and list helpers of Machine/Bytes.lean do: an entry reads back as it was set, and setting
one entry leaves every other entry alone.
-/

namespace Sys2Proof.Machine

variable {α : Type}

@[simp] theorem tget_nil (d : α) (k : Nat) : tget d [] k = d := rfl

/-- The entry just set reads back. -/
@[simp] theorem tget_tset_same (d : α) (t : List (Nat × α)) (k : Nat) (v : α) : tget d (tset t k v) k = v := by
  induction t with
  | nil => simp [tset, tget]
  | cons p t ih =>
    obtain ⟨k', v'⟩ := p
    simp only [tset]
    split
    · simp [tget]
    · split
      · simp [tget]
      · rename_i h1 h2
        simp [tget, ih, Ne.symm h2]

/-- Setting one entry leaves every other entry alone. -/
theorem tget_tset_ne (d : α) (t : List (Nat × α)) {k j : Nat} (v : α) (h : j ≠ k) :
    tget d (tset t k v) j = tget d t j := by
  induction t with
  | nil => simp [tset, tget, Ne.symm h]
  | cons p t ih =>
    obtain ⟨k', v'⟩ := p
    simp only [tset]
    split
    · simp [tget, Ne.symm h]
    · split
      · rename_i h1 h2
        simp [tget, ← h2, Ne.symm h]
      · simp [tget, ih]

@[simp] theorem tget_tmod_same (d : α) (t : List (Nat × α)) (k : Nat) (f : α → α) :
    tget d (tmod d t k f) k = f (tget d t k) := by simp [tmod]

theorem tget_tmod_ne (d : α) (t : List (Nat × α)) {k j : Nat} (f : α → α) (h : j ≠ k) :
    tget d (tmod d t k f) j = tget d t j := by simp [tmod, tget_tset_ne _ _ _ h]

/-- A change of every listed entry that keeps the default entry is a change of every entry. -/
theorem tget_tmap (d : α) (t : List (Nat × α)) (k : Nat) (f : Nat → α → α) (h : f k d = d) :
    tget d (tmap f t) k = f k (tget d t k) := by
  induction t with
  | nil => simp [tmap, tget, h]
  | cons p t ih =>
    obtain ⟨k', v'⟩ := p
    simp only [tmap, List.map_cons, tget] at ih ⊢
    split
    · rename_i e; subst e; rfl
    · exact ih

/-- Every entry a table lists after one is set is that one or was listed before. -/
theorem mem_tset (t : List (Nat × α)) (k : Nat) (v : α) (p : Nat × α) (h : p ∈ tset t k v) : p = (k, v) ∨ p ∈ t := by
  induction t with
  | nil => simpa [tset] using h
  | cons q t ih =>
    obtain ⟨k', v'⟩ := q
    simp only [tset] at h
    split at h
    · simpa using h
    · split at h
      · rcases List.mem_cons.1 h with h | h
        · exact .inl h
        · exact .inr (List.mem_cons_of_mem _ h)
      · rcases List.mem_cons.1 h with h | h
        · exact .inr (h ▸ List.mem_cons_self ..)
        · exact (ih h).imp id (List.mem_cons_of_mem _)

/-- An entry that a table lists is found there, or another entry of its key stands before it. -/
theorem tget_eq_default_or_mem (d : α) (t : List (Nat × α)) (k : Nat) : tget d t k = d ∨ (k, tget d t k) ∈ t := by
  induction t with
  | nil => exact .inl rfl
  | cons q t ih =>
    obtain ⟨k', v'⟩ := q
    simp only [tget]
    split
    · rename_i e; subst e; exact .inr (List.mem_cons_self ..)
    · exact ih.imp id (List.mem_cons_of_mem _)

/-- Changing an element keeps a list's length. -/
@[simp] theorem length_lmod (l : List α) (i : Nat) (f : α → α) : (lmod l i f).length = l.length := by
  induction l generalizing i with
  | nil => rfl
  | cons x t ih => cases i <;> simp [lmod, ih]

/-- Insertion keeps every element and adds one. -/
theorem mem_insertBy (lt : α → α → Bool) (x y : α) (l : List α) : y ∈ insertBy lt x l ↔ y = x ∨ y ∈ l := by
  induction l with
  | nil => simp [insertBy]
  | cons z t ih =>
    simp only [insertBy]
    split
    · simp
    · simp [ih]
      constructor <;> rintro (h | h | h) <;> simp [h]

end Sys2Proof.Machine
end

