-- ==== Sys2Proof/Laws/Bounds.lean ====
section
/-!
SUPPORT. The bounds of Safety.lean under changes of the state: a change that leaves the bounded fields alone keeps them,
and each way to change one of those fields keeps them under the condition its lemma names.
-/

namespace Sys2Proof.Machine

/-- A fold keeps the bounds when each of its steps does. -/
theorem foldl_bounded {α : Type} (f : State → α → State) (l : List α) (s : State) (hf : ∀ s x, s.bounded → (f s x).bounded)
    (h : s.bounded) : (l.foldl f s).bounded := by
  induction l generalizing s with
  | nil => exact h
  | cons x l ih => exact ih _ (hf s x h)

theorem State.bounded_locks {s t : State} (h : s.bounded) (e : t.jrn.locks.length ≤ s.jrn.locks.length)
    (h1 : t.hostMem = s.hostMem) (h2 : t.mem.dev = s.mem.dev) (h3 : t.hif.timer = s.hif.timer) (h4 : t.mgt.events = s.mgt.events)
    (h5 : t.sec.tokens = s.sec.tokens) (h6 : t.qm.rings = s.qm.rings) : t.bounded := by
  obtain ⟨a1, a2, a3, a4, a5, a6, a7⟩ := h
  exact ⟨h1 ▸ a1, h2 ▸ a2, h3 ▸ a3, h4 ▸ a4, h5 ▸ a5, h6 ▸ a6, Nat.le_trans e a7⟩

theorem State.bounded_dev {s t : State} (h : s.bounded) (e : Memory.wf t.mem.dev = true)
    (h1 : t.hostMem = s.hostMem) (h3 : t.hif.timer = s.hif.timer) (h4 : t.mgt.events = s.mgt.events)
    (h5 : t.sec.tokens = s.sec.tokens) (h6 : t.qm.rings = s.qm.rings) (h7 : t.jrn.locks = s.jrn.locks) : t.bounded := by
  obtain ⟨a1, _, a3, a4, a5, a6, a7⟩ := h
  exact ⟨h1 ▸ a1, e, h3 ▸ a3, h4 ▸ a4, h5 ▸ a5, h6 ▸ a6, h7 ▸ a7⟩

theorem State.bounded_tokens {s t : State} (h : s.bounded) (e : t.sec.tokens ≤ 1024)
    (h1 : t.hostMem = s.hostMem) (h2 : t.mem.dev = s.mem.dev) (h3 : t.hif.timer = s.hif.timer) (h4 : t.mgt.events = s.mgt.events)
    (h6 : t.qm.rings = s.qm.rings) (h7 : t.jrn.locks = s.jrn.locks) : t.bounded := by
  obtain ⟨a1, a2, a3, a4, _, a6, a7⟩ := h
  exact ⟨h1 ▸ a1, h2 ▸ a2, h3 ▸ a3, h4 ▸ a4, e, h6 ▸ a6, h7 ▸ a7⟩

theorem State.bounded_jrn {s t : State} (h : s.bounded) (e : t.jrn.locks = s.jrn.locks)
    (h1 : t.hostMem = s.hostMem) (h2 : t.mem.dev = s.mem.dev) (h3 : t.hif.timer = s.hif.timer) (h4 : t.mgt.events = s.mgt.events)
    (h5 : t.sec.tokens = s.sec.tokens) (h6 : t.qm.rings = s.qm.rings) : t.bounded := by
  obtain ⟨a1, a2, a3, a4, a5, a6, a7⟩ := h
  exact ⟨h1 ▸ a1, h2 ▸ a2, h3 ▸ a3, h4 ▸ a4, h5 ▸ a5, h6 ▸ a6, e ▸ a7⟩

theorem State.module_bounded (s : State) (m : Module) (h : s.bounded) : ({ s with module := m } : State).bounded := h

/-- Device memory with some cells dropped. -/
theorem State.devFilter_bounded (s : State) (p : Host.Cell → Bool) (n : Nat) (h : s.bounded) :
    ({ s with mem := { s.mem with dev := s.mem.dev.filter p, farHost := n } } : State).bounded :=
  State.bounded_dev h (filter_wf p _ h.2.1) rfl rfl rfl rfl rfl rfl

theorem State.devLine_bounded (s : State) (d : Nat) (bs : List Byte) (h : s.bounded) :
    ({ s with mem := { s.mem with dev := memWrite s.mem.dev d bs } } : State).bounded :=
  State.bounded_dev h (memWrite_wf _ _ _ h.2.1) rfl rfl rfl rfl rfl rfl

theorem State.wcb_bounded (s : State) (l : List (Nat × Nat)) (h : s.bounded) :
    ({ s with mem := { s.mem with wcb := l } } : State).bounded := h

theorem lastN_length {α : Type} (k : Nat) (l : List α) : (lastN k l).length ≤ k := by
  unfold lastN; rw [List.length_reverse, List.length_take]; exact Nat.min_le_left _ _

theorem State.events_bounded (s : State) (es ps : List Event) (n : Nat) (h : s.bounded) (e : es.length ≤ 65536) :
    ({ s with mgt := { s.mgt with events := es, nextEvt := n, platform := ps } } : State).bounded :=
  ⟨h.1, h.2.1, h.2.2.1, e, h.2.2.2.2⟩

theorem tget_latBoundOk (t : List (Nat × Ring)) (p : Nat) (h : ∀ r ∈ t, latBoundOk r.2) : latBoundOk (tget {} t p) := by
  rcases tget_eq_default_or_mem ({} : Ring) t p with e | m
  · rw [e]; exact ⟨by decide, by decide⟩
  · exact h _ m

theorem foldl_some {β γ : Type} (P : γ → Prop) (f : Option γ → β → Option γ) (l : List β) (a : Option γ)
    (h0 : ∀ g, a = some g → P g) (hf : ∀ a x, (∀ g, a = some g → P g) → ∀ g, f a x = some g → P g) :
    ∀ g, l.foldl f a = some g → P g := by
  induction l generalizing a with
  | nil => exact h0
  | cons x l ih => exact ih _ (hf a x h0)

theorem foldl_state {α β : Type} (f : α × List Extent × State → β → α × List Extent × State) (l : List β)
    (a : α × List Extent × State) (hf : ∀ a x, a.2.2.bounded → (f a x).2.2.bounded) (h : a.2.2.bounded) : (l.foldl f a).2.2.bounded := by
  induction l generalizing a with
  | nil => exact h
  | cons x l ih => exact ih _ (hf a x h)

theorem foldl_jrn {α β : Type} {j : Jrn} (f : α × List Extent × State → β → α × List Extent × State) (l : List β)
    (a : α × List Extent × State) (hf : ∀ a x, a.2.2.jrn = j → (f a x).2.2.jrn = j) (h : a.2.2.jrn = j) : (l.foldl f a).2.2.jrn = j := by
  induction l generalizing a with
  | nil => exact h
  | cons x l ih => exact ih _ (hf a x h)

/-- What is tried unless a condition holds, when it gives something. -/
theorem unless_some {α : Type} {c : Prop} [Decidable c] {x : Option α} {y : α} (e : (if c then none else x) = some y) : x = some y := by
  split at e
  · cases e
  · exact e

theorem State.timer_bounded (s : State) (n : Nat) (h : s.bounded) :
    ({ s with hif := { s.hif with timer := n % 2 ^ 64 } } : State).bounded :=
  ⟨h.1, h.2.1, Nat.mod_lt _ (by decide), h.2.2.2⟩

end Sys2Proof.Machine
end

