-- ==== Sys2Proof/Laws/BoundsOps.lean ====
section
/-!
SUPPORT. Every function of Machine/Ops.lean keeps the bounds of Safety.lean.
-/

namespace Sys2Proof.Machine

/-- A change of one ring pair that keeps QM_RING_QOS keeps the bounds. -/
theorem State.modRing_bounded (s : State) (p : Nat) (f : Ring → Ring) (hf : ∀ r, (f r).qos = r.qos) (h : s.bounded) :
    (s.modRing p f).bounded := by
  obtain ⟨h1, h2, h3, h4, h5, h6, h7⟩ := h
  refine ⟨h1, h2, h3, h4, h5, ?_, h7⟩
  intro r hr
  rcases mem_tset _ _ _ _ hr with e | m
  · subst e
    have := tget_latBoundOk s.qm.rings p h6
    simpa [latBoundOk, hf] using this
  · exact h6 r m

theorem State.modPart_bounded (s : State) (p : Nat) (f : Partition → Partition) (h : s.bounded) :
    (State.modPart s p f).bounded := by
  unfold State.modPart
  repeat' (first
    | with_reducible assumption | dsimp only | split | intro _)

theorem State.modCtx_bounded (s : State) (c : Nat) (f : Context → Context) (h : s.bounded) :
    (State.modCtx s c f).bounded := by
  unfold State.modCtx
  repeat' (first
    | with_reducible assumption | dsimp only | split | intro _)

theorem State.modColl_bounded (s : State) (c : Nat) (f : Coll → Coll) (h : s.bounded) :
    (State.modColl s c f).bounded := by
  unfold State.modColl
  repeat' (first
    | with_reducible assumption | dsimp only | split | intro _)

theorem State.modTile_bounded (s : State) (t : Nat) (f : Tile → Tile) (h : s.bounded) :
    (State.modTile s t f).bounded := by
  unfold State.modTile
  repeat' (first
    | with_reducible assumption | dsimp only | split | intro _)

theorem State.mapCmds_bounded (s : State) (f : Cmd → Cmd) (h : s.bounded) :
    (State.mapCmds s f).bounded := by
  unfold State.mapCmds
  repeat' (first
    | with_reducible assumption | dsimp only | split | intro _)

theorem State.modCmd_bounded (s : State) (n : Nat) (f : Cmd → Cmd) (h : s.bounded) :
    (State.modCmd s n f).bounded := by
  unfold State.modCmd
  repeat' (first
    | with_reducible assumption | with_reducible apply State.mapCmds_bounded | dsimp only | split | intro _)

theorem State.free_bounded (s : State) (h : s.bounded) : s.free.2.bounded := h

theorem State.hold_bounded (s : State) (r : HeldReq) (h : s.bounded) :
    (State.hold s r).bounded := by
  unfold State.hold
  repeat' (first
    | with_reducible assumption | dsimp only | split | intro _)

theorem State.hostWrite_bounded (s : State) (a : Nat) (bs : List Byte) (h : s.bounded) : (s.hostWrite a bs).bounded := by
  unfold State.hostWrite
  split
  · exact h
  · exact ⟨memWrite_wf _ _ _ h.1, h.2⟩

theorem State.hostStores_bounded (s : State) (cs : List Host.Cell) (h : s.bounded) : (s.hostStores cs).bounded :=
  ⟨memCells_wf _ _ h.1, h.2⟩

theorem State.msixSend_bounded (s : State) (v : Nat) (h : s.bounded) :
    (State.msixSend s v).bounded := by
  unfold State.msixSend
  repeat' (first
    | with_reducible assumption | with_reducible apply State.hold_bounded | dsimp only | split | intro _)

theorem State.pushEvent_bounded (s : State) (e : Event) (h : s.bounded) : (s.pushEvent e).bounded := by
  unfold State.pushEvent
  exact State.events_bounded _ _ _ _ h (lastN_length evtKeep _)

theorem State.event_bounded (s : State) (code sev kind unit d0 d1 : Nat) (h : s.bounded) :
    (State.event s code sev kind unit d0 d1).bounded := by
  unfold State.event
  repeat' (first
    | with_reducible assumption | with_reducible apply State.pushEvent_bounded | with_reducible apply State.msixSend_bounded
    | dsimp only | split | intro _)

theorem State.hifErr_bounded (s : State) (b : Nat) (h : s.bounded) :
    (State.hifErr s b).bounded := by
  unfold State.hifErr
  repeat' (first
    | with_reducible assumption | with_reducible apply State.event_bounded | dsimp only | split | intro _)

theorem State.recordLost_bounded (s : State) (p : Nat) (h : s.bounded) :
    (State.recordLost s p).bounded := by
  unfold State.recordLost
  repeat' (first
    | with_reducible assumption | with_reducible apply State.event_bounded | with_reducible apply State.modRing_bounded | dsimp only
    | split | intro _)

theorem State.signalAll_bounded (s : State) (p : Nat) (h : s.bounded) :
    (State.signalAll s p).bounded := by
  unfold State.signalAll
  repeat' (first
    | with_reducible assumption | with_reducible apply State.msixSend_bounded | with_reducible apply State.modRing_bounded
    | dsimp only | split | intro _)

theorem State.cacheFill_bounded (s : State) (line : Nat) (h : s.bounded) :
    (State.cacheFill s line).bounded := by
  unfold State.cacheFill
  repeat' (first
    | with_reducible assumption | dsimp only | split | intro _)

theorem State.signal_bounded (s : State) (p : Nat) (irq : Bool) (h : s.bounded) :
    (State.signal s p irq).bounded := by
  unfold State.signal
  repeat' (first
    | with_reducible assumption | with_reducible apply State.msixSend_bounded | with_reducible apply State.modRing_bounded
    | dsimp only | split | intro _)

theorem State.ringSettle_bounded (s : State) (p : Nat) (h : s.bounded) :
    (State.ringSettle s p).bounded := by
  unfold State.ringSettle
  repeat' (first
    | with_reducible assumption | with_reducible apply State.free_bounded | with_reducible apply State.modRing_bounded | dsimp only
    | split | intro _)

theorem State.epochSettle_bounded (s : State) (p : Nat) (h : s.bounded) :
    (State.epochSettle s p).bounded := by
  unfold State.epochSettle
  repeat' (first
    | with_reducible assumption | with_reducible apply State.modPart_bounded | dsimp only | split | intro _)

theorem State.randServed_bounded (s : State) (n : Nat) (h : s.bounded) :
    (State.randServed s n).bounded := by
  unfold State.randServed
  repeat' (first
    | with_reducible assumption | dsimp only | split | intro _)

theorem State.chargeEngine_bounded (s : State) (x e : Nat) (h : s.bounded) :
    (State.chargeEngine s x e).bounded := by
  unfold State.chargeEngine
  repeat' (first
    | with_reducible assumption | with_reducible apply State.modCtx_bounded | dsimp only | split | intro _)

theorem State.freeTiles_bounded (s : State) (n : Nat) (h : s.bounded) :
    (State.freeTiles s n).bounded := by
  unfold State.freeTiles
  repeat' (first
    | with_reducible assumption | dsimp only | split | intro _)

theorem State.chargeSegment_bounded (s : State) (a : Pass) (h : s.bounded) :
    (State.chargeSegment s a).bounded := by
  unfold State.chargeSegment
  repeat' (first
    | with_reducible assumption | with_reducible apply State.chargeEngine_bounded | with_reducible apply foldl_bounded | dsimp only
    | split | intro _)

theorem State.passEnd_bounded (s : State) (pass st : Nat) (h : s.bounded) :
    (State.passEnd s pass st).bounded := by
  unfold State.passEnd
  repeat' (first
    | with_reducible assumption | with_reducible apply State.mapCmds_bounded | dsimp only | split | intro _)

theorem State.leavePasses_bounded (s : State) (gone : Pass → Served → Bool) (h : s.bounded) :
    (State.leavePasses s gone).bounded := by
  unfold State.leavePasses
  repeat' (first
    | with_reducible assumption | with_reducible apply State.passEnd_bounded | with_reducible apply State.chargeSegment_bounded
    | with_reducible apply foldl_bounded | dsimp only | split | intro _)

theorem State.dropGone_bounded (s : State) (n : Nat) (h : s.bounded) :
    (State.dropGone s n).bounded := by
  unfold State.dropGone
  repeat' (first
    | with_reducible assumption | dsimp only | split | intro _)

theorem State.finish_bounded (s : State) (c : Cmd) (st spec0 spec1 : Nat) (result trunc : Bool) (h : s.bounded) :
    (State.finish s c st spec0 spec1 result trunc).bounded := by
  unfold State.finish
  repeat' (first
    | with_reducible assumption | with_reducible apply State.dropGone_bounded | with_reducible apply State.freeTiles_bounded
    | with_reducible apply State.epochSettle_bounded | with_reducible apply State.ringSettle_bounded
    | with_reducible apply State.signal_bounded | with_reducible apply State.cacheFill_bounded
    | with_reducible apply State.recordLost_bounded | with_reducible apply State.hostWrite_bounded
    | with_reducible apply State.modRing_bounded | dsimp only | split | intro _)

theorem State.markHeld_bounded (s : State) (x : Nat) (h : s.bounded) :
    (State.markHeld s x).bounded := by
  unfold State.markHeld
  repeat' (first
    | with_reducible assumption | with_reducible apply State.reserve_bounded | with_reducible apply State.modPart_bounded
    | dsimp only | split | intro _)

theorem State.putImages_bounded (s : State) (p : Nat) (sel : SaveImage → Bool) (h : s.bounded) :
    (State.putImages s p sel).bounded := by
  unfold State.putImages
  repeat' (first
    | with_reducible assumption | with_reducible apply State.mapCmds_bounded | with_reducible apply State.modTile_bounded
    | with_reducible apply State.modPart_bounded | with_reducible apply foldl_bounded | dsimp only | split | intro _)

theorem State.restoreFree_bounded (s : State) (p : Nat) (h : s.bounded) :
    (State.restoreFree s p).bounded := by
  unfold State.restoreFree
  repeat' (first
    | with_reducible assumption | with_reducible apply State.reserve_bounded | with_reducible apply State.putImages_bounded
    | with_reducible apply State.modTile_bounded | with_reducible apply State.mapCmds_bounded
    | with_reducible apply State.modPart_bounded | dsimp only | split | intro _)

theorem State.yieldSettle_bounded (s : State) (x : Nat) (h : s.bounded) :
    (State.yieldSettle s x).bounded := by
  unfold State.yieldSettle
  repeat' (first
    | with_reducible assumption | with_reducible apply State.finish_bounded | with_reducible apply State.modCtx_bounded | dsimp only
    | split | intro _)

theorem State.saveSettle_bounded (s : State) (x : Nat) (h : s.bounded) :
    (State.saveSettle s x).bounded := by
  unfold State.saveSettle
  repeat' (first
    | with_reducible assumption | with_reducible apply State.finish_bounded | with_reducible apply State.modCtx_bounded
    | with_reducible apply State.complete_bounded | with_reducible apply State.settle_bounded | dsimp only | split | intro _)

theorem State.borrowSettle_bounded (s : State) (x : Nat) (h : s.bounded) :
    (State.borrowSettle s x).bounded := by
  unfold State.borrowSettle
  repeat' (first
    | with_reducible assumption | with_reducible apply State.markHeld_bounded | with_reducible apply State.modCtx_bounded
    | dsimp only | split | intro _)

theorem State.pauseSettle_bounded (s : State) (p : Nat) (h : s.bounded) :
    (State.pauseSettle s p).bounded := by
  unfold State.pauseSettle
  repeat' (first
    | with_reducible assumption | with_reducible apply State.finish_bounded | with_reducible apply State.modPart_bounded
    | dsimp only | split | intro _)

theorem State.drainSettle_bounded (s : State) (p : Nat) (h : s.bounded) :
    (State.drainSettle s p).bounded := by
  unfold State.drainSettle
  repeat' (first
    | with_reducible assumption | with_reducible apply State.free_bounded | with_reducible apply State.modPart_bounded | dsimp only
    | split | intro _)

theorem State.bindCmd_bounded (s : State) (c : Cmd) (h : s.bounded) :
    (State.bindCmd s c).bounded := by
  unfold State.bindCmd
  repeat' (first
    | with_reducible assumption | with_reducible apply State.modCmd_bounded | dsimp only | split | intro _)

theorem State.bindAll_bounded (s : State) (h : s.bounded) :
    (State.bindAll s).bounded := by
  unfold State.bindAll
  repeat' (first
    | with_reducible assumption | with_reducible apply State.bindCmd_bounded | with_reducible apply foldl_bounded | dsimp only
    | split | intro _)

theorem State.settle_bounded (s : State) (x p : Nat) (h : s.bounded) :
    (State.settle s x p).bounded := by
  unfold State.settle
  repeat' (first
    | with_reducible assumption | with_reducible apply State.drainSettle_bounded | with_reducible apply State.pauseSettle_bounded
    | with_reducible apply State.borrowSettle_bounded | with_reducible apply State.saveSettle_bounded
    | with_reducible apply State.yieldSettle_bounded | with_reducible apply State.restoreFree_bounded | dsimp only | split | intro _)

theorem State.complete_bounded (s : State) (c : Cmd) (st spec0 spec1 : Nat) (result trunc : Bool) (h : s.bounded) :
    (State.complete s c st spec0 spec1 result trunc).bounded := by
  unfold State.complete
  repeat' (first
    | with_reducible assumption | with_reducible apply State.settle_bounded | with_reducible apply State.bindAll_bounded
    | with_reducible apply State.finish_bounded | dsimp only | split | intro _)

theorem State.stop_bounded (s : State) (c : Cmd) (st : Nat) (h : s.bounded) :
    (State.stop s c st).bounded := by
  unfold State.stop
  repeat' (first
    | with_reducible assumption | with_reducible apply State.complete_bounded | dsimp only | split | intro _)

theorem State.start_bounded (s : State) (n : Nat) (h : s.bounded) :
    (State.start s n).bounded := by
  unfold State.start
  repeat' (first
    | with_reducible assumption | with_reducible apply State.modCmd_bounded | dsimp only | split | intro _)

theorem State.fmtCount_bounded (s : State) (sat nan : Nat) (h : s.bounded) :
    (State.fmtCount s sat nan).bounded := by
  unfold State.fmtCount
  repeat' (first
    | with_reducible assumption | dsimp only | split | intro _)

end Sys2Proof.Machine
end

