-- ==== Sys2Proof/Laws/BoundsAlloc.lean ====
section
/-!
SUPPORT. Every function of Machine/Alloc.lean keeps the bounds of Safety.lean.
-/

namespace Sys2Proof.Machine

theorem State.modUnit_bounded (s : State) (u : Nat) (f : MemUnit → MemUnit) (h : s.bounded) :
    (State.modUnit s u f).bounded := by
  unfold State.modUnit
  repeat' (first
    | with_reducible assumption | dsimp only | split | intro _)

theorem State.reserve_bounded (s : State) (t n : Nat) (h : s.bounded) : (s.reserve t n).2.bounded := by
  unfold State.reserve
  dsimp only
  split <;> exact h

end Sys2Proof.Machine
end

