-- ==== Sys2Proof/Laws/BoundsDevMem.lean ====
section
/-!
SUPPORT. Every function of Machine/DevMem.lean keeps the bounds of Safety.lean.
-/

namespace Sys2Proof.Machine

theorem State.errLog_bounded (s : State) (u type ch addr : Nat) (h : s.bounded) :
    (State.errLog s u type ch addr).bounded := by
  unfold State.errLog
  repeat' (first
    | with_reducible assumption | dsimp only | split | intro _)

theorem State.life_bounded (s : State) (i n : Nat) (h : s.bounded) :
    (State.life s i n).bounded := by
  unfold State.life
  repeat' (first
    | with_reducible assumption | dsimp only | split | intro _)

theorem State.missBlock_bounded (s : State) (room : Bool) (b : Nat) (h : s.bounded) :
    (State.missBlock s room b).bounded := by
  unfold State.missBlock
  repeat' (first
    | with_reducible assumption | with_reducible apply State.event_bounded | dsimp only | split | intro _)

theorem State.stackOut_bounded (s : State) (u cause : Nat) (h : s.bounded) :
    (State.stackOut s u cause).bounded := by
  unfold State.stackOut
  repeat' (first
    | with_reducible assumption | with_reducible apply State.errLog_bounded | with_reducible apply State.modUnit_bounded
    | with_reducible apply State.event_bounded | dsimp only | split | intro _)

theorem State.mapOut_bounded (s : State) (u ch : Nat) (h : s.bounded) : (s.mapOut u ch).bounded := by
  unfold State.mapOut
  dsimp only
  repeat' (first
    | with_reducible assumption
    | with_reducible apply State.stackOut_bounded
    | with_reducible apply State.event_bounded
    | with_reducible apply State.errLog_bounded
    | with_reducible apply State.life_bounded
    | with_reducible apply State.devFilter_bounded
    | with_reducible apply foldl_bounded
    | with_reducible apply State.missBlock_bounded
    | with_reducible apply State.modUnit_bounded
    | split
    | intro _)

theorem State.channelFail_bounded (s : State) (u ch : Nat) (h : s.bounded) :
    (State.channelFail s u ch).bounded := by
  unfold State.channelFail
  repeat' (first
    | with_reducible assumption | with_reducible apply State.mapOut_bounded | with_reducible apply State.life_bounded
    | with_reducible apply State.errLog_bounded | with_reducible apply State.modUnit_bounded
    | with_reducible apply State.event_bounded | dsimp only | split | intro _)

theorem State.rowRepair_bounded (s : State) (line : Nat) (h : s.bounded) :
    (State.rowRepair s line).bounded := by
  unfold State.rowRepair
  repeat' (first
    | with_reducible assumption | with_reducible apply State.channelFail_bounded | with_reducible apply State.missBlock_bounded
    | with_reducible apply State.life_bounded | with_reducible apply State.errLog_bounded
    | with_reducible apply State.modUnit_bounded | with_reducible apply State.event_bounded | dsimp only | split | intro _)

theorem State.meetBad_bounded (s : State) (line : Nat) (h : s.bounded) :
    (State.meetBad s line).bounded := by
  unfold State.meetBad
  repeat' (first
    | with_reducible assumption | with_reducible apply State.rowRepair_bounded | with_reducible apply State.errLog_bounded
    | with_reducible apply State.event_bounded | dsimp only | split | intro _)

theorem State.meetCorrected_bounded (s : State) (line : Nat) (h : s.bounded) :
    (State.meetCorrected s line).bounded := by
  unfold State.meetCorrected
  repeat' (first
    | with_reducible assumption | with_reducible apply State.rowRepair_bounded | with_reducible apply State.channelFail_bounded
    | with_reducible apply State.errLog_bounded | with_reducible apply State.modUnit_bounded | dsimp only | split | intro _)

theorem State.lineWritten_bounded (s : State) (line : Nat) (h : s.bounded) :
    (State.lineWritten s line).bounded := by
  unfold State.lineWritten
  repeat' (first
    | with_reducible assumption | dsimp only | split | intro _)

theorem State.meetRead_bounded (s : State) (lines : List Nat) (h : s.bounded) :
    (State.meetRead s lines).bounded := by
  unfold State.meetRead
  repeat' (first
    | with_reducible assumption | with_reducible apply State.meetBad_bounded | with_reducible apply foldl_bounded | dsimp only
    | split | intro _)

theorem State.bufMet_bounded (s : State) (dev : Bool) (a n : Nat) (h : s.bounded) :
    (State.bufMet s dev a n).bounded := by
  unfold State.bufMet
  repeat' (first
    | with_reducible assumption | with_reducible apply State.meetRead_bounded | dsimp only | split | intro _)

theorem State.wcbPut_bounded (s : State) (line mask : Nat) (h : s.bounded) : (s.wcbPut line mask).bounded := by
  unfold State.wcbPut
  exact State.wcb_bounded _ _ h

theorem State.wcbWrite_bounded (s : State) (a n : Nat) (h : s.bounded) :
    (State.wcbWrite s a n).bounded := by
  unfold State.wcbWrite
  repeat' (first
    | with_reducible assumption | with_reducible apply State.wcbPut_bounded | with_reducible apply foldl_bounded | dsimp only
    | split | intro _)

theorem State.wcbDrop_bounded (s : State) (a n : Nat) (h : s.bounded) :
    (State.wcbDrop s a n).bounded := by
  unfold State.wcbDrop
  repeat' (first
    | with_reducible assumption | dsimp only | split | intro _)

theorem State.devMemPut_bounded (s : State) (a : Nat) (bs : List Byte) (h : s.bounded) : (s.devMemPut a bs).bounded := by
  unfold State.devMemPut
  refine foldl_bounded _ _ _ (fun s x h => State.lineWritten_bounded s x h) ?_
  exact ⟨h.1, memWrite_wf _ _ _ h.2.1, h.2.2⟩

theorem State.devWrite_bounded (s : State) (a : Nat) (bs : List Byte) (h : s.bounded) :
    (State.devWrite s a bs).bounded := by
  unfold State.devWrite
  repeat' (first
    | with_reducible assumption | with_reducible apply State.devMemPut_bounded | with_reducible apply State.wcbWrite_bounded
    | dsimp only | split | intro _)

theorem State.bufWrite_bounded {s : State} {dev : Bool} {a : Nat} {bs : List Byte} {t : State} (e : s.bufWrite dev a bs = some t)
    (h : s.bounded) : t.bounded := by
  unfold State.bufWrite at e
  split at e
  · cases e; exact State.devWrite_bounded _ _ _ h
  · split at e
    · cases e; exact State.hostWrite_bounded _ _ _ h
    · cases e

end Sys2Proof.Machine
end

