-- ==== Sys2Proof/Laws/BoundsLayout.lean ====
section
/-!
SUPPORT. Every function of Machine/Layout.lean keeps the bounds of Safety.lean.
-/

namespace Sys2Proof.Machine

theorem State.fmtCount_keeps_jrn (s : State) (a b : Nat) : (s.fmtCount a b).jrn = s.jrn := rfl

theorem State.allocRun_bounded {s : State} {tk : List Extent} {t n : Nat} {e : Extent} {u : State}
    (eq : s.allocRun tk t n = some (e, u)) (h : s.bounded) : u.bounded := by
  unfold State.allocRun at eq
  dsimp only at eq
  split at eq
  · cases eq; exact h
  · split at eq
    · cases eq
    · cases eq; exact h

theorem State.fit_bounded {s : State} {tk : List Extent} {t : Nat} {ps as' : List Nat} {es : List Extent} {u : State}
    (eq : s.fit tk t ps = some (as', es, u)) (h : s.bounded) : u.bounded := by
  unfold State.fit at eq
  dsimp only at eq
  split at eq
  · rename_i e1
    cases eq
    exact State.allocRun_bounded e1 h
  · split at eq
    · cases eq
    · cases eq; exact h

theorem State.layStack_bounded {s : State} {c : CollCfg} {tk : List Extent} {fa : Nat → List Nat} {ps : List ListPlan} {t : Nat}
    {ls : List (Nat × IList)} {tk' : List Extent} {u : State} (eq : s.layStack c tk fa ps t = some (ls, tk', u)) (h : s.bounded) :
    u.bounded := by
  unfold State.layStack at eq
  dsimp only at eq
  split at eq
  · cases eq
  · rename_i e1
    cases eq
    exact State.fit_bounded e1 h

theorem State.layLists_bounded {s : State} {c : CollCfg} {tk : List Extent} {ps : List ListPlan}
    {ls : List (Nat × IList)} {tk' : List Extent} {u : State} (eq : s.layLists c tk ps = some (ls, tk', u)) (h : s.bounded) :
    u.bounded := by
  unfold State.layLists at eq
  dsimp only at eq
  split at eq
  · cases eq
  · rename_i e1
    have h1 := State.fit_bounded e1 h
    refine foldl_some (fun g => g.2.2.bounded) _ _ _ ?_ ?_ _ eq
    · intro g e; cases e; exact h1
    · intro a x ha g e
      split at e
      · cases e
      · split at e
        · cases e
        · rename_i e4
          cases e
          exact State.layStack_bounded e4 (ha _ rfl)

theorem State.layHome_bounded {s : State} {d d' : CollData} {tk : List Extent} {u : State}
    (eq : s.layHome d = some (d', tk, u)) (h : s.bounded) : u.bounded := by
  unfold State.layHome at eq
  dsimp only at eq
  split at eq
  · cases eq
  · rename_i e1
    have h1 := State.fit_bounded e1 h
    split at eq
    · cases eq
    · rename_i e2
      have h2 := State.fit_bounded e2 h1
      split at eq
      · cases eq
      · rename_i e3
        cases eq
        refine foldl_some (fun g => g.2.2.bounded) _ _ _ ?_ ?_ _ e3
        · intro g e; cases e; exact h2
        · intro a x ha g e
          split at e
          · cases e
          · split at e
            · cases e
            · rename_i e4
              cases e
              exact State.fit_bounded e4 (ha _ rfl)

theorem State.layReplica_bounded {s : State} {c : CollCfg} {tk : List Extent} {l l' : IList} {tk' : List Extent} {u : State}
    (eq : s.layReplica c tk l = some (l', tk', u)) (h : s.bounded) : u.bounded := by
  unfold State.layReplica at eq
  dsimp only at eq
  split at eq
  · cases eq
  · split at eq
    · cases eq
    · rename_i e1
      cases eq
      exact State.fit_bounded e1 h

theorem State.dropReplicas_bounded (s : State) (h : s.bounded) :
    (State.dropReplicas s).bounded := by
  unfold State.dropReplicas
  repeat' (first
    | with_reducible assumption | dsimp only | split | intro _)

theorem State.orDropReplicas_bounded {α : Type} {s : State} {f : State → Option (α × State)} {x : α} {t : State}
    (eq : s.orDropReplicas f = some (x, t)) (hf : ∀ s x t, f s = some (x, t) → s.bounded → t.bounded) (h : s.bounded) :
    t.bounded := by
  unfold State.orDropReplicas at eq
  split at eq
  · rename_i e
    cases eq
    exact hf _ _ _ e h
  · exact hf _ _ _ eq (State.dropReplicas_bounded _ h)

end Sys2Proof.Machine
end

