-- ==== Sys2Proof/Laws/BoundsPower.lean ====
section
/-!
SUPPORT. Every function of Machine/Power.lean keeps the bounds of Safety.lean.
-/

namespace Sys2Proof.Machine

theorem State.boostDrop_bounded (s : State) (h : s.bounded) :
    (State.boostDrop s).bounded := by
  unfold State.boostDrop
  repeat' (first
    | with_reducible assumption | dsimp only | split | intro _)

theorem railCurrentReport_bounded (rail current mv : Nat) (s : State) (h : s.bounded) :
    (railCurrentReport rail current mv s).bounded := by
  unfold railCurrentReport
  repeat' (first
    | with_reducible assumption | with_reducible apply State.boostDrop_bounded | dsimp only | split | intro _)

theorem State.boostClip_bounded (s : State) (h : s.bounded) : s.boostClip.bounded := h

theorem State.seedPhases_bounded (s : State) (p : Nat) (h : s.bounded) :
    (State.seedPhases s p).bounded := by
  unfold State.seedPhases
  repeat' (first
    | with_reducible assumption | with_reducible apply foldl_bounded | dsimp only | split | intro _)

theorem State.capUpdate_bounded (s : State) (h : s.bounded) :
    (State.capUpdate s).bounded := by
  unfold State.capUpdate
  repeat' (first
    | with_reducible assumption | with_reducible apply State.boostDrop_bounded | dsimp only | split | intro _)

theorem State.capRefresh_bounded (s : State) (h : s.bounded) :
    (State.capRefresh s).bounded := by
  unfold State.capRefresh
  repeat' (first
    | with_reducible assumption | with_reducible apply State.capUpdate_bounded | dsimp only | split | intro _)

theorem inputPowerReport_bounded (power vin u : Nat) (meas energy : List (Nat × Nat × Nat)) (unassigned : Nat) (paceMiss : Bool) (s : State) (h : s.bounded) :
    (inputPowerReport power vin u meas energy unassigned paceMiss s).bounded := by
  unfold inputPowerReport
  repeat' (first
    | with_reducible assumption | with_reducible apply State.capUpdate_bounded | with_reducible apply State.modRing_bounded
    | with_reducible apply foldl_bounded | dsimp only | split | intro _)

theorem vrAlertAssert_bounded (s : State) (h : s.bounded) :
    (vrAlertAssert s).bounded := by
  unfold vrAlertAssert
  repeat' (first
    | with_reducible assumption | with_reducible apply State.event_bounded | dsimp only | split | intro _)

theorem vrAlertDeassert_bounded (s : State) (h : s.bounded) :
    (vrAlertDeassert s).bounded := by
  unfold vrAlertDeassert
  repeat' (first
    | with_reducible assumption | dsimp only | split | intro _)

theorem parkQueueJoin_bounded (t : Nat) (s : State) (h : s.bounded) :
    (parkQueueJoin t s).bounded := by
  unfold parkQueueJoin
  repeat' (first
    | with_reducible assumption | dsimp only | split | intro _)

theorem rampStep_bounded (s : State) (h : s.bounded) :
    (rampStep s).bounded := by
  unfold rampStep
  repeat' (first
    | with_reducible assumption | dsimp only | split | intro _)

theorem State.wakeTile_bounded (s : State) (t : Nat) (h : s.bounded) : (s.wakeTile t).1.bounded := by
  unfold State.wakeTile
  split <;> exact h

theorem State.powerTime_bounded (s : State) (dt : Nat) (h : s.bounded) :
    (State.powerTime s dt).bounded := by
  unfold State.powerTime
  repeat' (first
    | with_reducible assumption | with_reducible apply State.mapCmds_bounded | dsimp only | split | intro _)

end Sys2Proof.Machine
end

