-- ==== Sys2Proof/Laws/BoundsRings.lean ====
section
/-!
SUPPORT. Every function of Machine/Rings.lean keeps the bounds of Safety.lean.
-/

namespace Sys2Proof.Machine

theorem State.ringError_bounded (s : State) (p cause : Nat) (h : s.bounded) :
    (State.ringError s p cause).bounded := by
  unfold State.ringError
  repeat' (first
    | with_reducible assumption | with_reducible apply State.event_bounded | with_reducible apply State.modRing_bounded | dsimp only
    | split | intro _)

theorem State.candRaise_bounded (s : State) (p x : Nat) (h : s.bounded) :
    (State.candRaise s p x).bounded := by
  unfold State.candRaise
  repeat' (first
    | with_reducible assumption | with_reducible apply State.modCtx_bounded | dsimp only | split | intro _)

theorem State.candRefresh_bounded (s : State) (p : Nat) (h : s.bounded) :
    (State.candRefresh s p).bounded := by
  unfold State.candRefresh
  repeat' (first
    | with_reducible assumption | with_reducible apply State.candRaise_bounded | with_reducible apply foldl_bounded | dsimp only
    | split | intro _)

theorem sqTail_bounded (stores : List Host.Cell) (page value : Nat) (s : State) (h : s.bounded) :
    (sqTail stores page value s).bounded := by
  unfold sqTail
  repeat' (first
    | with_reducible assumption | with_reducible apply State.candRefresh_bounded | with_reducible apply State.ringError_bounded
    | with_reducible apply State.hostStores_bounded | with_reducible apply State.modRing_bounded | dsimp only | split | intro _)

theorem cqHead_bounded (page value : Nat) (s : State) (h : s.bounded) :
    (cqHead page value s).bounded := by
  unfold cqHead
  repeat' (first
    | with_reducible assumption | with_reducible apply State.candRefresh_bounded | with_reducible apply State.ringError_bounded
    | with_reducible apply State.modRing_bounded | dsimp only | split | intro _)

theorem ringCreate_bounded (p : Nat) (s : State) (h : s.bounded) : (ringCreate p s).bounded := by
  unfold ringCreate
  dsimp only
  repeat' (first
    | with_reducible assumption
    | with_reducible refine State.modRing_bounded _ _ _ (fun _ => rfl) ?_
    | split)

theorem State.barrierWithdraw_bounded (s : State) (n : Nat) (h : s.bounded) :
    (State.barrierWithdraw s n).bounded := by
  unfold State.barrierWithdraw
  repeat' (first
    | with_reducible assumption | dsimp only | split | intro _)

theorem State.endBarriers_bounded (s : State) (p : Nat) (h : s.bounded) :
    (State.endBarriers s p).bounded := by
  unfold State.endBarriers
  repeat' (first
    | with_reducible assumption | with_reducible apply State.barrierWithdraw_bounded | with_reducible apply State.stop_bounded
    | with_reducible apply foldl_bounded | dsimp only | split | intro _)

theorem ringDestroy_bounded (p : Nat) (s : State) (h : s.bounded) :
    (ringDestroy p s).bounded := by
  unfold ringDestroy
  repeat' (first
    | with_reducible assumption | with_reducible apply State.endBarriers_bounded | with_reducible apply State.drainSettle_bounded
    | with_reducible apply State.ringSettle_bounded | with_reducible apply State.free_bounded
    | with_reducible apply State.modRing_bounded | dsimp only | split | intro _)

theorem controlWrite_bounded (v : Word32) (s : State) (h : s.bounded) :
    (controlWrite v s).bounded := by
  unfold controlWrite
  repeat' (first
    | with_reducible assumption | with_reducible apply State.hifErr_bounded | dsimp only | split | intro _)

theorem irqWrite_bounded (p : Nat) (v : Word32) (s : State) (h : s.bounded) :
    (irqWrite p v s).bounded := by
  unfold irqWrite
  repeat' (first
    | with_reducible assumption | with_reducible apply State.signalAll_bounded | with_reducible apply State.modRing_bounded
    | dsimp only | split | intro _)

theorem globalObservation_bounded (p : Nat) (s : State) (h : s.bounded) :
    (globalObservation p s).bounded := by
  unfold globalObservation
  repeat' (first
    | with_reducible assumption | with_reducible apply State.msixSend_bounded | with_reducible apply State.modRing_bounded
    | dsimp only | split | intro _)

theorem coalTimeExpiry_bounded (p : Nat) (s : State) (h : s.bounded) :
    (coalTimeExpiry p s).bounded := by
  unfold coalTimeExpiry
  repeat' (first
    | with_reducible assumption | with_reducible apply State.signalAll_bounded | with_reducible apply State.modRing_bounded
    | with_reducible apply State.msixSend_bounded | dsimp only | split | intro _)

theorem msixUnmask_bounded (v : Nat) (s : State) (h : s.bounded) :
    (msixUnmask v s).bounded := by
  unfold msixUnmask
  repeat' (first
    | with_reducible assumption | with_reducible apply State.msixSend_bounded | dsimp only | split | intro _)

theorem State.wcbFlush_bounded (s : State) (h : s.bounded) :
    (State.wcbFlush s).bounded := by
  unfold State.wcbFlush
  repeat' (first
    | with_reducible assumption | dsimp only | split | intro _)

theorem State.syncHeld_bounded (s : State) (c : Cmd) (h : s.bounded) :
    (State.syncHeld s c).bounded := by
  unfold State.syncHeld
  repeat' (first
    | with_reducible assumption | with_reducible apply State.mapCmds_bounded | dsimp only | split | intro _)

theorem fence_bounded (n : Nat) (s : State) (h : s.bounded) :
    (fence n s).bounded := by
  unfold fence
  repeat' (first
    | with_reducible assumption | with_reducible apply State.syncHeld_bounded | with_reducible apply State.wcbFlush_bounded
    | with_reducible apply State.start_bounded | with_reducible apply State.complete_bounded | dsimp only | split | intro _)

theorem State.barrierRelease_bounded (s : State) (key : Nat) (b : Barrier) (st : Nat) (h : s.bounded) :
    (State.barrierRelease s key b st).bounded := by
  unfold State.barrierRelease
  repeat' (first
    | with_reducible assumption | with_reducible apply State.syncHeld_bounded | with_reducible apply State.complete_bounded
    | with_reducible apply foldl_bounded | dsimp only | split | intro _)

theorem barrier_bounded (n : Nat) (s : State) (h : s.bounded) :
    (barrier n s).bounded := by
  unfold barrier
  repeat' (first
    | with_reducible assumption | with_reducible apply State.barrierRelease_bounded | with_reducible apply State.syncHeld_bounded
    | with_reducible apply State.start_bounded | with_reducible apply State.stop_bounded
    | with_reducible apply State.complete_bounded | dsimp only | split | intro _)

theorem barrierTimeout_bounded (part id : Nat) (s : State) (h : s.bounded) :
    (barrierTimeout part id s).bounded := by
  unfold barrierTimeout
  repeat' (first
    | with_reducible assumption | with_reducible apply State.barrierRelease_bounded | dsimp only | split | intro _)

end Sys2Proof.Machine
end

