-- ==== Sys2Proof/Laws/BoundsPartition.lean ====
section
/-!
SUPPORT. Every function of Machine/Partition.lean keeps the bounds of Safety.lean.
-/

namespace Sys2Proof.Machine

theorem contextCreate_bounded (x : Nat) (s : State) (h : s.bounded) :
    (contextCreate x s).bounded := by
  unfold contextCreate
  repeat' (first
    | with_reducible assumption | with_reducible apply State.free_bounded | with_reducible apply State.modCtx_bounded | dsimp only
    | split | intro _)

theorem contextDestroy_bounded (x : Nat) (s : State) (h : s.bounded) :
    (contextDestroy x s).bounded := by
  unfold contextDestroy
  repeat' (first
    | with_reducible assumption | with_reducible apply State.free_bounded | with_reducible apply State.modCtx_bounded | dsimp only
    | split | intro _)

theorem State.assignTiles_bounded (s : State) (p : Nat) (ts : List Nat) (h : s.bounded) :
    (State.assignTiles s p ts).bounded := by
  unfold State.assignTiles
  repeat' (first
    | with_reducible assumption | with_reducible apply State.modTile_bounded | with_reducible apply foldl_bounded | dsimp only
    | split | intro _)

theorem State.applyPlace_bounded (s : State) (p : Nat) (es : List (Nat × Nat)) (h : s.bounded) :
    (State.applyPlace s p es).bounded := by
  unfold State.applyPlace
  repeat' (first
    | with_reducible assumption | with_reducible apply State.assignTiles_bounded | with_reducible apply State.modPart_bounded
    | with_reducible apply place_bounded | dsimp only | split | intro _)

theorem place_bounded (stores : List Host.Cell) (p : Nat) (s : State) (h : s.bounded) :
    (place stores p s).bounded := by
  unfold place
  repeat' (first
    | with_reducible assumption | with_reducible apply State.applyPlace_bounded | with_reducible apply State.hostStores_bounded
    | with_reducible apply State.modPart_bounded | dsimp only | split | intro _)

theorem bwRefill_bounded (p n ns : Nat) (s : State) (h : s.bounded) :
    (bwRefill p n ns s).bounded := by
  unfold bwRefill
  repeat' (first
    | with_reducible assumption | with_reducible apply State.modPart_bounded | dsimp only | split | intro _)

theorem State.bwCharge_bounded (s : State) (p n bytes : Nat) (h : s.bounded) :
    (State.bwCharge s p n bytes).bounded := by
  unfold State.bwCharge
  repeat' (first
    | with_reducible assumption | with_reducible apply State.modPart_bounded | dsimp only | split | intro _)

theorem State.bwRequest_bounded (s : State) (p : Nat) (ws rs : List (Nat × Nat)) (h : s.bounded) : (s.bwRequest p ws rs).2.bounded := by
  unfold State.bwRequest
  split
  · exact foldl_bounded _ _ _ (fun _ _ h => State.modCmd_bounded _ _ _ h)
      (foldl_bounded _ _ _ (fun _ _ h => State.bwCharge_bounded _ _ _ _ h) h)
  · exact foldl_bounded _ _ _ (fun _ _ h => State.modCmd_bounded _ _ _ h) h

theorem State.beginPause_bounded (s : State) (x : Nat) (n : Option Nat) (precise : Bool) (h : s.bounded) :
    (State.beginPause s x n precise).bounded := by
  unfold State.beginPause
  repeat' (first
    | with_reducible assumption | with_reducible apply State.modCtx_bounded | dsimp only | split | intro _)

theorem pause_bounded (n : Nat) (s : State) (h : s.bounded) :
    (pause n s).bounded := by
  unfold pause
  repeat' (first
    | with_reducible assumption | with_reducible apply State.beginPause_bounded | with_reducible apply State.start_bounded
    | with_reducible apply State.complete_bounded | with_reducible apply State.settle_bounded
    | with_reducible apply State.pauseSettle_bounded | with_reducible apply State.yieldSettle_bounded
    | with_reducible apply State.modPart_bounded | with_reducible apply foldl_bounded | dsimp only | split | intro _)

theorem pauseSave_bounded (n : Nat) (s : State) (h : s.bounded) :
    (pauseSave n s).bounded := by
  unfold pauseSave
  repeat' (first
    | with_reducible assumption | with_reducible apply State.beginPause_bounded | with_reducible apply State.start_bounded
    | with_reducible apply State.complete_bounded | with_reducible apply State.settle_bounded
    | with_reducible apply State.pauseSettle_bounded | with_reducible apply State.saveSettle_bounded
    | with_reducible apply State.modPart_bounded | with_reducible apply foldl_bounded | dsimp only | split | intro _)

theorem State.saveTile_bounded (s : State) (c : Cmd) (t : Nat) (h : s.bounded) :
    (State.saveTile s c t).bounded := by
  unfold State.saveTile
  repeat' (first
    | with_reducible assumption | with_reducible apply State.modTile_bounded | with_reducible apply State.modPart_bounded
    | dsimp only | split | intro _)

theorem tileSaveDone_bounded (t : Nat) (s : State) (h : s.bounded) :
    (tileSaveDone t s).bounded := by
  unfold tileSaveDone
  repeat' (first
    | with_reducible assumption | with_reducible apply State.saveTile_bounded | with_reducible apply State.bwRequest_bounded
    | with_reducible apply State.settle_bounded | with_reducible apply State.saveSettle_bounded
    | with_reducible apply State.restoreFree_bounded | with_reducible apply State.modCtx_bounded
    | with_reducible apply State.markHeld_bounded | dsimp only | split | intro _)

theorem holdDeferExpiry_bounded (x : Nat) (s : State) (h : s.bounded) :
    (holdDeferExpiry x s).bounded := by
  unfold holdDeferExpiry
  repeat' (first
    | with_reducible assumption | with_reducible apply State.markHeld_bounded | dsimp only | split | intro _)

theorem State.heldTime_bounded (s : State) (x : Nat) (h : s.bounded) :
    (State.heldTime s x).bounded := by
  unfold State.heldTime
  repeat' (first
    | with_reducible assumption | with_reducible apply State.mapCmds_bounded | dsimp only | split | intro _)

theorem State.resumeCtx_bounded (s : State) (x : Nat) (h : s.bounded) :
    (State.resumeCtx s x).bounded := by
  unfold State.resumeCtx
  repeat' (first
    | with_reducible assumption | with_reducible apply State.heldTime_bounded | with_reducible apply State.candRefresh_bounded
    | with_reducible apply State.putImages_bounded | with_reducible apply State.modCtx_bounded
    | with_reducible apply State.modPart_bounded | dsimp only | split | intro _)

theorem resume_bounded (n : Nat) (s : State) (h : s.bounded) :
    (resume n s).bounded := by
  unfold resume
  repeat' (first
    | with_reducible assumption | with_reducible apply State.resumeCtx_bounded | with_reducible apply State.complete_bounded
    | with_reducible apply State.putImages_bounded | with_reducible apply State.modPart_bounded | with_reducible apply foldl_bounded
    | dsimp only | split | intro _)

end Sys2Proof.Machine
end

