-- ==== Sys2Proof/Laws/BoundsStop.lean ====
section
/-!
SUPPORT. Every function of Machine/Stop.lean keeps the bounds of Safety.lean.
-/

namespace Sys2Proof.Machine

theorem State.dropHolds_bounded (s : State) (n : Nat) (h : s.bounded) : (s.dropHolds n).bounded := by
  unfold State.dropHolds
  refine State.barrierWithdraw_bounded _ _ (State.bounded_locks
    (State.leavePasses_bounded _ (fun _ v => v.cmd == n) (State.freeTiles_bounded s n h)) ?_ rfl rfl rfl rfl rfl rfl)
  exact List.length_filter_le _ _

theorem State.awaitRecovery_bounded (s : State) (c : Nat) (h : s.bounded) :
    (State.awaitRecovery s c).bounded := by
  unfold State.awaitRecovery
  repeat' (first
    | with_reducible assumption | dsimp only | split | intro _)

theorem State.collTo_bounded (s : State) (c : Nat) (st : CollState) (h : s.bounded) :
    (State.collTo s c st).bounded := by
  unfold State.collTo
  repeat' (first
    | with_reducible assumption | with_reducible apply State.modColl_bounded | dsimp only | split | intro _)

theorem State.undo_bounded (s : State) (c : Cmd) (h : s.bounded) :
    (State.undo s c).bounded := by
  unfold State.undo
  repeat' (first
    | with_reducible assumption | with_reducible apply State.collTo_bounded | with_reducible apply State.awaitRecovery_bounded
    | with_reducible apply State.start_bounded | with_reducible apply State.free_bounded | dsimp only | split | intro _)

theorem State.abortCmd_bounded (s : State) (c : Cmd) (st : Nat) (force : Bool) (h : s.bounded) :
    (State.abortCmd s c st force).bounded := by
  unfold State.abortCmd
  repeat' (first
    | with_reducible assumption | with_reducible apply State.undo_bounded | with_reducible apply State.dropHolds_bounded
    | with_reducible apply State.stop_bounded | with_reducible apply State.modCmd_bounded | dsimp only | split | intro _)

theorem State.internalStop_bounded (s : State) (c : Cmd) (code : Word32) (h : s.bounded) :
    (State.internalStop s c code).bounded := by
  unfold State.internalStop
  repeat' (first
    | with_reducible assumption | with_reducible apply State.abortCmd_bounded | with_reducible apply State.event_bounded
    | dsimp only | split | intro _)

theorem State.abortAll_bounded (s : State) (p : Cmd → Bool) (st : Nat) (force : Bool) (h : s.bounded) :
    (State.abortAll s p st force).bounded := by
  unfold State.abortAll
  repeat' (first
    | with_reducible assumption | with_reducible apply State.abortCmd_bounded | with_reducible apply foldl_bounded | dsimp only
    | split | intro _)

theorem State.saveWaiter_bounded (s : State) (n : Nat) (h : s.bounded) :
    (State.saveWaiter s n).bounded := by
  unfold State.saveWaiter
  repeat' (first
    | with_reducible assumption | with_reducible apply State.abortCmd_bounded | with_reducible apply State.saveTile_bounded
    | with_reducible apply State.bwCharge_bounded | with_reducible apply State.modCtx_bounded | with_reducible apply foldl_bounded
    | dsimp only | split | intro _)

theorem holderRestore_bounded (x : Nat) (s : State) (h : s.bounded) :
    (holderRestore x s).bounded := by
  unfold holderRestore
  repeat' (first
    | with_reducible assumption | with_reducible apply State.saveWaiter_bounded | with_reducible apply State.putImages_bounded
    | with_reducible apply State.modCtx_bounded | with_reducible apply State.abortCmd_bounded
    | with_reducible apply State.saveTile_bounded | with_reducible apply foldl_bounded | dsimp only | split | intro _)

theorem destroyForce_bounded (p : Nat) (s : State) (h : s.bounded) :
    (destroyForce p s).bounded := by
  unfold destroyForce
  repeat' (first
    | with_reducible assumption | with_reducible apply State.abortAll_bounded | with_reducible apply State.drainSettle_bounded
    | with_reducible apply State.ringSettle_bounded | with_reducible apply State.free_bounded
    | with_reducible apply State.modRing_bounded | dsimp only | split | intro _)

theorem State.partErr_bounded (s : State) (p e : Nat) (h : s.bounded) :
    (State.partErr s p e).bounded := by
  unfold State.partErr
  repeat' (first
    | with_reducible assumption | with_reducible apply State.modPart_bounded | dsimp only | split | intro _)

theorem disable_bounded (p : Nat) (s : State) (h : s.bounded) :
    (disable p s).bounded := by
  unfold disable
  repeat' (first
    | with_reducible assumption | with_reducible apply State.partErr_bounded | with_reducible apply ringDestroy_bounded
    | with_reducible apply State.drainSettle_bounded | with_reducible apply State.modPart_bounded
    | with_reducible apply foldl_bounded | dsimp only | split | intro _)

theorem disableForce_bounded (p : Nat) (s : State) (h : s.bounded) :
    (disableForce p s).bounded := by
  unfold disableForce
  repeat' (first
    | with_reducible assumption | with_reducible apply State.partErr_bounded | with_reducible apply destroyForce_bounded
    | with_reducible apply State.drainSettle_bounded | with_reducible apply State.free_bounded
    | with_reducible apply State.modPart_bounded | with_reducible apply foldl_bounded | dsimp only | split | intro _)

theorem State.modSem_bounded (s : State) (p k : Nat) (f : Sem → Sem) (h : s.bounded) :
    (State.modSem s p k f).bounded := by
  unfold State.modSem
  repeat' (first
    | with_reducible assumption | with_reducible apply State.modPart_bounded | dsimp only | split | intro _)

theorem State.semGrant_bounded (s : State) (p k : Nat) (h : s.bounded) :
    (State.semGrant s p k).bounded := by
  unfold State.semGrant
  repeat' (first
    | with_reducible assumption | with_reducible apply State.modSem_bounded | with_reducible apply State.restoreFree_bounded
    | with_reducible apply State.modCmd_bounded | with_reducible apply foldl_bounded | dsimp only | split | intro _)

theorem State.semRelease_bounded (s : State) (p x : Nat) (h : s.bounded) :
    (State.semRelease s p x).bounded := by
  unfold State.semRelease
  repeat' (first
    | with_reducible assumption | with_reducible apply State.semGrant_bounded | with_reducible apply State.modSem_bounded
    | with_reducible apply State.event_bounded | with_reducible apply foldl_bounded | dsimp only | split | intro _)

theorem State.tearDown_bounded (s : State) (x : Nat) (h : s.bounded) :
    (State.tearDown s x).bounded := by
  unfold State.tearDown
  repeat' (first
    | with_reducible assumption | with_reducible apply State.semRelease_bounded | with_reducible apply State.abortAll_bounded
    | with_reducible apply State.ringError_bounded | with_reducible apply State.complete_bounded
    | with_reducible apply State.settle_bounded | with_reducible apply State.modCtx_bounded | with_reducible apply foldl_bounded
    | dsimp only | split | intro _)

theorem State.partReset_bounded (s : State) (p : Nat) (h : s.bounded) :
    (State.partReset s p).bounded := by
  unfold State.partReset
  repeat' (first
    | with_reducible assumption | with_reducible apply State.abortAll_bounded | with_reducible apply State.candRefresh_bounded
    | with_reducible apply State.drainSettle_bounded | with_reducible apply State.leavePasses_bounded
    | with_reducible apply State.modTile_bounded | with_reducible apply State.modCtx_bounded
    | with_reducible apply State.modPart_bounded | with_reducible apply foldl_bounded | dsimp only | split | intro _)

theorem State.contextFault_bounded (s : State) (x row : Nat) (h : s.bounded) :
    (State.contextFault s x row).bounded := by
  unfold State.contextFault
  repeat' (first
    | with_reducible assumption | with_reducible apply State.partReset_bounded | with_reducible apply State.tearDown_bounded
    | with_reducible apply State.event_bounded | dsimp only | split | intro _)

theorem partitionReset_bounded (p : Nat) (s : State) (h : s.bounded) :
    (partitionReset p s).bounded := by
  unfold partitionReset
  repeat' (first
    | with_reducible assumption | with_reducible apply State.partReset_bounded | with_reducible apply State.partErr_bounded
    | dsimp only | split | intro _)

theorem partitionResetDone_bounded (p : Nat) (s : State) (h : s.bounded) :
    (partitionResetDone p s).bounded := by
  unfold partitionResetDone
  repeat' (first
    | with_reducible assumption | with_reducible apply State.candRefresh_bounded | with_reducible apply State.modPart_bounded
    | dsimp only | split | intro _)

theorem State.wdogFire_bounded (s : State) (x cause : Nat) (h : s.bounded) :
    (State.wdogFire s x cause).bounded := by
  unfold State.wdogFire
  repeat' (first
    | with_reducible assumption | with_reducible apply State.contextFault_bounded | with_reducible apply State.event_bounded
    | dsimp only | split | intro _)

theorem watchdog_bounded (id : Nat) (s : State) (h : s.bounded) :
    (watchdog id s).bounded := by
  unfold watchdog
  repeat' (first
    | with_reducible assumption | with_reducible apply State.wdogFire_bounded | dsimp only | split | intro _)

theorem semWait_bounded (t k n : Nat) (s : State) (h : s.bounded) :
    (semWait t k n s).bounded := by
  unfold semWait
  repeat' (first
    | with_reducible assumption | with_reducible apply State.wdogFire_bounded | with_reducible apply State.semGrant_bounded
    | with_reducible apply State.modSem_bounded | with_reducible apply State.modTile_bounded | dsimp only | split | intro _)

theorem semSignal_bounded (t k n : Nat) (s : State) (h : s.bounded) :
    (semSignal t k n s).bounded := by
  unfold semSignal
  repeat' (first
    | with_reducible assumption | with_reducible apply State.contextFault_bounded | with_reducible apply State.semGrant_bounded
    | with_reducible apply State.modSem_bounded | with_reducible apply State.modTile_bounded | dsimp only | split | intro _)

theorem semSet_bounded (t k v : Nat) (s : State) (h : s.bounded) :
    (semSet t k v s).bounded := by
  unfold semSet
  repeat' (first
    | with_reducible assumption | with_reducible apply State.semGrant_bounded | with_reducible apply State.modSem_bounded
    | with_reducible apply State.modTile_bounded | dsimp only | split | intro _)

theorem State.reserveAny_bounded (s : State) (n : Nat) (h : s.bounded) : (s.reserveAny n).2.bounded := h

theorem partitionEnable_bounded (p : Nat) (s : State) (h : s.bounded) :
    (partitionEnable p s).bounded := by
  unfold partitionEnable
  repeat' (first
    | with_reducible assumption | with_reducible apply State.reserveAny_bounded | with_reducible apply State.partErr_bounded
    | with_reducible apply State.seedPhases_bounded | with_reducible apply State.modPart_bounded
    | with_reducible apply place_bounded | dsimp only | split | intro _)

end Sys2Proof.Machine
end

