-- ==== Sys2Proof/Laws/BoundsMutation.lean ====
section
/-!
SUPPORT. Every function of Machine/Mutation.lean keeps the bounds of Safety.lean.
-/

namespace Sys2Proof.Machine

theorem State.reclaim_bounded (s : State) (h : s.bounded) :
    (State.reclaim s).bounded := by
  unfold State.reclaim
  repeat' (first
    | with_reducible assumption | dsimp only | split | intro _)

theorem State.jrnUse_bounded (s : State) (h : s.bounded) :
    (State.jrnUse s).bounded := by
  unfold State.jrnUse
  repeat' (first
    | with_reducible assumption | dsimp only | split | intro _)

theorem State.lockWait_bounded (s : State) (c : Cmd) (ls : List Lock) (h : s.bounded) :
    (State.lockWait s c ls).bounded := by
  unfold State.lockWait
  repeat' (first
    | with_reducible assumption | with_reducible apply State.modCmd_bounded | dsimp only | split | intro _)

/-- Locks taken where the table has room for them keep the bounds (R285). -/
theorem State.lock_room_bounded (s : State) (ls : List Lock) (room : s.jrn.locks.length + ls.length ≤ 256) (h : s.bounded) :
    (s.lock ls).bounded := by
  obtain ⟨a1, a2, a3, a4, a5, a6, a7⟩ := h
  refine ⟨a1, a2, a3, a4, a5, a6, ?_⟩
  simp only [State.lock, List.length_append]
  exact room

theorem State.lockFree_room {s : State} {c : Cmd} {ls : List Lock} (e : s.lockFree c ls = true) :
    s.jrn.locks.length + ls.length ≤ 256 := by
  simp only [State.lockFree, State.lockEntries, Bool.and_eq_true, decide_eq_true_eq] at e
  exact e.2.1

theorem State.lock_bounded (s : State) (c : Cmd) (ls : List Lock) (e : s.lockFree c ls = true) (h : s.bounded) : (s.lock ls).bounded :=
  State.lock_room_bounded s ls (State.lockFree_room e) h

theorem State.unlock_bounded (s : State) (n : Nat) (h : s.bounded) : (s.unlock n).bounded :=
  State.bounded_locks h (List.length_filter_le _ _) rfl rfl rfl rfl rfl rfl

theorem State.modMut_bounded (s : State) (n : Nat) (f : MutWork → MutWork) (h : s.bounded) :
    (State.modMut s n f).bounded := by
  unfold State.modMut
  repeat' (first
    | with_reducible assumption | with_reducible apply State.modCmd_bounded | dsimp only | split | intro _)

theorem State.assignJseq_bounded (s : State) (c : Cmd) (m : MutWork) (h : s.bounded) :
    (State.assignJseq s c m).bounded := by
  unfold State.assignJseq
  repeat' (first
    | with_reducible assumption | with_reducible apply State.modMut_bounded | with_reducible apply State.jrnUse_bounded
    | with_reducible apply State.modCmd_bounded | with_reducible apply place_bounded | dsimp only | split | intro _)

theorem State.mutLock_bounded (s : State) (c : Cmd) (m : MutWork) (h : s.bounded) : (s.mutLock c m).bounded := by
  unfold State.mutLock
  dsimp only
  split
  · exact State.assignJseq_bounded _ _ _ h
  · split
    · exact State.modMut_bounded _ _ _ h
    · split
      · exact State.modMut_bounded _ _ _ (State.lockWait_bounded _ _ _ h)
      · rename_i w
        simp only [Bool.not_eq_true', Bool.not_eq_false] at w
        have h1 := fun g => State.modCmd_bounded _ c.seq g (State.lock_bounded s c _ w h)
        repeat' (first
          | with_reducible assumption
          | with_reducible apply h1
          | with_reducible apply State.assignJseq_bounded
          | with_reducible apply State.modMut_bounded
          | with_reducible apply State.complete_bounded
          | with_reducible apply State.unlock_bounded
          | with_reducible apply State.meetRead_bounded
          | split)

theorem State.mutAdmit_bounded (s : State) (c : Cmd) (h : s.bounded) :
    (State.mutAdmit s c).bounded := by
  unfold State.mutAdmit
  repeat' (first
    | with_reducible assumption | with_reducible apply State.mutLock_bounded | with_reducible apply State.modMut_bounded
    | with_reducible apply State.unlock_bounded | with_reducible apply State.bufMet_bounded
    | with_reducible apply State.start_bounded | with_reducible apply State.complete_bounded
    | with_reducible apply State.free_bounded | with_reducible apply State.modCmd_bounded | dsimp only | split | intro _)

theorem mutate_bounded (op n : Nat) (s : State) (h : s.bounded) :
    (mutate op n s).bounded := by
  unfold mutate
  repeat' (first
    | with_reducible assumption | with_reducible apply State.mutAdmit_bounded | dsimp only | split | intro _)

theorem rangeLockGrant_bounded (n : Nat) (s : State) (h : s.bounded) :
    (rangeLockGrant n s).bounded := by
  unfold rangeLockGrant
  repeat' (first
    | with_reducible assumption | with_reducible apply State.mutAdmit_bounded | dsimp only | split | intro _)

theorem State.admitAll_bounded (s : State) (p : Cmd → Bool) (h : s.bounded) :
    (State.admitAll s p).bounded := by
  unfold State.admitAll
  repeat' (first
    | with_reducible assumption | with_reducible apply rangeLockGrant_bounded | with_reducible apply foldl_bounded | dsimp only
    | split | intro _)

theorem State.frameRequest_bounded (s : State) (f : Frame) (rs : List (Nat × Nat)) (h : s.bounded) : (s.frameRequest f rs).2.bounded :=
  State.bwRequest_bounded _ _ _ _ h

theorem frameEnterBuffer_bounded (s : State) (h : s.bounded) :
    (frameEnterBuffer s).bounded := by
  unfold frameEnterBuffer
  repeat' (first
    | with_reducible assumption | with_reducible apply State.frameRequest_bounded | with_reducible apply State.jrnUse_bounded
    | with_reducible apply place_bounded | dsimp only | split | intro _)

theorem framePersisted_bounded (s : State) (h : s.bounded) :
    (framePersisted s).bounded := by
  unfold framePersisted
  repeat' (first
    | with_reducible assumption | with_reducible apply State.reclaim_bounded | dsimp only | split | intro _)

theorem nandProgramDone_bounded (s : State) (h : s.bounded) :
    (nandProgramDone s).bounded := by
  unfold nandProgramDone
  repeat' (first
    | with_reducible assumption | with_reducible apply State.jrnUse_bounded | with_reducible apply State.life_bounded
    | with_reducible apply place_bounded | dsimp only | split | intro _)

theorem journalWriteFail_bounded (s : State) (h : s.bounded) :
    (journalWriteFail s).bounded := by
  unfold journalWriteFail
  repeat' (first
    | with_reducible assumption | with_reducible apply State.unlock_bounded | with_reducible apply State.complete_bounded
    | with_reducible apply State.event_bounded | with_reducible apply foldl_bounded | dsimp only | split | intro _)

theorem State.driftAdd_bounded (s : State) (o elems hits : Nat) (h : s.bounded) :
    (State.driftAdd s o elems hits).bounded := by
  unfold State.driftAdd
  repeat' (first
    | with_reducible assumption | with_reducible apply State.event_bounded | with_reducible apply State.modColl_bounded | dsimp only
    | split | intro _)

theorem State.wcbFresh_bounded (s : State) (d : CollData) (f : Fresh) (h : s.bounded) :
    (State.wcbFresh s d f).bounded := by
  unfold State.wcbFresh
  repeat' (first
    | with_reducible assumption | with_reducible apply State.wcbWrite_bounded | dsimp only | split | intro _)

theorem State.wcbAttrs_bounded (s : State) (old d : CollData) (h : s.bounded) : (s.wcbAttrs old d).bounded := by
  unfold State.wcbAttrs
  dsimp only
  refine foldl_bounded _ _ _ (fun s x h => State.wcbWrite_bounded _ _ _ h) (foldl_bounded _ _ _ (fun s x h => ?_) h)
  refine foldl_bounded _ _ _ (fun s i h => ?_) h
  split
  · exact State.wcbWrite_bounded _ _ _ (State.wcbWrite_bounded _ _ _ h)
  · exact State.wcbWrite_bounded _ _ _ h

theorem State.applyNow_bounded (s : State) (f : Frame) (h : s.bounded) :
    (State.applyNow s f).bounded := by
  unfold State.applyNow
  repeat' (first
    | with_reducible assumption | with_reducible apply State.wcbFresh_bounded | with_reducible apply State.wcbAttrs_bounded
    | with_reducible apply State.driftAdd_bounded | with_reducible apply State.unlock_bounded | with_reducible apply State.reclaim_bounded
    | with_reducible apply State.fmtCount_bounded | with_reducible apply State.complete_bounded | with_reducible apply foldl_bounded
    | dsimp only | split | intro _)

theorem recordApply_bounded (o : Nat) (s : State) (h : s.bounded) :
    (recordApply o s).bounded := by
  unfold recordApply
  repeat' (first
    | with_reducible assumption | with_reducible apply State.applyNow_bounded | with_reducible apply State.frameRequest_bounded
    | with_reducible apply State.free_bounded | with_reducible apply State.wcbFresh_bounded
    | with_reducible apply State.reclaim_bounded | with_reducible apply State.fmtCount_bounded
    | with_reducible apply State.driftAdd_bounded | with_reducible apply State.complete_bounded
    | with_reducible apply State.unlock_bounded | dsimp only | split | intro _)

theorem State.wcbVersion_bounded (s : State) (d : CollData) (w : Scanned) (h : s.bounded) :
    (State.wcbVersion s d w).bounded := by
  unfold State.wcbVersion
  repeat' (first
    | with_reducible assumption | with_reducible apply State.wcbDrop_bounded | dsimp only | split | intro _)

theorem versionWrite_bounded (o : Nat) (w : Scanned) (s : State) (h : s.bounded) :
    (versionWrite o w s).bounded := by
  unfold versionWrite
  repeat' (first
    | with_reducible assumption | with_reducible apply State.wcbVersion_bounded | with_reducible apply State.modColl_bounded
    | dsimp only | split | intro _)

theorem twinWrite_bounded (v : Word32) (s : State) (h : s.bounded) :
    (twinWrite v s).bounded := by
  unfold twinWrite
  repeat' (first
    | with_reducible assumption | with_reducible apply State.admitAll_bounded | with_reducible apply State.reclaim_bounded
    | dsimp only | split | intro _)

theorem retainLost_bounded (s : State) (h : s.bounded) :
    (retainLost s).bounded := by
  unfold retainLost
  repeat' (first
    | with_reducible assumption | with_reducible apply State.reclaim_bounded | with_reducible apply State.event_bounded | dsimp only
    | split | intro _)

theorem State.latchChain_bounded (s : State) (h : s.bounded) : s.latchChain.1.bounded := h

theorem jrnCollHseqRead_bounded (s : State) (h : s.bounded) :
    (jrnCollHseqRead s).bounded := by
  unfold jrnCollHseqRead
  repeat' (first
    | with_reducible assumption | with_reducible apply State.latchChain_bounded | dsimp only | split | intro _)

theorem State.wakeStore_bounded (s : State) (h : s.bounded) :
    (State.wakeStore s).bounded := by
  unfold State.wakeStore
  repeat' (first
    | with_reducible assumption | dsimp only | split | intro _)

theorem jrnLpEntry_bounded (s : State) (h : s.bounded) :
    (jrnLpEntry s).bounded := by
  unfold jrnLpEntry
  repeat' (first
    | with_reducible assumption | dsimp only | split | intro _)

theorem jrnLpEntryDone_bounded (s : State) (h : s.bounded) :
    (jrnLpEntryDone s).bounded := by
  unfold jrnLpEntryDone
  repeat' (first
    | with_reducible assumption | dsimp only | split | intro _)

theorem jrnLpExitDone_bounded (s : State) (h : s.bounded) :
    (jrnLpExitDone s).bounded := by
  unfold jrnLpExitDone
  repeat' (first
    | with_reducible assumption | with_reducible apply State.admitAll_bounded | dsimp only | split | intro _)

end Sys2Proof.Machine
end

