-- ==== Sys2Proof/Laws/BoundsCollections.lean ====
section
/-!
SUPPORT. Every function of Machine/Collections.lean keeps the bounds of Safety.lean.
-/

namespace Sys2Proof.Machine

theorem State.doneUnits_bounded (s : State) (n epoch : Nat) (h : s.bounded) :
    (State.doneUnits s n epoch).bounded := by
  unfold State.doneUnits
  repeat' (first
    | with_reducible assumption | with_reducible apply State.complete_bounded | dsimp only | split | intro _)

theorem State.refuse_bounded (s : State) (c : Cmd) (st : Nat) (h : s.bounded) :
    (State.refuse s c st).bounded := by
  unfold State.refuse
  repeat' (first
    | with_reducible assumption | with_reducible apply State.unlock_bounded | with_reducible apply State.complete_bounded
    | dsimp only | split | intro _)

theorem State.unitStep_bounded (s : State) (n : Nat) (h : s.bounded) :
    (State.unitStep s n).bounded := by
  unfold State.unitStep
  repeat' (first
    | with_reducible assumption | with_reducible apply State.modCmd_bounded | dsimp only | split | intro _)

theorem State.unitGo_bounded (s : State) (c : Cmd) (rs : List (Nat × Nat)) (h : s.bounded) :
    (State.unitGo s c rs).bounded := by
  unfold State.unitGo
  repeat' (first
    | with_reducible assumption | with_reducible apply State.unitStep_bounded | with_reducible apply State.bwRequest_bounded
    | dsimp only | split | intro _)

theorem State.modJob_bounded (s : State) (n : Nat) (f : Job → Job) (h : s.bounded) :
    (State.modJob s n f).bounded := by
  unfold State.modJob
  repeat' (first
    | with_reducible assumption | with_reducible apply State.modCmd_bounded | dsimp only | split | intro _)

theorem State.commitImage_bounded (s : State) (o : Nat) (i : Image) (h : s.bounded) :
    (State.commitImage s o i).bounded := by
  unfold State.commitImage
  repeat' (first
    | with_reducible assumption | with_reducible apply State.jrnUse_bounded | with_reducible apply State.reclaim_bounded
    | dsimp only | split | intro _)

theorem State.newImage_bounded (s : State) (h : s.bounded) : s.newImage.2.bounded := h

theorem State.recordsMet_bounded (s : State) (dev : Bool) (a stride size n : Nat) (h : s.bounded) :
    (State.recordsMet s dev a stride size n).bounded := by
  unfold State.recordsMet
  repeat' (first
    | with_reducible assumption | with_reducible apply State.bufMet_bounded | with_reducible apply foldl_bounded | dsimp only
    | split | intro _)

theorem State.buildParams_bounded (s : State) (c : CollCfg) (cent cb rs : Option (List Nat)) (xs : List (List Nat)) (h : s.bounded) :
    (s.buildParams c cent cb rs xs).2.bounded := State.fmtCount_bounded _ _ _ h

theorem State.layColl_bounded {s : State} {d d' : CollData} {want : Nat → Option Nat} {slots : List (List Entry)}
    {epoch : Nat → Nat} {u : State} (eq : s.layColl d want slots epoch = some (d', u)) (h : s.bounded) : u.bounded := by
  unfold State.layColl at eq
  dsimp only at eq
  split at eq
  · cases eq
  · rename_i e1
    split at eq
    · cases eq
    · split at eq
      · cases eq
      · rename_i e2
        cases eq
        exact State.layLists_bounded e2 (State.layHome_bounded e1 h)

theorem State.buildStop_bounded (s : State) (o n st : Nat) (k : CollState) (h : s.bounded) : (s.buildStop o n st k).bounded := by
  unfold State.buildStop
  have h2 : (if k = .free then { s with colls := tdel s.colls o } else s.collTo o k : State).bounded := by
    split
    · exact h
    · exact State.collTo_bounded _ _ _ h
  extract_lets t
  change t.bounded at h2
  clear_value t
  split
  · exact State.stop_bounded _ _ _ h2
  · exact h2

theorem State.buildRun_bounded (s : State) (c : Cmd) (rs : List (List Byte)) (h : s.bounded) :
    (State.buildRun s c rs).bounded := by
  unfold State.buildRun
  repeat' (first
    | with_reducible assumption
    | (with_reducible refine State.orDropReplicas_bounded (unless_some (by assumption)) (fun _ _ _ e h => State.layColl_bounded e h) ?_)
    | with_reducible apply State.buildStop_bounded | with_reducible apply State.buildParams_bounded
    | with_reducible apply State.modJob_bounded | with_reducible apply State.bufMet_bounded
    | with_reducible apply State.fmtCount_bounded | with_reducible apply State.free_bounded
    | with_reducible apply State.modCmd_bounded | with_reducible apply State.modColl_bounded | dsimp only | split | intro _
    | (with_reducible refine State.layColl_bounded (by assumption) ?_))

theorem build_bounded (n : Nat) (s : State) (h : s.bounded) :
    (build n s).bounded := by
  unfold build
  repeat' (first
    | with_reducible assumption | with_reducible apply State.buildRun_bounded | with_reducible apply State.recordsMet_bounded
    | with_reducible apply State.refuse_bounded | with_reducible apply State.dropReplicas_bounded
    | with_reducible apply State.bwRequest_bounded | with_reducible apply State.free_bounded | dsimp only | split | intro _)

theorem buildDone_bounded (n : Nat) (s : State) (h : s.bounded) :
    (buildDone n s).bounded := by
  unfold buildDone
  repeat' (first
    | with_reducible assumption | with_reducible apply State.newImage_bounded | with_reducible apply State.commitImage_bounded
    | with_reducible apply State.doneUnits_bounded | with_reducible apply State.wakeStore_bounded
    | with_reducible apply State.bwRequest_bounded | dsimp only | split | intro _)

theorem State.compactRun_bounded {s : State} {k : Coll} {p : CompactPlan} {d : CollData} {u : State}
    (eq : s.compactRun k p = some (d, u)) (h : s.bounded) : u.bounded := by
  unfold State.compactRun at eq
  dsimp only at eq
  split at eq
  · cases eq
  · split at eq
    · cases eq
    · rename_i e1
      cases eq
      have h1 := State.layLists_bounded e1 h
      apply State.fmtCount_bounded
      refine foldl_state _ _ _ ?_ h1
      intro a x ha
      split
      · split
        · rename_i e2
          exact State.layReplica_bounded e2 ha
        · exact ha
      · exact ha

theorem State.allocRun_jrn {s : State} {tk : List Extent} {t n : Nat} {e : Extent} {u : State}
    (eq : s.allocRun tk t n = some (e, u)) {j : Jrn} (h : s.jrn = j) : u.jrn = j := by
  unfold State.allocRun at eq
  dsimp only at eq
  split at eq
  · cases eq; exact h
  · split at eq
    · cases eq
    · cases eq; exact h

theorem State.fit_jrn {s : State} {tk : List Extent} {t : Nat} {ps as' : List Nat} {es : List Extent} {u : State}
    (eq : s.fit tk t ps = some (as', es, u)) {j : Jrn} (h : s.jrn = j) : u.jrn = j := by
  unfold State.fit at eq
  dsimp only at eq
  split at eq
  · rename_i e1
    cases eq
    exact State.allocRun_jrn e1 h
  · split at eq
    · cases eq
    · cases eq; exact h

theorem State.layHome_jrn {s : State} {d d' : CollData} {tk : List Extent} {u : State}
    (eq : s.layHome d = some (d', tk, u)) {j : Jrn} (h : s.jrn = j) : u.jrn = j := by
  unfold State.layHome at eq
  dsimp only at eq
  split at eq
  · cases eq
  · rename_i e1
    have h1 := State.fit_jrn e1 h
    split at eq
    · cases eq
    · rename_i e2
      have h2 := State.fit_jrn e2 h1
      split at eq
      · cases eq
      · rename_i e3
        cases eq
        refine foldl_some (fun g => g.2.2.jrn = j) _ _ _ ?_ ?_ _ e3
        · intro g e; cases e; exact h2
        · intro a x ha g e
          split at e
          · cases e
          · split at e
            · cases e
            · rename_i e4
              cases e
              exact State.fit_jrn e4 (ha _ rfl)

theorem State.layStack_jrn {s : State} {c : CollCfg} {tk : List Extent} {fa : Nat → List Nat} {ps : List ListPlan} {t : Nat}
    {ls : List (Nat × IList)} {tk' : List Extent} {u : State} (eq : s.layStack c tk fa ps t = some (ls, tk', u)) {j : Jrn} (h : s.jrn = j) :
    u.jrn = j := by
  unfold State.layStack at eq
  dsimp only at eq
  split at eq
  · cases eq
  · rename_i e1
    cases eq
    exact State.fit_jrn e1 h

theorem State.layLists_jrn {s : State} {c : CollCfg} {tk : List Extent} {ps : List ListPlan}
    {ls : List (Nat × IList)} {tk' : List Extent} {u : State} (eq : s.layLists c tk ps = some (ls, tk', u)) {j : Jrn} (h : s.jrn = j) :
    u.jrn = j := by
  unfold State.layLists at eq
  dsimp only at eq
  split at eq
  · cases eq
  · rename_i e1
    have h1 := State.fit_jrn e1 h
    refine foldl_some (fun g => g.2.2.jrn = j) _ _ _ ?_ ?_ _ eq
    · intro g e; cases e; exact h1
    · intro a x ha g e
      split at e
      · cases e
      · split at e
        · cases e
        · rename_i e4
          cases e
          exact State.layStack_jrn e4 (ha _ rfl)

theorem State.layReplica_jrn {s : State} {c : CollCfg} {tk : List Extent} {l l' : IList} {tk' : List Extent} {u : State}
    (eq : s.layReplica c tk l = some (l', tk', u)) {j : Jrn} (h : s.jrn = j) : u.jrn = j := by
  unfold State.layReplica at eq
  dsimp only at eq
  split at eq
  · cases eq
  · split at eq
    · cases eq
    · rename_i e1
      cases eq
      exact State.fit_jrn e1 h

theorem State.compactRun_jrn {s : State} {k : Coll} {p : CompactPlan} {d : CollData} {u : State}
    (eq : s.compactRun k p = some (d, u)) {j : Jrn} (h : s.jrn = j) : u.jrn = j := by
  unfold State.compactRun at eq
  dsimp only at eq
  split at eq
  · cases eq
  · split at eq
    · cases eq
    · rename_i e1
      cases eq
      have h1 := State.layLists_jrn e1 h
      rw [State.fmtCount_keeps_jrn]
      refine foldl_jrn _ _ _ ?_ h1
      intro a x ha
      split
      · split
        · rename_i e2
          exact State.layReplica_jrn e2 ha
        · exact ha
      · exact ha

theorem State.orDropReplicas_jrn {α : Type} {s : State} {f : State → Option (α × State)} {x : α} {t : State} {j : Jrn}
    (eq : s.orDropReplicas f = some (x, t)) (hf : ∀ s x t, f s = some (x, t) → s.jrn = j → t.jrn = j) (h : s.jrn = j) :
    t.jrn = j := by
  unfold State.orDropReplicas at eq
  split at eq
  · rename_i e
    cases eq
    exact hf _ _ _ e h
  · exact hf _ _ _ eq h

theorem State.startRewrite_bounded (s : State) (c : Cmd) (ls : List Lock) (total : Nat) (d : CollData) (gone : List Nat) (dr : Drift)
    (sample : List Byte) (room : s.jrn.locks.length + ls.length ≤ 256) (h : s.bounded) :
    (s.startRewrite c ls total d gone dr sample).bounded := by
  unfold State.startRewrite
  exact State.modCmd_bounded _ _ _ (State.modColl_bounded _ _ _ (State.modCmd_bounded _ _ _ (State.lock_room_bounded _ _ room h)))

theorem State.rewriteImage_bounded (s : State) (c : Cmd) (h : s.bounded) : (s.rewriteImage c).2.bounded := by
  unfold State.rewriteImage
  split
  · exact State.bwRequest_bounded _ _ _ _ h
  · exact h

theorem State.rewriteCommit_bounded (s : State) (c : Cmd) (h : s.bounded) :
    (State.rewriteCommit s c).bounded := by
  unfold State.rewriteCommit
  repeat' (first
    | with_reducible assumption | with_reducible apply State.rewriteImage_bounded | with_reducible apply State.newImage_bounded
    | with_reducible apply State.commitImage_bounded | with_reducible apply State.modJob_bounded
    | with_reducible apply State.wakeStore_bounded | with_reducible apply State.modCmd_bounded | dsimp only | split | intro _)

theorem State.rewriteOn_bounded (s : State) (c : Cmd) (h : s.bounded) :
    (State.rewriteOn s c).bounded := by
  unfold State.rewriteOn
  repeat' (first
    | with_reducible assumption | with_reducible apply State.rewriteCommit_bounded | with_reducible apply State.unitGo_bounded
    | dsimp only | split | intro _)

theorem rewriteRoom {s t : State} {c : Cmd} {ls : List Lock} (e : ¬ (!s.lockFree c ls) = true) (h : t.jrn = s.jrn) :
    t.jrn.locks.length + ls.length ≤ 256 := by
  simp only [Bool.not_eq_true', Bool.not_eq_false] at e
  rw [h]
  exact State.lockFree_room e

theorem compact_bounded (n : Nat) (s : State) (h : s.bounded) :
    (compact n s).bounded := by
  unfold compact
  repeat' (first
    | with_reducible assumption
    | (with_reducible refine State.orDropReplicas_bounded (by assumption) (fun _ _ _ e h => State.compactRun_bounded e h) ?_)
    | with_reducible refine State.startRewrite_bounded _ _ _ _ _ _ _ _ (rewriteRoom (by assumption) (State.orDropReplicas_jrn (by assumption) (fun _ _ _ e h => State.compactRun_jrn e h) rfl)) ?_
    | (with_reducible refine State.orDropReplicas_bounded (by assumption) ?_) | with_reducible apply State.rewriteOn_bounded
    | with_reducible apply State.startRewrite_bounded | with_reducible apply State.refuse_bounded
    | with_reducible apply State.lockWait_bounded | with_reducible apply State.meetRead_bounded
    | with_reducible apply State.free_bounded | dsimp only | split | intro _
    | (with_reducible refine State.compactRun_bounded (by assumption) ?_))

theorem State.trainRun_bounded {s : State} {d : CollData} {vs : List Vec} {r : CollData × Nat × Nat} {u : State}
    (eq : s.trainRun d vs = some (r, u)) (h : s.bounded) : u.bounded := by
  unfold State.trainRun at eq
  dsimp only at eq
  split at eq
  · cases eq
  · split at eq
    · cases eq
    · rename_i e1
      cases eq
      exact State.fmtCount_bounded _ _ _ (State.layLists_bounded e1 h)

theorem State.trainRun_jrn {s : State} {d : CollData} {vs : List Vec} {r : CollData × Nat × Nat} {u : State}
    (eq : s.trainRun d vs = some (r, u)) {j : Jrn} (h : s.jrn = j) : u.jrn = j := by
  unfold State.trainRun at eq
  dsimp only at eq
  split at eq
  · cases eq
  · split at eq
    · cases eq
    · rename_i e1
      cases eq
      exact State.layLists_jrn e1 h

theorem train_bounded (n : Nat) (s : State) (h : s.bounded) :
    (train n s).bounded := by
  unfold train
  repeat' (first
    | with_reducible assumption
    | (with_reducible refine State.orDropReplicas_bounded (by assumption) (fun _ _ _ e h => State.trainRun_bounded e h) ?_)
    | with_reducible refine State.startRewrite_bounded _ _ _ _ _ _ _ _ (rewriteRoom (by assumption) (State.orDropReplicas_jrn (by assumption) (fun _ _ _ e h => State.trainRun_jrn e h) (State.fmtCount_keeps_jrn _ _ _))) ?_
    | (with_reducible refine State.orDropReplicas_bounded (by assumption) ?_) | with_reducible apply State.rewriteOn_bounded
    | with_reducible apply State.startRewrite_bounded | with_reducible apply State.recordsMet_bounded
    | with_reducible apply State.refuse_bounded | with_reducible apply State.lockWait_bounded
    | with_reducible apply State.meetRead_bounded | with_reducible apply State.fmtCount_bounded
    | with_reducible apply State.free_bounded | dsimp only | split | intro _
    | (with_reducible refine State.trainRun_bounded (by assumption) ?_))

theorem State.trainLate_bounded {s : State} {n : Nat} {d d' : CollData} {u : State}
    (eq : s.trainLate n d = some (d', u)) (h : s.bounded) : u.bounded := by
  unfold State.trainLate at eq
  dsimp only at eq
  split at eq
  · cases eq; exact h
  · split at eq
    · cases eq
    · split at eq
      · cases eq
      · rename_i e1
        cases eq
        exact State.fmtCount_bounded _ _ _ (State.layLists_bounded e1 (State.modJob_bounded _ _ _ h))

theorem State.publish_bounded (s : State) (o : Nat) (d : CollData) (ev : List Byte) (dr : Drift) (isTrain : Bool) (h : s.bounded) :
    (State.publish s o d ev dr isTrain).bounded := by
  unfold State.publish
  repeat' (first
    | with_reducible assumption | dsimp only | split | intro _)

theorem putRun_bounded {s u : State} {c : Prop} [Decidable c] {n : Nat} {pub pub' d : CollData}
    (e : (if c then s.orDropReplicas (fun s => s.trainLate n pub) else some (pub', s)) = some (d, u)) (h : s.bounded) : u.bounded := by
  split at e
  · exact State.orDropReplicas_bounded e (fun _ _ _ e h => State.trainLate_bounded e h) h
  · cases e; exact h

theorem compactPublish_bounded (n : Nat) (s : State) (h : s.bounded) :
    (compactPublish n s).bounded := by
  unfold compactPublish
  repeat' (first
    | with_reducible assumption | with_reducible apply State.publish_bounded | with_reducible apply State.rewriteCommit_bounded
    | with_reducible apply State.modJob_bounded | with_reducible apply State.doneUnits_bounded
    | with_reducible apply State.unlock_bounded | with_reducible apply State.modCmd_bounded
    | with_reducible apply State.refuse_bounded | with_reducible apply State.collTo_bounded
    | with_reducible apply State.commitImage_bounded | dsimp only | split | intro _
    | (with_reducible refine putRun_bounded (by assumption) ?_))

theorem State.filterRoom_bounded {s : State} {d : CollData} {r : List (Nat × Extent)} {u : State}
    (eq : s.filterRoom d = some (r, u)) (h : s.bounded) : u.bounded := by
  unfold State.filterRoom at eq
  split at eq
  · cases eq; exact h
  · split at eq
    · rename_i e1
      cases eq
      exact State.allocRun_bounded e1 h
    · cases eq

theorem State.putFilters_bounded (s : State) (c : Cmd) (fs : List (Nat × List Byte)) (runs : List (Nat × Extent)) (h : s.bounded) :
    (State.putFilters s c fs runs).bounded := by
  unfold State.putFilters
  repeat' (first
    | with_reducible assumption | with_reducible apply State.jrnUse_bounded | with_reducible apply State.complete_bounded
    | with_reducible apply State.modColl_bounded | dsimp only | split | intro _)

theorem filterDefine_bounded (n : Nat) (s : State) (h : s.bounded) :
    (filterDefine n s).bounded := by
  unfold filterDefine
  repeat' (first
    | with_reducible assumption
    | (with_reducible refine State.orDropReplicas_bounded (by assumption) (fun _ _ _ e h => State.filterRoom_bounded e h) ?_)
    | (with_reducible refine State.orDropReplicas_bounded (by assumption) ?_) | with_reducible apply State.putFilters_bounded
    | with_reducible apply State.refuse_bounded | with_reducible apply State.wakeStore_bounded
    | with_reducible apply State.bwRequest_bounded | with_reducible apply State.meetRead_bounded
    | with_reducible apply State.free_bounded | with_reducible apply State.jrnUse_bounded
    | with_reducible apply State.complete_bounded | with_reducible apply State.modColl_bounded | dsimp only | split | intro _
    | (with_reducible refine State.filterRoom_bounded (by assumption) ?_))

theorem State.commitSnap_bounded {s : State} {x : Snapshot} {u : State} (eq : s.commitSnap x = some u) (h : s.bounded) : u.bounded := by
  unfold State.commitSnap at eq
  dsimp only at eq
  split at eq
  · cases eq
  · have e := unless_some eq
    cases e
    exact h

theorem snapshot_bounded (n : Nat) (s : State) (h : s.bounded) :
    (snapshot n s).bounded := by
  unfold snapshot
  repeat' (first
    | with_reducible assumption | with_reducible apply State.refuse_bounded | with_reducible apply State.doneUnits_bounded
    | with_reducible apply State.start_bounded | with_reducible apply State.free_bounded | with_reducible apply State.modCmd_bounded
    | dsimp only | split | intro _ | (with_reducible refine State.commitSnap_bounded (by assumption) ?_))

theorem snapDelete_bounded (v : Word32) (s : State) (h : s.bounded) :
    (snapDelete v s).bounded := by
  unfold snapDelete
  repeat' (first
    | with_reducible assumption | with_reducible apply State.reclaim_bounded | with_reducible apply State.mapCmds_bounded
    | dsimp only | split | intro _)

theorem State.layImage_bounded {s : State} {d d' : CollData} {u : State} (eq : s.layImage d = some (d', u)) (h : s.bounded) :
    u.bounded := by
  unfold State.layImage at eq
  dsimp only at eq
  split at eq
  · cases eq
  · rename_i e1
    have h1 := State.layColl_bounded e1 h
    split at eq
    · cases eq; exact h1
    · split at eq
      · rename_i e2
        cases eq
        exact State.allocRun_bounded e2 h1
      · cases eq

theorem restore_bounded (n : Nat) (s : State) (h : s.bounded) :
    (restore n s).bounded := by
  unfold restore
  repeat' (first
    | with_reducible assumption
    | (with_reducible refine State.orDropReplicas_bounded (by assumption) (fun _ _ _ e h => State.layImage_bounded e h) ?_)
    | (with_reducible refine State.orDropReplicas_bounded (by assumption) ?_) | with_reducible apply State.unitGo_bounded
    | with_reducible apply State.refuse_bounded | with_reducible apply State.free_bounded
    | with_reducible apply State.modCmd_bounded | dsimp only | split | intro _
    | (with_reducible refine State.layImage_bounded (by assumption) ?_))

theorem restoreDone_bounded (n : Nat) (s : State) (h : s.bounded) :
    (restoreDone n s).bounded := by
  unfold restoreDone
  repeat' (first
    | with_reducible assumption | with_reducible apply State.commitImage_bounded | with_reducible apply State.doneUnits_bounded
    | with_reducible apply State.wakeStore_bounded | with_reducible apply State.abortCmd_bounded
    | with_reducible apply State.bwRequest_bounded | with_reducible apply place_bounded | with_reducible apply State.jrnUse_bounded
    | dsimp only | split | intro _)

theorem State.maintRequest_bounded (s : State) (h : s.bounded) : s.maintRequest.2.bounded := by
  unfold State.maintRequest
  dsimp only
  split
  · exact State.bwRequest_bounded _ _ _ _ h
  · split
    · exact h
    · exact State.bwRequest_bounded _ _ _ _ h

theorem State.maintUnit_bounded (s : State) (h : s.bounded) :
    (State.maintUnit s).bounded := by
  unfold State.maintUnit
  repeat' (first
    | with_reducible assumption | with_reducible apply State.maintRequest_bounded | with_reducible apply State.unitStep_bounded
    | with_reducible apply State.jrnUse_bounded | dsimp only | split | intro _)

theorem State.maintStart_bounded (s : State) (c : Cmd) (op : Nat) (h : s.bounded) :
    (State.maintStart s c op).bounded := by
  unfold State.maintStart
  repeat' (first
    | with_reducible assumption | with_reducible apply State.maintUnit_bounded | with_reducible apply State.refuse_bounded
    | with_reducible apply State.free_bounded | with_reducible apply State.modCmd_bounded
    | with_reducible apply State.modColl_bounded | dsimp only | split | intro _)

theorem sanitise_bounded (n : Nat) (s : State) (h : s.bounded) :
    (sanitise n s).bounded := by
  unfold sanitise
  repeat' (first
    | with_reducible assumption | with_reducible apply State.maintStart_bounded | dsimp only | split | intro _)

theorem format_bounded (n : Nat) (s : State) (h : s.bounded) :
    (format n s).bounded := by
  unfold format
  repeat' (first
    | with_reducible assumption | with_reducible apply State.maintStart_bounded | dsimp only | split | intro _)

theorem State.freeColl_bounded (s : State) (o : Nat) (h : s.bounded) :
    (State.freeColl s o).bounded := by
  unfold State.freeColl
  repeat' (first
    | with_reducible assumption | dsimp only | split | intro _)

theorem State.nandErased_bounded (s : State) (a b : Nat) (h : s.bounded) :
    (State.nandErased s a b).bounded := by
  unfold State.nandErased
  repeat' (first
    | with_reducible assumption | with_reducible apply State.life_bounded | dsimp only | split | intro _)

theorem State.maintEffect_bounded (s : State) (h : s.bounded) : s.maintEffect.bounded := by
  unfold State.maintEffect
  dsimp only
  split
  · split
    · with_reducible exact h
    · exact State.nandErased_bounded _ _ _ (State.bounded_dev (s := s)
        (t := { s with colls := [], jrn := { s.jrn with h := 0, next := 1, readOnly := false, frames := [], images := [], snaps := [], recov := [] },
                       mem := { s.mem with dev := [], bad := [], told := [] } }) h rfl rfl rfl rfl rfl rfl rfl)
  · have h1 := State.freeColl_bounded s s.jrn.maint.target h
    split
    · exact h1
    · exact State.nandErased_bounded _ _ _ (State.bounded_dev (State.free_bounded _ (State.free_bounded _ h1))
        (filter_wf _ _ h1.2.1) rfl rfl rfl rfl rfl rfl)

theorem maintDone_bounded (s : State) (h : s.bounded) :
    (maintDone s).bounded := by
  unfold maintDone
  repeat' (first
    | with_reducible assumption | with_reducible apply State.maintEffect_bounded | with_reducible apply State.doneUnits_bounded
    | with_reducible apply State.jrnUse_bounded | with_reducible apply State.event_bounded | dsimp only | split | intro _)

theorem maintResume_bounded (s : State) (h : s.bounded) :
    (maintResume s).bounded := by
  unfold maintResume
  repeat' (first
    | with_reducible assumption | with_reducible apply State.maintUnit_bounded | with_reducible apply State.modColl_bounded
    | dsimp only | split | intro _)

theorem collectionRecovery_bounded (s : State) (h : s.bounded) : (collectionRecovery s).bounded := by
  unfold collectionRecovery
  split
  · exact h
  · split
    · exact h
    · split
      · exact State.wakeStore_bounded _ h
      · dsimp only
        split
        · exact State.bwRequest_bounded _ _ _ _ h
        · split
          · exact h
          · rename_i e
            have h1 := State.orDropReplicas_bounded e (fun _ _ _ e h => State.layImage_bounded e h) (State.bwRequest_bounded _ _ _ _ h)
            exact State.event_bounded _ _ _ _ _ _ _ (State.jrnUse_bounded _ h1)

theorem State.finishPublish_bounded (s : State) (o : Nat) (h : s.bounded) :
    (State.finishPublish s o).bounded := by
  unfold State.finishPublish
  repeat' (first
    | with_reducible assumption | with_reducible apply State.publish_bounded | with_reducible apply foldl_bounded | dsimp only
    | split | intro _ | (with_reducible refine putRun_bounded (by assumption) ?_))

end Sys2Proof.Machine
end

