-- ==== Sys2Proof/Laws/BoundsModels.lean ====
section
/-!
SUPPORT. Every function of Machine/Models.lean keeps the bounds of Safety.lean.
-/

namespace Sys2Proof.Machine

theorem State.enterFallback_bounded (s : State) (slot t : Nat) (h : s.bounded) :
    (State.enterFallback s slot t).bounded := by
  unfold State.enterFallback
  repeat' (first
    | with_reducible assumption | with_reducible apply State.event_bounded | dsimp only | split | intro _)

theorem State.tablesFail_bounded (s : State) (slots : List Nat) (ts : List (Nat × Nat)) (h : s.bounded) :
    (State.tablesFail s slots ts).bounded := by
  unfold State.tablesFail
  repeat' (first
    | with_reducible assumption | with_reducible apply State.enterFallback_bounded | with_reducible apply foldl_bounded | dsimp only
    | split | intro _)

theorem State.reserveAny_eq_bounded {s : State} {n : Nat} {r : List Extent × State} (e : s.reserveAny n = r) (h : s.bounded) :
    r.2.bounded := e ▸ State.reserveAny_bounded s n h

theorem State.modelSpace_bounded {s : State} {far : Bool} {w pool : Nat} {es : List Extent} {u : State}
    (eq : s.modelSpace far w pool = some (es, u)) (h : s.bounded) : u.bounded := by
  unfold State.modelSpace at eq
  extract_lets p n stk r fs at eq
  split at eq
  · split at eq
    · cases eq
    · have h1 := State.reserveAny_bounded s p h
      simp only [Option.some.injEq, Prod.mk.injEq] at eq
      obtain ⟨_, rfl⟩ := eq
      exact h1
  · split at eq
    · cases eq
    · have h1 := State.reserveAny_bounded s (p + n) h
      simp only [Option.some.injEq] at eq
      exact State.reserveAny_eq_bounded eq h

theorem State.slotFree_bounded (s : State) (o : Nat) (h : s.bounded) :
    (State.slotFree s o).bounded := by
  unfold State.slotFree
  repeat' (first
    | with_reducible assumption | dsimp only | split | intro _)

theorem State.copyGo_bounded (s : State) (n p : Nat) (far : Bool) (h : s.bounded) : (s.copyGo n p far).2.bounded :=
  State.bwRequest_bounded _ _ _ _ h

theorem modelLoad_bounded (n : Nat) (s : State) (h : s.bounded) :
    (modelLoad n s).bounded := by
  unfold modelLoad
  repeat' (first
    | with_reducible assumption
    | (with_reducible refine State.orDropReplicas_bounded (by assumption) (fun _ _ _ e h => State.modelSpace_bounded e h) ?_)
    | (have h9 := State.orDropReplicas_bounded (by assumption) (fun _ _ _ e h => State.modelSpace_bounded e h) (State.slotFree_bounded _ _ h); with_reducible exact h9)
    | (with_reducible refine State.orDropReplicas_bounded (by assumption) ?_) | with_reducible apply State.copyGo_bounded
    | with_reducible apply State.slotFree_bounded | with_reducible apply State.unitStep_bounded
    | with_reducible apply State.refuse_bounded | with_reducible apply State.bufMet_bounded
    | with_reducible apply State.free_bounded | with_reducible apply State.modCmd_bounded | dsimp only | split | intro _
    | (with_reducible refine State.modelSpace_bounded (by assumption) ?_))

theorem State.putShadow_bounded (s : State) (slot t : Nat) (bs : List Byte) (h : s.bounded) :
    (State.putShadow s slot t bs).bounded := by
  unfold State.putShadow
  repeat' (first
    | with_reducible assumption | dsimp only | split | intro _)

theorem State.loadTensor_bounded (s : State) (slot : Nat) (img : List Byte) (t : Nat) (e : List Byte) (h : s.bounded) :
    (s.loadTensor slot img t e).bounded := by
  unfold State.loadTensor
  dsimp only
  split
  · exact h
  · split
    · exact State.fmtCount_bounded _ _ _ h
    · exact State.enterFallback_bounded _ _ _ (State.fmtCount_bounded _ _ _ (State.free_bounded _ (State.free_bounded _ h)))

theorem modelLoadDone_bounded (n : Nat) (s : State) (h : s.bounded) :
    (modelLoadDone n s).bounded := by
  unfold modelLoadDone
  repeat' (first
    | with_reducible assumption | with_reducible apply State.loadTensor_bounded | with_reducible apply State.doneUnits_bounded
    | with_reducible apply State.modCmd_bounded | with_reducible apply foldl_bounded | dsimp only | split | intro _)

theorem modelUnload_bounded (n : Nat) (s : State) (h : s.bounded) :
    (modelUnload n s).bounded := by
  unfold modelUnload
  repeat' (first
    | with_reducible assumption | with_reducible apply State.slotFree_bounded | with_reducible apply State.refuse_bounded
    | with_reducible apply State.complete_bounded | dsimp only | split | intro _)

theorem State.evictCopy_bounded (s : State) (w : WorkCopy) (h : s.bounded) :
    (State.evictCopy s w).bounded := by
  unfold State.evictCopy
  repeat' (first
    | with_reducible assumption | dsimp only | split | intro _)

theorem State.copyRoom_bounded {p n k : Nat} {s u : State} (eq : State.copyRoom p n k s = some u) (h : s.bounded) : u.bounded := by
  induction k generalizing s with
  | zero => cases eq
  | succ k ih =>
    simp only [State.copyRoom] at eq
    split at eq
    · cases eq; exact h
    · split at eq
      · cases eq
      · exact ih eq (State.evictCopy_bounded _ _ h)

theorem State.pinGroup_bounded (s : State) (p g o : Nat) (h : s.bounded) :
    (State.pinGroup s p g o).bounded := by
  unfold State.pinGroup
  repeat' (first
    | with_reducible assumption | with_reducible apply State.modTile_bounded | with_reducible apply foldl_bounded | dsimp only
    | split | intro _)

theorem State.repin_bounded (s : State) (p o : Nat) (h : s.bounded) :
    (State.repin s p o).bounded := by
  unfold State.repin
  repeat' (first
    | with_reducible assumption | with_reducible apply State.pinGroup_bounded | with_reducible apply foldl_bounded | dsimp only
    | split | intro _)

theorem modelActivate_bounded (p g o : Nat) (s : State) (h : s.bounded) :
    (modelActivate p g o s).bounded := by
  unfold modelActivate
  repeat' (first
    | with_reducible assumption | (have h9 := State.copyRoom_bounded (by assumption) h; with_reducible exact h9)
    | with_reducible apply State.pinGroup_bounded | with_reducible apply State.bwRequest_bounded | dsimp only | split | intro _
    | (with_reducible refine State.copyRoom_bounded (by assumption) ?_))

theorem State.stampCopy_bounded (s : State) (p o : Nat) (h : s.bounded) :
    (State.stampCopy s p o).bounded := by
  unfold State.stampCopy
  repeat' (first
    | with_reducible assumption | dsimp only | split | intro _)

theorem State.writeAll_bounded {s u : State} {dev : Bool} {ws : List (Nat × List Byte)} (eq : s.writeAll dev ws = some u)
    (h : s.bounded) : u.bounded := by
  induction ws generalizing s with
  | nil => cases eq; exact h
  | cons w t ih =>
    simp only [State.writeAll] at eq
    split at eq
    · cases eq
    · rename_i e
      exact ih eq (State.bufWrite_bounded e h)

theorem State.batchStep_bounded (s : State) (c : Cmd) (meet : Sys2Proof.ModelMeet) (ts : List (Join × List Nat × List Nat)) (h : s.bounded) :
    (s.batchStep c meet ts).bounded := by
  unfold State.batchStep
  have h1 := fun f => State.modCmd_bounded _ c.seq f (State.tablesFail_bounded _ [dObject c.desc] meet.tables
    (State.repin_bounded _ c.part (dObject c.desc) (State.start_bounded s c.seq h)))
  dsimp only
  split
  · exact State.refuse_bounded _ _ _ (h1 _)
  · split
    · exact State.refuse_bounded _ _ _ (h1 _)
    · rename_i e
      have h2 := State.writeAll_bounded e (h1 _)
      exact State.complete_bounded _ _ _ _ _ _ _ (State.stampCopy_bounded _ _ _
        (foldl_bounded _ _ _ (fun _ _ h => State.event_bounded _ _ _ _ _ _ _ h) h2))

theorem modelStep_bounded (n : Nat) (meet : Sys2Proof.ModelMeet) (s : State) (h : s.bounded) :
    (modelStep n meet s).bounded := by
  unfold modelStep
  repeat' (first
    | with_reducible assumption | with_reducible apply State.batchStep_bounded | with_reducible apply State.refuse_bounded
    | with_reducible apply State.internalStop_bounded | with_reducible apply State.bwRequest_bounded
    | with_reducible apply State.bufMet_bounded | with_reducible apply foldl_bounded | dsimp only | split | intro _)

theorem snapshotSession_bounded (n : Nat) (s : State) (h : s.bounded) :
    (snapshotSession n s).bounded := by
  unfold snapshotSession
  repeat' (first
    | with_reducible assumption | with_reducible apply State.refuse_bounded | with_reducible apply State.bwRequest_bounded
    | with_reducible apply State.complete_bounded | dsimp only | split | intro _
    | (with_reducible refine State.commitSnap_bounded (by assumption) ?_))

theorem restoreSession_bounded (n : Nat) (s : State) (h : s.bounded) :
    (restoreSession n s).bounded := by
  unfold restoreSession
  repeat' (first
    | with_reducible assumption | with_reducible apply State.refuse_bounded | with_reducible apply State.bwRequest_bounded
    | with_reducible apply State.complete_bounded | dsimp only | split | intro _)

end Sys2Proof.Machine
end

