-- ==== Sys2Proof/Laws/BoundsUnits.lean ====
section
/-!
SUPPORT. Every function of Machine/Units.lean keeps the bounds of Safety.lean.
-/

namespace Sys2Proof.Machine

theorem State.modTest_bounded (s : State) (n : Nat) (f : TestUnit → TestUnit) (h : s.bounded) :
    (State.modTest s n f).bounded := by
  unfold State.modTest
  repeat' (first
    | with_reducible assumption | dsimp only | split | intro _)

theorem State.setSlot_bounded (s : State) (st k v : Nat) (h : s.bounded) :
    (State.setSlot s st k v).bounded := by
  unfold State.setSlot
  repeat' (first
    | with_reducible assumption | dsimp only | split | intro _)

theorem State.replaceTile_bounded (s : State) (bad spare : Nat) (h : s.bounded) :
    (State.replaceTile s bad spare).bounded := by
  unfold State.replaceTile
  repeat' (first
    | with_reducible assumption | with_reducible apply State.applyPlace_bounded | with_reducible apply State.event_bounded
    | with_reducible apply foldl_bounded | dsimp only | split | intro _)

theorem State.recordFailure_bounded (s : State) (n cause : Nat) (h : s.bounded) :
    (State.recordFailure s n cause).bounded := by
  unfold State.recordFailure
  repeat' (first
    | with_reducible assumption | with_reducible apply State.modTest_bounded | with_reducible apply State.life_bounded
    | with_reducible apply State.event_bounded | dsimp only | split | intro _)

theorem State.tileFails_bounded (s : State) (n : Nat) (spared : Bool) (h : s.bounded) :
    (State.tileFails s n spared).bounded := by
  unfold State.tileFails
  repeat' (first
    | with_reducible assumption | with_reducible apply State.replaceTile_bounded | with_reducible apply State.modTest_bounded
    | with_reducible apply State.abortAll_bounded | with_reducible apply State.event_bounded
    | with_reducible apply State.modTile_bounded | with_reducible apply State.boostClip_bounded | dsimp only | split | intro _)

theorem State.engineFails_bounded (s : State) (n : Nat) (h : s.bounded) :
    (State.engineFails s n).bounded := by
  unfold State.engineFails
  repeat' (first
    | with_reducible assumption | with_reducible apply State.setSlot_bounded | with_reducible apply State.modTest_bounded
    | with_reducible apply State.event_bounded | dsimp only | split | intro _)

theorem State.unitFail_bounded (s : State) (n cause : Nat) (h : s.bounded) :
    (State.unitFail s n cause).bounded := by
  unfold State.unitFail
  repeat' (first
    | with_reducible assumption | with_reducible apply State.engineFails_bounded | with_reducible apply State.tileFails_bounded
    | with_reducible apply State.recordFailure_bounded | dsimp only | split | intro _)

theorem State.mapProbes_bounded (s : State) (p : Cmd → Bool) (f : Probe → Probe) (h : s.bounded) :
    (State.mapProbes s p f).bounded := by
  unfold State.mapProbes
  repeat' (first
    | with_reducible assumption | with_reducible apply State.mapCmds_bounded | dsimp only | split | intro _)

theorem State.stackLost_bounded (s : State) (p st : Nat) (h : s.bounded) :
    (State.stackLost s p st).bounded := by
  unfold State.stackLost
  repeat' (first
    | with_reducible assumption | with_reducible apply State.mapProbes_bounded | with_reducible apply State.leavePasses_bounded
    | dsimp only | split | intro _)

theorem State.assignEngines_bounded (s : State) (h : s.bounded) :
    (State.assignEngines s).bounded := by
  unfold State.assignEngines
  repeat' (first
    | with_reducible assumption | with_reducible apply foldl_bounded | dsimp only | split | intro _)

theorem State.moveSegments_bounded (s : State) (st e : Nat) (h : s.bounded) :
    (State.moveSegments s st e).bounded := by
  unfold State.moveSegments
  repeat' (first
    | with_reducible assumption | with_reducible apply State.assignEngines_bounded | with_reducible apply State.stackLost_bounded
    | with_reducible apply State.abortAll_bounded | with_reducible apply foldl_bounded | dsimp only | split | intro _)

theorem State.engineLost_bounded (s : State) (n cause : Nat) (h : s.bounded) :
    (State.engineLost s n cause).bounded := by
  unfold State.engineLost
  repeat' (first
    | with_reducible assumption | with_reducible apply State.moveSegments_bounded | with_reducible apply State.stackLost_bounded
    | with_reducible apply State.unitFail_bounded | with_reducible apply foldl_bounded | dsimp only | split | intro _)

theorem State.mergeLost_bounded (s : State) (n cause : Nat) (h : s.bounded) :
    (State.mergeLost s n cause).bounded := by
  unfold State.mergeLost
  repeat' (first
    | with_reducible assumption | with_reducible apply State.unitFail_bounded | with_reducible apply State.abortAll_bounded
    | with_reducible apply State.free_bounded | dsimp only | split | intro _)

theorem State.unitLost_bounded (s : State) (n cause : Nat) (h : s.bounded) :
    (State.unitLost s n cause).bounded := by
  unfold State.unitLost
  repeat' (first
    | with_reducible assumption | with_reducible apply State.mergeLost_bounded | with_reducible apply State.engineLost_bounded
    | with_reducible apply State.unitFail_bounded | dsimp only | split | intro _)

theorem tstRetest_bounded (v : Word32) (s : State) (h : s.bounded) :
    (tstRetest v s).bounded := by
  unfold tstRetest
  repeat' (first
    | with_reducible assumption | with_reducible apply State.modTest_bounded | with_reducible apply State.hifErr_bounded
    | dsimp only | split | intro _)

theorem State.ageStep_bounded (s : State) (n : Nat) (h : s.bounded) :
    (State.ageStep s n).bounded := by
  unfold State.ageStep
  repeat' (first
    | with_reducible assumption | with_reducible apply State.unitLost_bounded | with_reducible apply State.boostClip_bounded | dsimp only
    | split | intro _)

theorem testSlice_bounded (n : Nat) (pass worn : Bool) (s : State) (h : s.bounded) :
    (testSlice n pass worn s).bounded := by
  unfold testSlice
  repeat' (first
    | with_reducible assumption | with_reducible apply State.ageStep_bounded | with_reducible apply State.unitLost_bounded
    | with_reducible apply State.modTest_bounded | dsimp only | split | intro _)

theorem testOverdue_bounded (n : Nat) (s : State) (h : s.bounded) :
    (testOverdue n s).bounded := by
  unfold testOverdue
  repeat' (first
    | with_reducible assumption | with_reducible apply State.modTest_bounded | with_reducible apply State.event_bounded | dsimp only
    | split | intro _)

theorem unitStall_bounded (n : Nat) (s : State) (h : s.bounded) :
    (unitStall n s).bounded := by
  unfold unitStall
  repeat' (first
    | with_reducible assumption | with_reducible apply State.unitLost_bounded | dsimp only | split | intro _)

theorem tileUnitFault_bounded (t : Nat) (s : State) (h : s.bounded) :
    (tileUnitFault t s).bounded := by
  unfold tileUnitFault
  repeat' (first
    | with_reducible assumption | with_reducible apply State.unitFail_bounded | dsimp only | split | intro _)

theorem mergeUnitFault_bounded (c : Nat) (cmds : List Nat) (s : State) (h : s.bounded) :
    (mergeUnitFault c cmds s).bounded := by
  unfold mergeUnitFault
  repeat' (first
    | with_reducible assumption | with_reducible apply State.unitFail_bounded | with_reducible apply State.abortAll_bounded
    | dsimp only | split | intro _)

theorem evtSelect_bounded (v : Word64) (s : State) (h : s.bounded) :
    (evtSelect v s).bounded := by
  unfold evtSelect
  repeat' (first
    | with_reducible assumption | dsimp only | split | intro _)

theorem State.calUpdate_bounded (s : State) (h : s.bounded) :
    (State.calUpdate s).bounded := by
  unfold State.calUpdate
  repeat' (first
    | with_reducible assumption | dsimp only | split | intro _)

theorem prSecTick_bounded (s : State) (h : s.bounded) :
    (prSecTick s).bounded := by
  unfold prSecTick
  repeat' (first
    | with_reducible assumption | with_reducible apply State.life_bounded | dsimp only | split | intro _)

theorem prSecStore_bounded (s : State) (h : s.bounded) :
    (prSecStore s).bounded := by
  unfold prSecStore
  repeat' (first
    | with_reducible assumption | dsimp only | split | intro _)

theorem calendarRecompute_bounded (s : State) (h : s.bounded) :
    (calendarRecompute s).bounded := by
  unfold calendarRecompute
  repeat' (first
    | with_reducible assumption | with_reducible apply State.calUpdate_bounded | dsimp only | split | intro _)

end Sys2Proof.Machine
end

