-- ==== Sys2Proof/Laws/BoundsSearch.lean ====
section
/-!
SUPPORT. Every function of Machine/Search.lean keeps the bounds of Safety.lean.
-/

namespace Sys2Proof.Machine

theorem State.searchDefer_bounded (s : State) (n : Nat) (h : s.bounded) :
    (State.searchDefer s n).bounded := by
  unfold State.searchDefer
  repeat' (first
    | with_reducible assumption | with_reducible apply State.modCmd_bounded | dsimp only | split | intro _)

theorem State.stageRuns_bounded (s : State) (n : Nat) (slots : List Nat) (h : s.bounded) :
    (State.stageRuns s n slots).bounded := by
  unfold State.stageRuns
  repeat' (first
    | with_reducible assumption | with_reducible apply State.modCmd_bounded | dsimp only | split | intro _)

theorem State.inputMet_bounded (s : State) (c : Cmd) (cfg : CollCfg) (h : s.bounded) :
    (State.inputMet s c cfg).bounded := by
  unfold State.inputMet
  repeat' (first
    | with_reducible assumption | with_reducible apply State.bufMet_bounded | with_reducible apply foldl_bounded | dsimp only
    | split | intro _)

theorem State.countProbes_bounded (s : State) (o : Nat) (qs : List QState) (h : s.bounded) :
    (State.countProbes s o qs).bounded := by
  unfold State.countProbes
  repeat' (first
    | with_reducible assumption | with_reducible apply State.modColl_bounded | with_reducible apply foldl_bounded | dsimp only
    | split | intro _)

theorem State.encodeStage_bounded (s : State) (c : Cmd) (meet : Sys2Proof.ModelMeet) (h : s.bounded) :
    (State.encodeStage s c meet).bounded := by
  unfold State.encodeStage
  repeat' (first
    | with_reducible assumption | with_reducible apply State.stageRuns_bounded | with_reducible apply State.repin_bounded
    | with_reducible apply State.tablesFail_bounded | dsimp only | split | intro _)

theorem State.routeQueries_bounded (s : State) (c : Cmd) (w : QueryWork) (d : CollData) (h : s.bounded) :
    (State.routeQueries s c w d).bounded := by
  unfold State.routeQueries
  repeat' (first
    | with_reducible assumption | with_reducible apply State.countProbes_bounded | with_reducible apply State.inputMet_bounded
    | with_reducible apply State.stampCopy_bounded | with_reducible apply State.abortCmd_bounded
    | with_reducible apply State.meetRead_bounded | with_reducible apply State.modCmd_bounded | dsimp only | split | intro _)

theorem State.dispatch_bounded (s : State) (c : Cmd) (w : QueryWork) (d : CollData) (meet : Sys2Proof.ModelMeet) (h : s.bounded) :
    (State.dispatch s c w d meet).bounded := by
  unfold State.dispatch
  repeat' (first
    | with_reducible assumption | with_reducible apply State.routeQueries_bounded | with_reducible apply State.encodeStage_bounded
    | with_reducible apply State.searchDefer_bounded | with_reducible apply State.abortCmd_bounded
    | with_reducible apply State.bwRequest_bounded | with_reducible apply State.start_bounded
    | with_reducible apply State.modCmd_bounded | with_reducible apply State.countProbes_bounded
    | with_reducible apply State.inputMet_bounded | with_reducible apply State.stageRuns_bounded
    | with_reducible apply State.stampCopy_bounded | with_reducible apply State.repin_bounded
    | with_reducible apply State.tablesFail_bounded | with_reducible apply State.meetRead_bounded | dsimp only | split | intro _)

theorem State.blockWritten_bounded (s : State) (c : Cmd) (i : Nat) (a : Answer) (h : s.bounded) :
    (State.blockWritten s c i a).bounded := by
  unfold State.blockWritten
  repeat' (first
    | with_reducible assumption | with_reducible apply State.modCmd_bounded | dsimp only | split | intro _)

theorem State.searchEnd_bounded (s : State) (n : Nat) (h : s.bounded) :
    (State.searchEnd s n).bounded := by
  unfold State.searchEnd
  repeat' (first
    | with_reducible assumption | with_reducible apply State.complete_bounded | dsimp only | split | intro _)

theorem State.asterHold_bounded (s : State) (p : Nat) (wide : Bool) (es : List AsterEntry) (h : s.bounded) :
    (State.asterHold s p wide es).bounded := by
  unfold State.asterHold
  repeat' (first
    | with_reducible assumption | dsimp only | split | intro _)

theorem State.putBlock_bounded (s : State) (c : Cmd) (w : QueryWork) (d : CollData) (a : Answer) (h : s.bounded) :
    (s.putBlock c w d a).bounded := by
  unfold State.putBlock
  dsimp only
  split
  · exact State.abortCmd_bounded _ _ _ _ h
  · rename_i e
    exact State.searchEnd_bounded _ _ (State.blockWritten_bounded _ _ _ _ (State.asterHold_bounded _ _ _ _
      (State.writeAll_bounded e (State.meetRead_bounded _ _ h))))

theorem State.ranStages_bounded (s : State) (c : Cmd) (os : List Nat) (h : s.bounded) : (s.ranStages c os).1.bounded :=
  State.stageRuns_bounded _ _ _ h

theorem State.putAnswer_bounded (s : State) (c : Cmd) (w : QueryWork) (d : CollData) (rd : Nat) (slots : List Nat) (hard : Bool)
    (r : Except AnswerStop Answer) (h : s.bounded) : (s.putAnswer c w d rd slots hard r).bounded := by
  unfold State.putAnswer
  split
  · exact State.abortCmd_bounded _ _ _ _ (State.ranStages_bounded _ _ _ (State.meetRead_bounded _ _ (State.randServed_bounded _ _ h)))
  · have h1 := State.ranStages_bounded _ c slots (State.randServed_bounded s rd h)
    dsimp only
    split
    · exact State.abortCmd_bounded _ _ _ _ h1
    · exact State.putBlock_bounded _ _ _ _ _ (foldl_bounded _ _ _ (fun _ _ h => State.stampCopy_bounded _ _ _ h) h1)

theorem State.lastStages_bounded (s : State) (c : Cmd) (w : QueryWork) (d : CollData) (q : QState) (cover : Nat) (meet : Sys2Proof.ModelMeet)
    (h : s.bounded) : (s.lastStages c w d q cover meet).bounded := by
  unfold State.lastStages
  have h1 := fun ws rs => State.bwRequest_bounded s c.part ws rs h
  have h2 := fun ws rs (slots : List Nat) => State.tablesFail_bounded _ slots meet.tables
    (foldl_bounded (fun (s : State) o => s.repin c.part o) slots _ (fun _ o h => State.repin_bounded _ c.part o h) (h1 ws rs))
  dsimp only
  split
  · exact h1 _ _
  · split
    · exact State.modCmd_bounded _ _ _ (h2 _ _ _)
    · split
      · exact State.searchDefer_bounded _ _ h
      · exact State.putAnswer_bounded _ _ _ _ _ _ _ _ (h2 _ _ _)

theorem State.searchNext_bounded (s : State) (n : Nat) (meet : Sys2Proof.ModelMeet) (h : s.bounded) :
    (State.searchNext s n meet).bounded := by
  unfold State.searchNext
  repeat' (first
    | with_reducible assumption | with_reducible apply State.lastStages_bounded | with_reducible apply State.putBlock_bounded
    | dsimp only | split | intro _)

theorem searchStep_bounded (n k : Nat) (op : Nat) (meet : Sys2Proof.ModelMeet) (s : State) (h : s.bounded) :
    (searchStep n k op meet s).bounded := by
  unfold searchStep
  repeat' (first
    | with_reducible assumption | with_reducible apply State.searchNext_bounded | with_reducible apply State.dispatch_bounded
    | with_reducible apply State.refuse_bounded | with_reducible apply State.internalStop_bounded
    | with_reducible apply State.abortCmd_bounded | with_reducible apply foldl_bounded | dsimp only | split | intro _)

theorem State.freeTheta_bounded (s : State) (n : Nat) (h : s.bounded) :
    (State.freeTheta s n).bounded := by
  unfold State.freeTheta
  repeat' (first
    | with_reducible assumption | with_reducible apply State.modCmd_bounded | dsimp only | split | intro _)

theorem coverageCutoff_bounded (n : Nat) (s : State) (h : s.bounded) :
    (coverageCutoff n s).bounded := by
  unfold coverageCutoff
  repeat' (first
    | with_reducible assumption | with_reducible apply State.freeTheta_bounded | with_reducible apply State.assignEngines_bounded
    | with_reducible apply State.leavePasses_bounded | with_reducible apply State.modCmd_bounded | dsimp only | split | intro _)

end Sys2Proof.Machine
end

