-- ==== Sys2Proof/Laws/BoundsFetch.lean ====
section
/-!
SUPPORT. Every function of Machine/Fetch.lean keeps the bounds of Safety.lean.
-/

namespace Sys2Proof.Machine

theorem State.paramMet_bounded (s : State) (c : Cmd) (h : s.bounded) :
    (State.paramMet s c).bounded := by
  unfold State.paramMet
  repeat' (first
    | with_reducible assumption | with_reducible apply State.bufMet_bounded | dsimp only | split | intro _)

theorem State.accept_bounded (s : State) (c : Cmd) (block : List Byte) (h : s.bounded) :
    (State.accept s c block).bounded := by
  unfold State.accept
  repeat' (first
    | with_reducible assumption | with_reducible apply State.bindAll_bounded | with_reducible apply State.modCmd_bounded
    | dsimp only | split | intro _)

theorem State.addCmd_bounded (s : State) (c : Cmd) (h : s.bounded) :
    (State.addCmd s c).bounded := by
  unfold State.addCmd
  repeat' (first
    | with_reducible assumption | dsimp only | split | intro _)

theorem State.fetchFrom_bounded (s : State) (p x r : Nat) (h : s.bounded) :
    (State.fetchFrom s p x r).bounded := by
  unfold State.fetchFrom
  repeat' (first
    | with_reducible assumption | with_reducible apply State.addCmd_bounded | with_reducible apply State.accept_bounded
    | with_reducible apply State.paramMet_bounded | with_reducible apply State.ringError_bounded
    | with_reducible apply State.complete_bounded | with_reducible apply State.modCtx_bounded
    | with_reducible apply State.modRing_bounded | dsimp only | split | intro _)

theorem descriptorFetch_bounded (stores : List Host.Cell) (p : Nat) (s : State) (h : s.bounded) :
    (descriptorFetch stores p s).bounded := by
  unfold descriptorFetch
  repeat' (first
    | with_reducible assumption | with_reducible apply State.fetchFrom_bounded | with_reducible apply State.candRefresh_bounded
    | with_reducible apply State.hostStores_bounded | dsimp only | split | intro _)

end Sys2Proof.Machine
end

