-- ==== Sys2Proof/Laws/BoundsMemory.lean ====
section
/-!
SUPPORT. Every function of Machine/Memory.lean keeps the bounds of Safety.lean.
-/

namespace Sys2Proof.Machine

theorem State.linkDelay_bounded (s : State) (l : List (Nat × Nat)) (h : s.bounded) :
    (State.linkDelay s l).bounded := by
  unfold State.linkDelay
  repeat' (first
    | with_reducible assumption | with_reducible apply State.modCmd_bounded | with_reducible apply foldl_bounded | dsimp only
    | split | intro _)

theorem linkReplay_bounded (u : Nat) (ok : Bool) (delay : List (Nat × Nat)) (s : State) (h : s.bounded) :
    (linkReplay u ok delay s).bounded := by
  unfold linkReplay
  repeat' (first
    | with_reducible assumption | with_reducible apply State.linkDelay_bounded | with_reducible apply State.errLog_bounded
    | with_reducible apply State.modUnit_bounded | dsimp only | split | intro _)

theorem retrainDone_bounded (u : Nat) (ok : Bool) (s : State) (h : s.bounded) :
    (retrainDone u ok s).bounded := by
  unfold retrainDone
  repeat' (first
    | with_reducible assumption | with_reducible apply State.channelFail_bounded | with_reducible apply State.stackOut_bounded
    | with_reducible apply State.modUnit_bounded | dsimp only | split | intro _)

theorem evacuationDone_bounded (u : Nat) (lost : List Nat) (s : State) (h : s.bounded) :
    (evacuationDone u lost s).bounded := by
  unfold evacuationDone
  repeat' (first
    | with_reducible assumption | with_reducible apply State.missBlock_bounded | with_reducible apply State.modUnit_bounded
    | with_reducible apply foldl_bounded | dsimp only | split | intro _)

theorem scrubPatrol_bounded (a : Nat) (err : Sys2Proof.MemErr) (s : State) (h : s.bounded) :
    (scrubPatrol a err s).bounded := by
  unfold scrubPatrol
  repeat' (first
    | with_reducible assumption | with_reducible apply State.meetCorrected_bounded | with_reducible apply State.meetBad_bounded
    | dsimp only | split | intro _)

theorem State.reserve_eq_bounded {s : State} {t n : Nat} {e : Option Extent} {u : State} (eq : s.reserve t n = (e, u)) (h : s.bounded) :
    u.bounded := by
  have := State.reserve_bounded s t n h
  rw [eq] at this
  exact this

theorem blockRebuild_bounded (s : State) (h : s.bounded) : (blockRebuild s).bounded := by
  unfold blockRebuild
  dsimp only
  split
  · exact h
  · split
    · split
      · rename_i e; have h1 := State.reserve_eq_bounded e h; with_reducible exact h1
      · rename_i e; exact State.reserve_eq_bounded e h
    · with_reducible exact h

theorem State.blockBack_bounded (s : State) (b : Nat) (h : s.bounded) :
    (State.blockBack s b).bounded := by
  unfold State.blockBack
  repeat' (first
    | with_reducible assumption | dsimp only | split | intro _)

theorem blockRebuildDone_bounded (s : State) (h : s.bounded) :
    (blockRebuildDone s).bounded := by
  unfold blockRebuildDone
  repeat' (first
    | with_reducible assumption | with_reducible apply State.blockBack_bounded | dsimp only | split | intro _)

theorem lineInitialisation_bounded (s : State) (h : s.bounded) :
    (lineInitialisation s).bounded := by
  unfold lineInitialisation
  repeat' (first
    | with_reducible assumption | dsimp only | split | intro _)

theorem repairCtl_bounded (far : Bool) (v : Word32) (s : State) (h : s.bounded) :
    (repairCtl far v s).bounded := by
  unfold repairCtl
  repeat' (first
    | with_reducible assumption | with_reducible apply State.modUnit_bounded | with_reducible apply State.hifErr_bounded
    | dsimp only | split | intro _)

theorem marginTest_bounded (far : Bool) (v : Word32) (s : State) (h : s.bounded) :
    (marginTest far v s).bounded := by
  unfold marginTest
  repeat' (first
    | with_reducible assumption | dsimp only | split | intro _)

theorem marginTestDone_bounded (far : Bool) (lines errors : Nat) (s : State) (h : s.bounded) :
    (marginTestDone far lines errors s).bounded := by
  unfold marginTestDone
  repeat' (first
    | with_reducible assumption | dsimp only | split | intro _)

theorem farHostWrite_bounded (v : Word32) (s : State) (h : s.bounded) :
    (farHostWrite v s).bounded := by
  unfold farHostWrite
  repeat' (first
    | with_reducible assumption | dsimp only | split | intro _)

theorem State.modDecoder_bounded (s : State) (i : Nat) (f : Decoder → Decoder) (h : s.bounded) :
    (State.modDecoder s i f).bounded := by
  unfold State.modDecoder
  repeat' (first
    | with_reducible assumption | dsimp only | split | intro _)

theorem State.hdmCommit_bounded (s : State) (i : Nat) (h : s.bounded) :
    (State.hdmCommit s i).bounded := by
  unfold State.hdmCommit
  repeat' (first
    | with_reducible assumption | with_reducible apply State.modDecoder_bounded | dsimp only | split | intro _)

theorem decoderCommit_bounded (i base size skip ways : Nat) (lock : Bool) (s : State) (h : s.bounded) :
    (decoderCommit i base size skip ways lock s).bounded := by
  unfold decoderCommit
  repeat' (first
    | with_reducible assumption | with_reducible apply State.hdmCommit_bounded | with_reducible apply State.modDecoder_bounded
    | dsimp only | split | intro _)

theorem hdmWrite_bounded (o : Nat) (v : Word32) (s : State) (h : s.bounded) :
    (hdmWrite o v s).bounded := by
  unfold hdmWrite
  repeat' (first
    | with_reducible assumption | with_reducible apply State.hdmCommit_bounded | with_reducible apply State.modDecoder_bounded
    | dsimp only | split | intro _)

theorem hostMemRead_bounded (a : Nat) (err : Sys2Proof.MemErr) (s : State) (h : s.bounded) :
    (hostMemRead a err s).bounded := by
  unfold hostMemRead
  repeat' (first
    | with_reducible assumption | with_reducible apply State.meetCorrected_bounded | with_reducible apply State.meetBad_bounded
    | with_reducible apply State.hifErr_bounded | dsimp only | split | intro _)

theorem State.hostRefill_bounded (s : State) (d : Nat) (h : s.bounded) :
    (State.hostRefill s d).bounded := by
  unfold State.hostRefill
  repeat' (first
    | with_reducible assumption | with_reducible apply State.blockBack_bounded | dsimp only | split | intro _)

theorem hostMemWrite_bounded (a : Nat) (data : BitVec 512) (mask : Nat) (s : State) (h : s.bounded) :
    (hostMemWrite a data mask s).bounded := by
  unfold hostMemWrite
  dsimp only
  repeat' (first
    | with_reducible assumption
    | with_reducible apply State.hifErr_bounded
    | with_reducible apply State.hostRefill_bounded
    | with_reducible apply State.lineWritten_bounded
    | with_reducible apply State.devLine_bounded
    | split)

theorem biasFlip_bounded (v : Word32) (s : State) (h : s.bounded) :
    (biasFlip v s).bounded := by
  unfold biasFlip
  repeat' (first
    | with_reducible assumption | with_reducible apply State.hifErr_bounded | dsimp only | split | intro _)

theorem biasFlipDone_bounded (s : State) (h : s.bounded) :
    (biasFlipDone s).bounded := by
  unfold biasFlipDone
  repeat' (first
    | with_reducible assumption | with_reducible apply biasFlip_bounded | dsimp only | split | intro _)

end Sys2Proof.Machine
end

