-- ==== Sys2Proof/Laws/BoundsReset.lean ====
section
/-!
SUPPORT. Every function of Machine/Reset.lean keeps the bounds of Safety.lean.
-/

namespace Sys2Proof.Machine

theorem State.applyReset_bounded (s : State) (lv : ResetLevel) (memClr loss : Bool) (h : s.bounded) :
    (s.applyReset lv memClr loss).bounded := by
  obtain ⟨h1, h2, h3, h4, h5, _, _⟩ := h
  refine ⟨h1, ?_, ?_, h4, ?_, fun r m => absurd m List.not_mem_nil, Nat.zero_le _⟩
  · show Memory.wf (if (decide (lv = .cold) || (decide (lv = .cxl) && memClr)) = true then [] else s.mem.dev) = true
    split
    · rfl
    · exact h2
  · show (if lv = .cold then 0 else s.hif.timer) < 2 ^ 64
    split
    · decide
    · exact h3
  · show (if decide (lv = .cold ∨ lv = .warm) = true then s.sec.afterReset.boot else s.sec.afterReset).tokens ≤ 1024
    split <;> exact h5

theorem State.resetTo_bounded (s : State) (lv : ResetLevel) (memClr : Bool) (h : s.bounded) :
    (State.resetTo s lv memClr).bounded := by
  unfold State.resetTo
  repeat' (first
    | with_reducible assumption | with_reducible apply State.applyReset_bounded | dsimp only | split | intro _)

theorem warm_bounded (perst : Bool) (s : State) (h : s.bounded) :
    (warm perst s).bounded := by
  unfold warm
  repeat' (first
    | with_reducible assumption | with_reducible apply State.resetTo_bounded | dsimp only | split | intro _)

theorem cxlReset_bounded (memClr : Bool) (s : State) (h : s.bounded) :
    (cxlReset memClr s).bounded := by
  unfold cxlReset
  repeat' (first
    | with_reducible assumption | with_reducible apply State.resetTo_bounded | dsimp only | split | intro _)

theorem flr_bounded (s : State) (h : s.bounded) :
    (flr s).bounded := by
  unfold flr
  repeat' (first
    | with_reducible assumption | with_reducible apply State.resetTo_bounded | dsimp only | split | intro _)

theorem deviceReset_bounded (v : Word32) (s : State) (h : s.bounded) :
    (deviceReset v s).bounded := by
  unfold deviceReset
  repeat' (first
    | with_reducible assumption | with_reducible apply State.resetTo_bounded | with_reducible apply State.hifErr_bounded
    | dsimp only | split | intro _)

theorem Jrn.atLoss_locks (j : Jrn) (full drain : Bool) : (j.atLoss full drain).locks = j.locks := rfl

theorem State.powerLoss_bounded (s : State) (h : s.bounded) : s.powerLoss.bounded := by
  unfold State.powerLoss
  split
  · exact h
  · refine State.module_bounded _ _ (State.applyReset_bounded _ _ _ _ (State.life_bounded _ _ _ (State.life_bounded _ _ _
      (State.bounded_jrn h ?_ rfl rfl rfl rfl rfl rfl))))
    rfl

theorem inputLoss_bounded (s : State) (h : s.bounded) :
    (inputLoss s).bounded := by
  unfold inputLoss
  repeat' (first
    | with_reducible assumption | with_reducible apply State.powerLoss_bounded | dsimp only | split | intro _)

theorem holdupFlushDone_bounded (s : State) (h : s.bounded) : (holdupFlushDone s).bounded := by
  unfold holdupFlushDone
  split
  · exact h
  · refine State.bounded_jrn h ?_ rfl rfl rfl rfl rfl rfl
    show (if s.module.holdupAtLoss = true then s.jrn.persistAll else s.jrn).locks = s.jrn.locks
    split <;> rfl

theorem inputBreakerTrip_bounded (s : State) (h : s.bounded) :
    (inputBreakerTrip s).bounded := by
  unfold inputBreakerTrip
  repeat' (first
    | with_reducible assumption | with_reducible apply State.powerLoss_bounded | dsimp only | split | intro _)

theorem latchRelease_bounded (s : State) (h : s.bounded) :
    (latchRelease s).bounded := by
  unfold latchRelease
  repeat' (first
    | with_reducible assumption | dsimp only | split | intro _)

theorem State.writePending_bounded (s : State) (h : s.bounded) :
    (State.writePending s).bounded := by
  unfold State.writePending
  repeat' (first
    | with_reducible assumption | with_reducible apply State.pushEvent_bounded | with_reducible apply foldl_bounded | dsimp only
    | split | intro _)

theorem cold_bounded (railFail : Option Nat) (s : State) (h : s.bounded) :
    (cold railFail s).bounded := by
  unfold cold
  repeat' (first
    | with_reducible assumption | with_reducible apply State.writePending_bounded | with_reducible apply State.applyReset_bounded
    | with_reducible apply State.life_bounded | dsimp only | split | intro _)

theorem State.bankNow_bounded (s : State) (capUF mv : Nat) (h : s.bounded) :
    (State.bankNow s capUF mv).bounded := by
  unfold State.bankNow
  repeat' (first
    | with_reducible assumption | dsimp only | split | intro _)

theorem holdupCharged_bounded (mv : Nat) (s : State) (h : s.bounded) :
    (holdupCharged mv s).bounded := by
  unfold holdupCharged
  repeat' (first
    | with_reducible assumption | with_reducible apply State.bankNow_bounded | dsimp only | split | intro _)

theorem holdupMeasure_bounded (capUF mv : Nat) (s : State) (h : s.bounded) :
    (holdupMeasure capUF mv s).bounded := by
  unfold holdupMeasure
  repeat' (first
    | with_reducible assumption | with_reducible apply State.bankNow_bounded | dsimp only | split | intro _)

theorem holdupLost_bounded (mv : Nat) (s : State) (h : s.bounded) :
    (holdupLost mv s).bounded := by
  unfold holdupLost
  repeat' (first
    | with_reducible assumption | with_reducible apply State.bankNow_bounded | dsimp only | split | intro _)

theorem standbyPowerOn_bounded (straps : Nat) (s : State) (h : s.bounded) :
    (standbyPowerOn straps s).bounded := by
  unfold standbyPowerOn
  split <;> exact h

theorem standbyPowerLoss_bounded (s : State) (h : s.bounded) :
    (standbyPowerLoss s).bounded := by
  unfold standbyPowerLoss
  repeat' (first
    | with_reducible assumption | dsimp only | split | intro _)

theorem refclkLoss_bounded (s : State) (h : s.bounded) :
    (refclkLoss s).bounded := by
  unfold refclkLoss
  repeat' (first
    | with_reducible assumption | dsimp only | split | intro _)

theorem refclkReturn_bounded (s : State) (h : s.bounded) :
    (refclkReturn s).bounded := by
  unfold refclkReturn
  repeat' (first
    | with_reducible assumption | dsimp only | split | intro _)

theorem perstNDeassert_bounded (s : State) (h : s.bounded) :
    (perstNDeassert s).bounded := by
  unfold perstNDeassert
  repeat' (first
    | with_reducible assumption | dsimp only | split | intro _)

theorem linkTrainingDone_bounded (rate width : Nat) (cacheMem : Bool) (s : State) (h : s.bounded) :
    (linkTrainingDone rate width cacheMem s).bounded := by
  unfold linkTrainingDone
  repeat' (first
    | with_reducible assumption | with_reducible apply State.event_bounded | dsimp only | split | intro _)

theorem State.enterViral_bounded (s : State) (h : s.bounded) :
    s.enterViral.bounded := by
  unfold State.enterViral
  repeat' (first
    | with_reducible assumption | with_reducible apply State.event_bounded | dsimp only | split | intro _)

theorem viral_bounded (s : State) (h : s.bounded) :
    (viral s).bounded := by
  unfold viral State.free
  refine iteInduction (fun _ => h) (fun _ => State.enterViral_bounded _ ?_)
  repeat' (first
    | with_reducible assumption | with_reducible apply State.event_bounded | dsimp only | split | intro _)

theorem powerStateChange_bounded (d3 : Bool) (s : State) (h : s.bounded) :
    (powerStateChange d3 s).bounded := by
  unfold powerStateChange
  repeat' (first
    | with_reducible assumption | dsimp only | split | intro _)

theorem hifTodCommit_bounded (v : Word64) (s : State) (h : s.bounded) :
    (hifTodCommit v s).bounded := by
  unfold hifTodCommit
  repeat' (first
    | with_reducible assumption | with_reducible apply State.calUpdate_bounded | with_reducible apply State.life_bounded
    | dsimp only | split | intro _)

theorem State.thmFlag_bounded (s : State) (b : Nat) (h : s.bounded) :
    (State.thmFlag s b).bounded := by
  unfold State.thmFlag
  repeat' (first
    | with_reducible assumption | with_reducible apply State.event_bounded | dsimp only | split | intro _)

theorem State.cycles_bounded (s : State) (h : s.bounded) :
    (State.cycles s).bounded := by
  unfold State.cycles
  repeat' (first
    | with_reducible assumption | with_reducible apply State.life_bounded | dsimp only | split | intro _)

theorem thermalReport_bounded (hub base dram far : List Int) (nand inlet : Int) (s : State) (h : s.bounded) :
    (thermalReport hub base dram far nand inlet s).bounded := by
  unfold thermalReport
  repeat' (first
    | with_reducible assumption | with_reducible apply State.cycles_bounded | with_reducible apply State.thmFlag_bounded
    | with_reducible apply State.powerLoss_bounded | with_reducible apply State.boostDrop_bounded
    | with_reducible apply State.life_bounded | dsimp only | split | intro _)

theorem State.funcUnmask_bounded (s : State) (h : s.bounded) :
    (State.funcUnmask s).bounded := by
  unfold State.funcUnmask
  repeat' (first
    | with_reducible assumption | with_reducible apply State.msixSend_bounded | with_reducible apply foldl_bounded | dsimp only
    | split | intro _)

theorem State.cfgPut_bounded (s : State) (r : Sys2Proof.CfgReg) (v : Word32) (h : s.bounded) :
    (State.cfgPut s r v).bounded := by
  unfold State.cfgPut
  repeat' (first
    | with_reducible assumption | dsimp only | split | intro _)

theorem State.dvsecPut_bounded (s : State) (r : Sys2Proof.CfgReg) (v : Word32) (h : s.bounded) :
    (State.dvsecPut s r v).bounded := by
  unfold State.dvsecPut
  repeat' (first
    | with_reducible assumption | dsimp only | split | intro _)

theorem cfgWrite_bounded (r : Sys2Proof.CfgReg) (v : Word32) (s : State) (h : s.bounded) :
    (cfgWrite r v s).bounded := by
  unfold cfgWrite
  repeat' (first
    | with_reducible assumption | with_reducible apply State.dvsecPut_bounded | with_reducible apply State.cfgPut_bounded
    | with_reducible apply State.funcUnmask_bounded | with_reducible apply powerStateChange_bounded
    | with_reducible apply flr_bounded | with_reducible apply cxlReset_bounded | dsimp only | split | intro _)

theorem configRequest_bounded (req : Sys2Proof.CfgReq) (s : State) (h : s.bounded) :
    (configRequest req s).bounded := by
  unfold configRequest
  repeat' (first
    | with_reducible assumption | with_reducible apply cfgWrite_bounded | with_reducible apply State.funcUnmask_bounded | dsimp only
    | split | intro _)

end Sys2Proof.Machine
end

