-- ==== Sys2Proof/Laws/BoundsTwins.lean ====
section
/-!
SUPPORT. Every function of Machine/Twins.lean keeps the bounds of Safety.lean.
-/

namespace Sys2Proof.Machine

theorem digest_bounded (n : Nat) (s : State) (h : s.bounded) :
    (digest n s).bounded := by
  unfold digest
  repeat' (first
    | with_reducible assumption | with_reducible apply State.refuse_bounded | with_reducible apply State.complete_bounded
    | dsimp only | split | intro _ | (with_reducible refine State.bufWrite_bounded (by assumption) ?_))

theorem queryProgress_bounded (n : Nat) (s : State) (h : s.bounded) :
    (queryProgress n s).bounded := by
  unfold queryProgress
  repeat' (first
    | with_reducible assumption | with_reducible apply State.start_bounded | with_reducible apply State.complete_bounded
    | dsimp only | split | intro _)

theorem xferCtl_bounded (v : Word32) (s : State) (h : s.bounded) :
    (xferCtl v s).bounded := by
  unfold xferCtl
  repeat' (first
    | with_reducible assumption | dsimp only | split | intro _)

theorem xferHost_bounded (v : Nat) (s : State) (h : s.bounded) :
    (xferHost v s).bounded := by
  unfold xferHost
  repeat' (first
    | with_reducible assumption | dsimp only | split | intro _)

theorem State.importCommit_bounded (s : State) (x : Xfer) (h : s.bounded) : (s.importCommit x).bounded := by
  unfold State.importCommit
  dsimp only
  split
  · exact h
  · split
    · exact h
    · split
      · exact h
      · split
        · exact h
        · rename_i e
          have h1 := State.commitSnap_bounded e h
          exact h1

theorem State.importChunk_bounded (s : State) (x : Xfer) (h : s.bounded) :
    (State.importChunk s x).bounded := by
  unfold State.importChunk
  repeat' (first
    | with_reducible assumption | with_reducible apply State.importCommit_bounded | dsimp only | split | intro _)

theorem State.exportChunk_bounded (s : State) (x : Xfer) (h : s.bounded) :
    (State.exportChunk s x).bounded := by
  unfold State.exportChunk
  repeat' (first
    | with_reducible assumption | with_reducible apply State.hostWrite_bounded | dsimp only | split | intro _)

theorem xferDeviceChunk_bounded (s : State) (h : s.bounded) :
    (xferDeviceChunk s).bounded := by
  unfold xferDeviceChunk
  repeat' (first
    | with_reducible assumption | with_reducible apply State.exportChunk_bounded | with_reducible apply State.importChunk_bounded
    | dsimp only | split | intro _)

end Sys2Proof.Machine
end

