-- ==== Sys2Proof/Laws/BoundsSecurity.lean ====
section
/-!
SUPPORT. Every function of Machine/Security.lean keeps the bounds of Safety.lean.
-/

namespace Sys2Proof.Machine

theorem State.reply_bounded (s : State) (r : Reply) (h : s.bounded) :
    (State.reply s r).bounded := by
  unfold State.reply
  repeat' (first
    | with_reducible assumption | dsimp only | split | intro _)

theorem State.spdm_bounded (s : State) (t need : Nat) (f : State → State) (hf : s.bounded → (f s).bounded) (h : s.bounded) :
    (s.spdm t need f).bounded := by
  unfold State.spdm
  split
  · exact h
  · split
    · exact State.reply_bounded _ _ h
    · exact hf h

theorem State.signed_bounded (s : State) (t : Nat) (a : Asked) (h : s.bounded) : (s.signed t a).bounded := by
  have h1 : ({ s with sec := s.sec.sign } : State).bounded :=
    State.bounded_tokens h (Nat.le_trans (Nat.sub_le _ _) h.2.2.2.2.1) rfl rfl rfl rfl rfl rfl
  unfold State.signed
  dsimp only
  split
  · exact State.reply_bounded _ _ h1
  · exact State.reply_bounded _ _ h1
  · exact State.reply_bounded _ _ h1

theorem State.signRequest_bounded (s : State) (t : Nat) (a : Asked) (h : s.bounded) :
    (State.signRequest s t a).bounded := by
  unfold State.signRequest
  repeat' (first
    | with_reducible assumption | with_reducible apply State.signed_bounded | with_reducible apply State.reply_bounded | dsimp only
    | split | intro _)

theorem signTokenRefill_bounded (s : State) (h : s.bounded) : (signTokenRefill s).bounded := by
  unfold signTokenRefill
  split
  · exact State.bounded_tokens h (Nat.min_le_left _ _) rfl rfl rfl rfl rfl rfl
  · exact h

theorem aakGenerationDone_bounded (s : State) (h : s.bounded) :
    (aakGenerationDone s).bounded := by
  unfold aakGenerationDone
  split <;> exact h

theorem getVersion_bounded (t : Nat) (s : State) (h : s.bounded) :
    (getVersion t s).bounded := by
  unfold getVersion
  repeat' (first
    | with_reducible assumption | with_reducible apply State.spdm_bounded | with_reducible apply State.reply_bounded | dsimp only
    | split | intro _)

theorem getCapabilities_bounded (t : Nat) (s : State) (h : s.bounded) :
    (getCapabilities t s).bounded := by
  unfold getCapabilities
  repeat' (first
    | with_reducible assumption | with_reducible apply State.spdm_bounded | with_reducible apply State.reply_bounded | dsimp only
    | split | intro _)

theorem negotiateAlgorithms_bounded (t : Nat) (common : Bool) (s : State) (h : s.bounded) :
    (negotiateAlgorithms t common s).bounded := by
  unfold negotiateAlgorithms
  repeat' (first
    | with_reducible assumption | with_reducible apply State.spdm_bounded | with_reducible apply State.reply_bounded | dsimp only
    | split | intro _)

theorem getDigests_bounded (t : Nat) (s : State) (h : s.bounded) :
    (getDigests t s).bounded := by
  unfold getDigests
  repeat' (first
    | with_reducible assumption | with_reducible apply State.spdm_bounded | with_reducible apply State.reply_bounded | dsimp only
    | split | intro _)

theorem getCertificate_bounded (t slot : Nat) (s : State) (h : s.bounded) :
    (getCertificate t slot s).bounded := by
  unfold getCertificate
  repeat' (first
    | with_reducible assumption | with_reducible apply State.spdm_bounded | with_reducible apply State.reply_bounded | dsimp only
    | split | intro _)

theorem challenge_bounded (t slot : Nat) (s : State) (h : s.bounded) :
    (challenge t slot s).bounded := by
  unfold challenge
  repeat' (first
    | with_reducible assumption | with_reducible apply State.signRequest_bounded | with_reducible apply State.spdm_bounded
    | with_reducible apply State.reply_bounded | dsimp only | split | intro _)

theorem getMeasurements_bounded (t which : Nat) (sig : Bool) (s : State) (h : s.bounded) :
    (getMeasurements t which sig s).bounded := by
  unfold getMeasurements
  repeat' (first
    | with_reducible assumption | with_reducible apply State.signRequest_bounded | with_reducible apply State.spdm_bounded
    | with_reducible apply State.reply_bounded | dsimp only | split | intro _)

theorem keyExchange_bounded (t : Nat) (s : State) (h : s.bounded) :
    (keyExchange t s).bounded := by
  unfold keyExchange
  repeat' (first
    | with_reducible assumption | with_reducible apply State.signRequest_bounded | with_reducible apply State.spdm_bounded
    | with_reducible apply State.reply_bounded | dsimp only | split | intro _)

theorem State.modSession_bounded (s : State) (n : Nat) (f : Session → Session) (h : s.bounded) :
    (State.modSession s n f).bounded := by
  unfold State.modSession
  repeat' (first
    | with_reducible assumption | dsimp only | split | intro _)

theorem State.dropSession_bounded (s : State) (n : Nat) (h : s.bounded) :
    (State.dropSession s n).bounded := by
  unfold State.dropSession
  repeat' (first
    | with_reducible assumption | dsimp only | split | intro _)

theorem State.inSession_bounded (s : State) (t n : Nat) (up : Bool) (f : State → State) (hf : s.bounded → (f s).bounded)
    (h : s.bounded) : (s.inSession t n up f).bounded := by
  unfold State.inSession
  refine State.spdm_bounded _ _ _ _ (fun h => ?_) h
  split
  · exact hf h
  · exact State.reply_bounded _ _ h

theorem finish_bounded (t n : Nat) (hmac : Bool) (s : State) (h : s.bounded) :
    (finish t n hmac s).bounded := by
  unfold finish
  repeat' (first
    | with_reducible assumption | with_reducible apply State.inSession_bounded | with_reducible apply State.dropSession_bounded
    | with_reducible apply State.modSession_bounded | with_reducible apply State.reply_bounded
    | with_reducible apply State.finish_bounded | dsimp only | split | intro _)

theorem keyUpdate_bounded (t n : Nat) (s : State) (h : s.bounded) :
    (keyUpdate t n s).bounded := by
  unfold keyUpdate
  repeat' (first
    | with_reducible assumption | with_reducible apply State.inSession_bounded | with_reducible apply State.modSession_bounded
    | with_reducible apply State.reply_bounded | dsimp only | split | intro _)

theorem heartbeat_bounded (t n : Nat) (s : State) (h : s.bounded) :
    (heartbeat t n s).bounded := by
  unfold heartbeat
  repeat' (first
    | with_reducible assumption | with_reducible apply State.inSession_bounded | with_reducible apply State.reply_bounded
    | dsimp only | split | intro _)

theorem endSession_bounded (t n : Nat) (s : State) (h : s.bounded) :
    (endSession t n s).bounded := by
  unfold endSession
  repeat' (first
    | with_reducible assumption | with_reducible apply State.inSession_bounded | with_reducible apply State.dropSession_bounded
    | with_reducible apply State.reply_bounded | dsimp only | split | intro _)

theorem respondIfReady_bounded (t : Nat) (s : State) (h : s.bounded) :
    (respondIfReady t s).bounded := by
  unfold respondIfReady
  repeat' (first
    | with_reducible assumption | with_reducible apply State.signRequest_bounded | with_reducible apply State.spdm_bounded
    | with_reducible apply State.reply_bounded | dsimp only | split | intro _)

theorem State.releaseHeld_bounded (s : State) (h : s.bounded) :
    (State.releaseHeld s).bounded := by
  unfold State.releaseHeld
  repeat' (first
    | with_reducible assumption | with_reducible apply State.hostWrite_bounded | with_reducible apply foldl_bounded | dsimp only
    | split | intro _)

theorem ideKeyProgram_bounded (n i : Nat) (skid : Bool) (s : State) (h : s.bounded) :
    (ideKeyProgram n i skid s).bounded := by
  unfold ideKeyProgram
  repeat' (first
    | with_reducible assumption | with_reducible apply State.releaseHeld_bounded | dsimp only | split | intro _)

theorem ideIntegrityFailure_bounded (i : Nat) (aer : Word32) (s : State) (h : s.bounded) :
    (ideIntegrityFailure i aer s).bounded := by
  unfold ideIntegrityFailure
  repeat' (first
    | with_reducible assumption | with_reducible apply State.enterViral_bounded | with_reducible apply State.event_bounded | dsimp only | split
    | intro _)

theorem Sec.stage_tokens (x : Sec) (comps : Nat) (oob : Bool) (n : Nat) : (x.stage comps oob n).tokens = x.tokens := rfl

theorem fwuGo_bounded (comps : Nat) (s : State) (h : s.bounded) : (fwuGo comps s).bounded := by
  unfold fwuGo
  split
  · exact h
  · split <;> exact h

theorem fwuAbort_bounded (s : State) (h : s.bounded) :
    (fwuAbort s).bounded := by
  unfold fwuAbort
  repeat' (first
    | with_reducible assumption | dsimp only | split | intro _)

theorem fwuActivate_bounded (mask : Nat) (s : State) (h : s.bounded) :
    (fwuActivate mask s).bounded := by
  unfold fwuActivate
  repeat' (first
    | with_reducible assumption | dsimp only | split | intro _)

theorem Sec.putImage_tokens (x : Sec) (im : Sys2Proof.FwImage) : (x.putImage im).tokens = x.tokens := by
  unfold Sec.putImage
  rfl

theorem putImages_tokens (ims : List Sys2Proof.FwImage) (x : Sec) : (ims.foldl Sec.putImage x).tokens = x.tokens := by
  induction ims generalizing x with
  | nil => rfl
  | cons im t ih => rw [List.foldl_cons, ih, Sec.putImage_tokens]

theorem fwuStagingDone_bounded (malformed : Bool) (images : List Sys2Proof.FwImage) (s : State) (h : s.bounded) :
    (fwuStagingDone malformed images s).bounded := by
  unfold fwuStagingDone
  dsimp only
  split
  · exact h
  · split
    · exact h
    · split
      · exact h
      · exact State.bounded_tokens h ((putImages_tokens images s.sec).symm ▸ h.2.2.2.2.1) rfl rfl rfl rfl rfl rfl

theorem State.pldm_bounded (s : State) (i3c : Bool) (f : State → State) (hf : s.bounded → (f s).bounded) (h : s.bounded) :
    (s.pldm i3c f).bounded := by
  unfold State.pldm
  split
  · exact hf h
  · exact h

theorem State.stage_bounded (s : State) (comps : Nat) (oob : Bool) (n : Nat) (h : s.bounded) :
    ({ s with sec := s.sec.stage comps oob n } : State).bounded := h

theorem pldmFirmwareUpdate_bounded (i3c : Bool) (comps len : Nat) (s : State) (h : s.bounded) :
    (pldmFirmwareUpdate i3c comps len s).bounded := by
  unfold pldmFirmwareUpdate
  refine State.pldm_bounded _ _ _ (fun h => ?_) h
  split
  · exact State.reply_bounded _ _ h
  · exact State.reply_bounded _ _ (State.stage_bounded _ _ _ _ h)

theorem activateFirmware_bounded (i3c : Bool) (s : State) (h : s.bounded) :
    (activateFirmware i3c s).bounded := by
  unfold activateFirmware
  repeat' (first
    | with_reducible assumption | with_reducible apply State.pldm_bounded | with_reducible apply State.reply_bounded | dsimp only
    | split | intro _)

theorem setEndpointId_bounded (i3c : Bool) (eid : Nat) (s : State) (h : s.bounded) :
    (setEndpointId i3c eid s).bounded := by
  unfold setEndpointId
  repeat' (first
    | with_reducible assumption | dsimp only | split | intro _)

theorem i3cDynamicAddress_bounded (a : Nat) (s : State) (h : s.bounded) :
    (i3cDynamicAddress a s).bounded := by
  unfold i3cDynamicAddress
  repeat' (first
    | with_reducible assumption | dsimp only | split | intro _)

end Sys2Proof.Machine
end

