-- ==== Sys2Proof/Laws/BoundsRegRead.lean ====
section
/-!
SUPPORT. Every function of Machine/RegRead.lean keeps the bounds of Safety.lean.
-/

namespace Sys2Proof.Machine

theorem State.readData_bounded (s : State) (v : Nat) (h : s.bounded) :
    (State.readData s v).bounded := by
  unfold State.readData
  repeat' (first
    | with_reducible assumption | dsimp only | split | intro _)

theorem badAccess_bounded (o size : Nat) (write : Bool) (s : State) (h : s.bounded) :
    (badAccess o size write s).bounded := by
  unfold badAccess
  repeat' (first
    | with_reducible assumption | with_reducible apply State.readData_bounded | with_reducible apply State.hifErr_bounded
    | dsimp only | split | intro _)

theorem State.readEffect_bounded (s : State) (o : Nat) (h : s.bounded) :
    (State.readEffect s o).bounded := by
  unfold State.readEffect
  repeat' (first
    | with_reducible assumption | with_reducible apply State.latchChain_bounded | dsimp only | split | intro _)

theorem lowHalfReadLatch_bounded (o : Nat) (s : State) (h : s.bounded) :
    (lowHalfReadLatch o s).bounded := by
  unfold lowHalfReadLatch
  repeat' (first
    | with_reducible assumption | with_reducible apply State.readEffect_bounded | with_reducible apply State.readData_bounded
    | dsimp only | split | intro _)

theorem pairRead_bounded (o : Nat) (s : State) (h : s.bounded) :
    (pairRead o s).bounded := by
  unfold pairRead
  repeat' (first
    | with_reducible assumption | with_reducible apply State.readEffect_bounded | with_reducible apply State.readData_bounded
    | dsimp only | split | intro _)

theorem pageRead_bounded (p o : Nat) (s : State) (h : s.bounded) :
    (pageRead p o s).bounded := by
  unfold pageRead
  repeat' (first
    | with_reducible assumption | with_reducible apply State.readData_bounded | dsimp only | split | intro _)

theorem hostReads_bounded (r : Sys2Proof.HostRead) (s : State) (h : s.bounded) :
    (hostReads r s).bounded := by
  unfold hostReads
  repeat' (first
    | with_reducible assumption | with_reducible apply pageRead_bounded | with_reducible apply pairRead_bounded
    | with_reducible apply lowHalfReadLatch_bounded | with_reducible apply badAccess_bounded | dsimp only | split | intro _)

theorem highHalfRead_bounded (o : Nat) (s : State) (h : s.bounded) :
    (highHalfRead o s).bounded := by
  unfold highHalfRead
  repeat' (first
    | with_reducible assumption | with_reducible apply State.readData_bounded | dsimp only | split | intro _)

end Sys2Proof.Machine
end

