-- ==== Sys2Proof/Laws/BoundsScan.lean ====
section
/-!
SUPPORT. Every function of Machine/Scan.lean keeps the bounds of Safety.lean.
-/

namespace Sys2Proof.Machine

theorem State.modQuery_bounded (s : State) (n i : Nat) (f : QState → QState) (h : s.bounded) :
    (State.modQuery s n i f).bounded := by
  unfold State.modQuery
  repeat' (first
    | with_reducible assumption | with_reducible apply State.modCmd_bounded | dsimp only | split | intro _)

theorem State.modProbe_bounded (s : State) (x : Waiting) (st : Nat) (w : Scanned) (f : Probe → Probe) (h : s.bounded) :
    (State.modProbe s x st w f).bounded := by
  unfold State.modProbe
  repeat' (first
    | with_reducible assumption | with_reducible apply State.modQuery_bounded | dsimp only | split | intro _)

theorem State.noteVersionWait_bounded (s : State) (st : Nat) (w : Scanned) (ws : List Waiting) (h : s.bounded) :
    (State.noteVersionWait s st w ws).bounded := by
  unfold State.noteVersionWait
  repeat' (first
    | with_reducible assumption | with_reducible apply State.modProbe_bounded | with_reducible apply foldl_bounded | dsimp only
    | split | intro _)

theorem State.joinPass_bounded (s : State) (pass st : Nat) (w : Scanned) (x : Waiting) (h : s.bounded) :
    (State.joinPass s pass st w x).bounded := by
  unfold State.joinPass
  repeat' (first
    | with_reducible assumption | with_reducible apply State.modProbe_bounded | with_reducible apply State.modQuery_bounded
    | with_reducible apply State.modCmd_bounded | dsimp only | split | intro _)

theorem State.startPass_bounded (s : State) (p o st : Nat) (w : Scanned) (ws : List Waiting) (d : CollData) (h : s.bounded) :
    (State.startPass s p o st w ws d).bounded := by
  unfold State.startPass
  repeat' (first
    | with_reducible assumption | with_reducible apply State.joinPass_bounded | with_reducible apply State.assignEngines_bounded
    | with_reducible apply foldl_bounded | dsimp only | split | intro _)

theorem passStart_bounded (p o st : Nat) (w : Scanned) (limitOnly : Bool) (s : State) (h : s.bounded) :
    (passStart p o st w limitOnly s).bounded := by
  unfold passStart
  repeat' (first
    | with_reducible assumption | with_reducible apply State.startPass_bounded | with_reducible apply State.noteVersionWait_bounded
    | with_reducible apply State.assignEngines_bounded | dsimp only | split | intro _)

theorem gatherLimit_bounded (p o st : Nat) (w : Scanned) (s : State) (h : s.bounded) :
    (gatherLimit p o st w s).bounded := by
  unfold gatherLimit
  repeat' (first
    | with_reducible assumption | with_reducible apply passStart_bounded | dsimp only | split | intro _)

theorem State.modPass_bounded (s : State) (id : Nat) (f : Pass → Pass) (h : s.bounded) :
    (State.modPass s id f).bounded := by
  unfold State.modPass
  repeat' (first
    | with_reducible assumption | dsimp only | split | intro _)

theorem State.countScan_bounded (s : State) (st rd em : Nat) (h : s.bounded) :
    (State.countScan s st rd em).bounded := by
  unfold State.countScan
  repeat' (first
    | with_reducible assumption | dsimp only | split | intro _)

theorem State.takeRecords_bounded (s : State) (a : Pass) (d : CollData) (v : Served) (x : Reading) (h : s.bounded) :
    (State.takeRecords s a d v x).bounded := by
  unfold State.takeRecords
  repeat' (first
    | with_reducible assumption | with_reducible apply State.modQuery_bounded | dsimp only | split | intro _)

theorem State.readOn_bounded (s : State) (a : Pass) (hi : Nat → Nat) (h : s.bounded) : (s.readOn a hi).2.bounded := by
  unfold State.readOn
  split
  · exact h
  · dsimp only
    split
    · exact State.bwRequest_bounded _ _ _ _ h
    · exact State.randServed_bounded _ _ (State.countScan_bounded _ _ _ _ (State.modPass_bounded _ _ _ (State.meetRead_bounded _ _
        (foldl_bounded _ _ _ (fun _ _ h => State.takeRecords_bounded _ _ _ _ _ h) (State.bwRequest_bounded _ _ _ _ h)))))

theorem candidateRecord_bounded (st e i slot : Nat) (s : State) (h : s.bounded) :
    (candidateRecord st e i slot s).bounded := by
  unfold candidateRecord
  repeat' (first
    | with_reducible assumption | with_reducible apply State.readOn_bounded | with_reducible apply State.modPass_bounded
    | with_reducible apply State.takeRecords_bounded | dsimp only | split | intro _)

theorem State.deliver_bounded (s : State) (a : Pass) (e : Served × Nat) (h : s.bounded) :
    (State.deliver s a e).bounded := by
  unfold State.deliver
  repeat' (first
    | with_reducible assumption | with_reducible apply State.modQuery_bounded | dsimp only | split | intro _)

theorem State.endSegment_bounded (s : State) (a : Pass) (d : CollData) (h : s.bounded) :
    (State.endSegment s a d).bounded := by
  unfold State.endSegment
  repeat' (first
    | with_reducible assumption | with_reducible apply State.deliver_bounded | with_reducible apply State.assignEngines_bounded
    | with_reducible apply State.driftAdd_bounded | with_reducible apply State.pauseSettle_bounded
    | with_reducible apply State.passEnd_bounded | with_reducible apply State.chargeSegment_bounded
    | with_reducible apply foldl_bounded | dsimp only | split | intro _)

theorem segmentDone_bounded (st e : Nat) (s : State) (h : s.bounded) :
    (segmentDone st e s).bounded := by
  unfold segmentDone
  repeat' (first
    | with_reducible assumption | with_reducible apply State.endSegment_bounded | with_reducible apply State.readOn_bounded
    | with_reducible apply State.chargeSegment_bounded | with_reducible apply State.driftAdd_bounded
    | with_reducible apply State.passEnd_bounded | with_reducible apply State.pauseSettle_bounded
    | with_reducible apply State.assignEngines_bounded | dsimp only | split | intro _)

theorem thetaUpdate_bounded (n i st : Nat) (s : State) (h : s.bounded) :
    (thetaUpdate n i st s).bounded := by
  unfold thetaUpdate
  repeat' (first
    | with_reducible assumption | with_reducible apply State.modQuery_bounded | dsimp only | split | intro _)

theorem scanEngineFault_bounded (st e : Nat) (s : State) (h : s.bounded) :
    (scanEngineFault st e s).bounded := by
  unfold scanEngineFault
  repeat' (first
    | with_reducible assumption | with_reducible apply State.engineLost_bounded | dsimp only | split | intro _)

theorem driftClear_bounded (v : Word32) (s : State) (h : s.bounded) :
    (driftClear v s).bounded := by
  unfold driftClear
  repeat' (first
    | with_reducible assumption | with_reducible apply State.modColl_bounded | dsimp only | split | intro _)

theorem mergeRow_bounded (t : Nat) (wide sim : Bool) (k : Nat) (row : List (Nat × Nat)) (s : State) (h : s.bounded) :
    (mergeRow t wide sim k row s).bounded := by
  unfold mergeRow
  repeat' (first
    | with_reducible assumption | with_reducible apply State.asterHold_bounded | with_reducible apply State.contextFault_bounded
    | with_reducible apply State.modTile_bounded | dsimp only | split | intro _)

end Sys2Proof.Machine
end

