-- ==== Sys2Proof/Laws/BoundsStart.lean ====
section
/-!
SUPPORT. Every function of Machine/Start.lean keeps the bounds of Safety.lean.
-/

namespace Sys2Proof.Machine

theorem State.startUnit_bounded (s : State) (n : Nat) (st : UnitState) (h : s.bounded) :
    (State.startUnit s n st).bounded := by
  unfold State.startUnit
  repeat' (first
    | with_reducible assumption | with_reducible apply State.modTest_bounded | dsimp only | split | intro _)

theorem State.startFails_bounded (s : State) (fails : List Nat) (h : s.bounded) :
    (State.startFails s fails).bounded := by
  unfold State.startFails
  repeat' (first
    | with_reducible assumption | with_reducible apply State.recordFailure_bounded | with_reducible apply foldl_bounded | dsimp only
    | split | intro _)

theorem State.startCluster_bounded (s : State) (ok now : Nat → Bool) (spare : Option Nat) (c : Nat) (h : s.bounded) :
    (State.startCluster s ok now spare c).bounded := by
  unfold State.startCluster
  repeat' (first
    | with_reducible assumption | with_reducible apply State.startUnit_bounded | with_reducible apply State.event_bounded
    | with_reducible apply foldl_bounded | dsimp only | split | intro _)

theorem State.startStack_bounded (s : State) (ok now : Nat → Bool) (st : Nat) (h : s.bounded) :
    (State.startStack s ok now st).bounded := by
  unfold State.startStack
  repeat' (first
    | with_reducible assumption | with_reducible apply State.startUnit_bounded | with_reducible apply State.setSlot_bounded
    | with_reducible apply State.event_bounded | with_reducible apply foldl_bounded | dsimp only | split | intro _)

theorem State.startCapacity_bounded (s : State) (ok now : Nat → Bool) (spare : Nat → Option Nat) (h : s.bounded) :
    (State.startCapacity s ok now spare).bounded := by
  unfold State.startCapacity
  repeat' (first
    | with_reducible assumption | with_reducible apply State.event_bounded | with_reducible apply foldl_bounded | dsimp only | split
    | intro _)

theorem State.selfTest_bounded (s : State) (fails : List Nat) (h : s.bounded) :
    (State.selfTest s fails).bounded := by
  unfold State.selfTest
  repeat' (first
    | with_reducible assumption | with_reducible apply State.startCapacity_bounded | with_reducible apply State.startStack_bounded
    | with_reducible apply State.startCluster_bounded | with_reducible apply State.startFails_bounded
    | with_reducible apply State.startUnit_bounded | with_reducible apply foldl_bounded | dsimp only | split | intro _)

theorem State.trainFail_bounded (s : State) (u ch : Nat) (h : s.bounded) :
    (State.trainFail s u ch).bounded := by
  unfold State.trainFail
  repeat' (first
    | with_reducible assumption | with_reducible apply State.channelFail_bounded | with_reducible apply State.missBlock_bounded
    | with_reducible apply State.modUnit_bounded | with_reducible apply foldl_bounded | dsimp only | split | intro _)

theorem State.startFrame_bounded (s : State) (f : Frame) (h : s.bounded) :
    (State.startFrame s f).bounded := by
  unfold State.startFrame
  repeat' (first
    | with_reducible assumption | with_reducible apply State.driftAdd_bounded | with_reducible apply State.fmtCount_bounded
    | dsimp only | split | intro _)

theorem State.startReady_bounded (s : State) (lv : ResetLevel) (h : s.bounded) :
    (State.startReady s lv).bounded := by
  unfold State.startReady
  repeat' (first
    | with_reducible assumption | with_reducible apply State.event_bounded | dsimp only | split | intro _)

theorem State.startStages_bounded (s : State) (lv : ResetLevel) (channels : List (Nat × Nat)) (fails : List Nat) (h : s.bounded) :
    (State.startStages s lv channels fails).bounded := by
  unfold State.startStages
  repeat' (first
    | with_reducible assumption | with_reducible apply State.startFrame_bounded | with_reducible apply State.trainFail_bounded
    | with_reducible apply State.selfTest_bounded | with_reducible apply State.finishPublish_bounded
    | with_reducible apply foldl_bounded | dsimp only | split | intro _)

theorem resetComplete_bounded (channels : List (Nat × Nat)) (fails : List Nat) (s : State) (h : s.bounded) :
    (resetComplete channels fails s).bounded := by
  unfold resetComplete
  repeat' (first
    | with_reducible assumption | with_reducible apply State.startStages_bounded | with_reducible apply State.startReady_bounded
    | dsimp only | split | intro _)

end Sys2Proof.Machine
end

