-- ==== Sys2Proof/Laws/BoundsTiles.lean ====
section
/-!
SUPPORT. Every function of Machine/Tiles.lean keeps the bounds of Safety.lean.
-/

namespace Sys2Proof.Machine

theorem State.takeTile_bounded (s : State) (n t : Nat) (h : s.bounded) : (s.takeTile n t).1.bounded := by
  unfold State.takeTile
  split
  · exact h
  · dsimp only
    split
    · exact State.modTile_bounded _ _ _ (State.wakeTile_bounded _ _ h)
    · exact State.wakeTile_bounded _ _ h

theorem State.issue_bounded (s : State) (n t : Nat) (f : Tile → TileDone) (h : s.bounded) :
    (State.issue s n t f).bounded := by
  unfold State.issue
  repeat' (first
    | with_reducible assumption | with_reducible apply State.takeTile_bounded | with_reducible apply State.contextFault_bounded
    | with_reducible apply State.fmtCount_bounded | with_reducible apply State.modTile_bounded | dsimp only | split | intro _)

theorem drainStep_bounded (n t : Nat) (y : Bool) (v : Word64) (s : State) (h : s.bounded) :
    (drainStep n t y v s).bounded := by
  unfold drainStep
  repeat' (first
    | with_reducible assumption | with_reducible apply State.issue_bounded | dsimp only | split | intro _)

theorem drainDone_bounded (t : Nat) (s : State) (h : s.bounded) :
    (drainDone t s).bounded := by
  unfold drainDone
  repeat' (first
    | with_reducible assumption | with_reducible apply State.modTile_bounded | dsimp only | split | intro _)

theorem vectorStep_bounded (n t : Nat) (op : Sys2Proof.VecOp) (s : State) (h : s.bounded) :
    (vectorStep n t op s).bounded := by
  unfold vectorStep
  repeat' (first
    | with_reducible assumption | with_reducible apply State.issue_bounded | dsimp only | split | intro _)

theorem fmtCtlWrite_bounded (v : Word32) (s : State) (h : s.bounded) :
    (fmtCtlWrite v s).bounded := by
  unfold fmtCtlWrite
  repeat' (first
    | with_reducible assumption | dsimp only | split | intro _)

end Sys2Proof.Machine
end

