-- ==== Sys2Proof/Laws/BoundsRegWrite.lean ====
section
/-!
SUPPORT. Every function of Machine/RegWrite.lean keeps the bounds of Safety.lean.
-/

namespace Sys2Proof.Machine

theorem writeHif_bounded (o : Nat) (v : Word32) (s : State) (h : s.bounded) :
    (writeHif o v s).bounded := by
  unfold writeHif
  repeat' (first
    | with_reducible assumption | with_reducible apply deviceReset_bounded | with_reducible apply biasFlip_bounded
    | with_reducible apply controlWrite_bounded | dsimp only | split | intro _)

theorem and_high_mod (a : Nat) : (a &&& 0xFFFF0000) % 65536 = 0 := by
  rw [show (65536 : Nat) = 2 ^ 16 from rfl, Nat.and_mod_two_pow]
  simp

/-- The low 16-bit field of a word reads as it was set. -/
theorem fld_setFld_low16 (r : Word32) (v : Nat) : fld (setFld r 0 16 v) 0 16 = v % 65536 := by
  have hm : (~~~(BitVec.ofNat 32 ((2 ^ 16 - 1) <<< 0))).toNat = 0xFFFF0000 := by decide
  have hv : (BitVec.ofNat 32 ((v % 2 ^ 16) <<< 0)).toNat = v % 65536 := by
    simp only [Nat.shiftLeft_zero, BitVec.toNat_ofNat]
    omega
  unfold fld bitsOf setFld
  dsimp only
  rw [BitVec.toNat_or, BitVec.toNat_and, hm, hv, Nat.shiftRight_zero, Nat.or_mod_two_pow,
    show (2 ^ 16 : Nat) = 65536 from rfl, and_high_mod, Nat.zero_or]
  omega

/-- QM_RING_QOS as stored holds a LAT_BOUND in range (R80). -/
theorem qosStored_latBound (v : Word32) : 200 ≤ qosBound (qosStored v) ∧ qosBound (qosStored v) ≤ 50000 := by
  unfold qosBound qosStored clampFld clampN
  rw [fld_setFld_low16]
  omega

/-- A change of one ring pair that leaves a LAT_BOUND in range keeps the bounds. -/
theorem State.modRing_qos_bounded (s : State) (p : Nat) (f : Ring → Ring) (hf : ∀ r, latBoundOk r → latBoundOk (f r)) (h : s.bounded) :
    (s.modRing p f).bounded := by
  obtain ⟨h1, h2, h3, h4, h5, h6, h7⟩ := h
  refine ⟨h1, h2, h3, h4, h5, ?_, h7⟩
  intro r hr
  rcases mem_tset _ _ _ _ hr with e | m
  · subst e
    exact hf _ (tget_latBoundOk s.qm.rings p h6)
  · exact h6 r m

theorem writeQm_bounded (o : Nat) (v : Word32) (s : State) (h : s.bounded) : (writeQm o v s).bounded := by
  unfold writeQm
  dsimp only
  split
  · exact h
  · refine State.modRing_bounded _ _ _ (fun r => ?_) h
    split <;> rfl
  · exact irqWrite_bounded _ _ _ h
  · exact State.modRing_qos_bounded _ _ _ (fun _ _ => qosStored_latBound v) h
  · split
    · exact ringCreate_bounded _ _ h
    · exact ringDestroy_bounded _ _ h
    · exact destroyForce_bounded _ _ h
    · exact h
  · exact State.modRing_bounded _ _ _ (fun _ => rfl) h
  · exact h

theorem partCmd_bounded (v : Word32) (s : State) (h : s.bounded) :
    (partCmd v s).bounded := by
  unfold partCmd
  repeat' (first
    | with_reducible assumption | with_reducible apply partitionEnable_bounded | with_reducible apply partitionReset_bounded
    | with_reducible apply disableForce_bounded | with_reducible apply disable_bounded | with_reducible apply State.partErr_bounded
    | with_reducible apply place_bounded | dsimp only | split | intro _)

theorem writeSch_bounded (o : Nat) (v : Word32) (s : State) (h : s.bounded) :
    (writeSch o v s).bounded := by
  unfold writeSch
  repeat' (first
    | with_reducible assumption | with_reducible apply partCmd_bounded | with_reducible apply contextDestroy_bounded
    | with_reducible apply contextCreate_bounded | with_reducible apply State.free_bounded
    | with_reducible apply State.modCtx_bounded | with_reducible apply State.modPart_bounded | dsimp only | split | intro _)

theorem writePwr_bounded (o : Nat) (v : Word32) (s : State) (h : s.bounded) :
    (writePwr o v s).bounded := by
  unfold writePwr
  repeat' (first
    | with_reducible assumption | with_reducible apply State.boostDrop_bounded | dsimp only | split | intro _)

theorem writeThm_bounded (o : Nat) (v : Word32) (s : State) (h : s.bounded) :
    (writeThm o v s).bounded := by
  unfold writeThm
  repeat' (first
    | with_reducible assumption | dsimp only | split | intro _)

theorem State.errClear_bounded (s : State) (i : Nat) (v : Word32) (h : s.bounded) :
    (State.errClear s i v).bounded := by
  unfold State.errClear
  repeat' (first
    | with_reducible assumption | dsimp only | split | intro _)

theorem writeMem_bounded (o : Nat) (v : Word32) (s : State) (h : s.bounded) :
    (writeMem o v s).bounded := by
  unfold writeMem
  repeat' (first
    | with_reducible assumption | with_reducible apply State.errClear_bounded | with_reducible apply driftClear_bounded
    | with_reducible apply farHostWrite_bounded | with_reducible apply marginTest_bounded | with_reducible apply repairCtl_bounded
    | dsimp only | split | intro _)

theorem writeJrn_bounded (o : Nat) (v : Word32) (s : State) (h : s.bounded) :
    (writeJrn o v s).bounded := by
  unfold writeJrn
  repeat' (first
    | with_reducible assumption | with_reducible apply xferCtl_bounded | with_reducible apply snapDelete_bounded
    | with_reducible apply twinWrite_bounded | dsimp only | split | intro _)

theorem writeRest_bounded (o : Nat) (v : Word32) (s : State) (h : s.bounded) :
    (writeRest o v s).bounded := by
  unfold writeRest
  repeat' (first
    | with_reducible assumption | with_reducible apply fmtCtlWrite_bounded | with_reducible apply fwuActivate_bounded
    | with_reducible apply fwuAbort_bounded | with_reducible apply tstRetest_bounded | dsimp only | split | intro _)

theorem writeMsix_bounded (o : Nat) (v : Word32) (s : State) (h : s.bounded) :
    (writeMsix o v s).bounded := by
  unfold writeMsix
  repeat' (first
    | with_reducible assumption | with_reducible apply msixUnmask_bounded | dsimp only | split | intro _)

theorem write32_bounded (o : Nat) (v : Word32) (s : State) (h : s.bounded) :
    (write32 o v s).bounded := by
  unfold write32
  repeat' (first
    | with_reducible assumption | with_reducible apply writeMsix_bounded | with_reducible apply writeRest_bounded
    | with_reducible apply writeJrn_bounded | with_reducible apply writeMem_bounded | with_reducible apply writeThm_bounded
    | with_reducible apply writePwr_bounded | with_reducible apply writeSch_bounded | with_reducible apply writeQm_bounded
    | with_reducible apply writeHif_bounded | with_reducible apply hdmWrite_bounded | dsimp only | split | intro _)

theorem write64_bounded (o : Nat) (v : Word64) (s : State) (h : s.bounded) :
    (write64 o v s).bounded := by
  unfold write64
  repeat' (first
    | with_reducible assumption | with_reducible apply xferHost_bounded | with_reducible apply hifTodCommit_bounded
    | with_reducible apply evtSelect_bounded | with_reducible apply State.free_bounded | with_reducible apply State.modPart_bounded
    | with_reducible apply State.modRing_bounded | dsimp only | split | intro _)

theorem State.noteLow_bounded (s : State) (o v : Nat) (h : s.bounded) :
    (State.noteLow s o v).bounded := by
  unfold State.noteLow
  repeat' (first
    | with_reducible assumption | dsimp only | split | intro _)

theorem writeWord_bounded (o : Nat) (v : Word32) (s : State) (h : s.bounded) :
    (writeWord o v s).bounded := by
  unfold writeWord
  repeat' (first
    | with_reducible assumption | with_reducible apply State.noteLow_bounded | with_reducible apply write64_bounded
    | with_reducible apply write32_bounded | dsimp only | split | intro _)

theorem writePair_bounded (o : Nat) (lo hi : Word32) (s : State) (h : s.bounded) :
    (writePair o lo hi s).bounded := by
  unfold writePair
  repeat' (first
    | with_reducible assumption | with_reducible apply write32_bounded | dsimp only | split | intro _)

theorem registerWrite_bounded (o : Nat) (wide : Bool) (v : Word64) (s : State) (h : s.bounded) :
    (registerWrite o wide v s).bounded := by
  unfold registerWrite
  repeat' (first
    | with_reducible assumption | with_reducible apply writePair_bounded | with_reducible apply writeWord_bounded
    | with_reducible apply State.noteLow_bounded | with_reducible apply write64_bounded | with_reducible apply badAccess_bounded
    | with_reducible apply deviceReset_bounded | dsimp only | split | intro _)

end Sys2Proof.Machine
end

