-- ==== Sys2Proof/Laws/BoundsPldm.lean ====
section
/-!
SUPPORT. Every function of Machine/Pldm.lean keeps the bounds of Safety.lean.
-/

namespace Sys2Proof.Machine

theorem pldmGetSensor_bounded (i3c : Bool) (n : Sys2Proof.PldmSensor) (s : State) (h : s.bounded) :
    (pldmGetSensor i3c n s).bounded := by
  unfold pldmGetSensor
  repeat' (first
    | with_reducible assumption | with_reducible apply State.pldm_bounded | with_reducible apply State.reply_bounded | dsimp only
    | split | intro _)

theorem pldmSetEffecter_bounded (i3c : Bool) (watts : Nat) (s : State) (h : s.bounded) :
    (pldmSetEffecter i3c watts s).bounded := by
  unfold pldmSetEffecter
  repeat' (first
    | with_reducible assumption | with_reducible apply State.pldm_bounded | with_reducible apply State.reply_bounded | dsimp only
    | split | intro _)

theorem pldmFruRead_bounded (i3c : Bool) (s : State) (h : s.bounded) :
    (pldmFruRead i3c s).bounded := by
  unfold pldmFruRead
  repeat' (first
    | with_reducible assumption | with_reducible apply State.pldm_bounded | with_reducible apply State.reply_bounded
    | with_reducible apply State.life_bounded | dsimp only | split | intro _)

end Sys2Proof.Machine
end

