-- ==== Sys2Proof/Laws/BoundsStreams.lean ====
section
/-!
SUPPORT. Every function of Machine/Streams.lean keeps the bounds of Safety.lean.
-/

namespace Sys2Proof.Machine

theorem State.issueTags_bounded (s : State) (tile : Nat) (h : s.bounded) :
    (State.issueTags s tile).bounded := by
  unfold State.issueTags
  repeat' (first
    | with_reducible assumption | dsimp only | split | intro _)

theorem streamDescriptor_bounded (n t : Nat) (d : Desc) (s : State) (h : s.bounded) :
    (streamDescriptor n t d s).bounded := by
  unfold streamDescriptor
  repeat' (first
    | with_reducible assumption | with_reducible apply State.issueTags_bounded | with_reducible apply State.takeTile_bounded
    | with_reducible apply State.wdogFire_bounded | with_reducible apply State.contextFault_bounded
    | with_reducible apply State.modTile_bounded | dsimp only | split | intro _)

theorem State.modStream_bounded (s : State) (id : Nat) (f : Stream → Stream) (h : s.bounded) :
    (State.modStream s id f).bounded := by
  unfold State.modStream
  repeat' (first
    | with_reducible assumption | dsimp only | split | intro _)

theorem streamAdmit_bounded (id : Nat) (s : State) (h : s.bounded) :
    (streamAdmit id s).bounded := by
  unfold streamAdmit
  repeat' (first
    | with_reducible assumption | with_reducible apply State.modStream_bounded | with_reducible apply State.issueTags_bounded
    | with_reducible apply State.reserve_bounded | with_reducible apply State.restoreFree_bounded | dsimp only | split | intro _)

theorem State.streamWrite_bounded {s u : State} {c : Cmd} {d : Desc} {e o : Nat} {bs : List Byte}
    (eq : s.streamWrite c d e o bs = .ok u) (h : s.bounded) : u.bounded := by
  unfold State.streamWrite at eq
  dsimp only at eq
  generalize (dAddr d (if dDstSpace d = 2 then spOff (dDst d) else dDst d) (dDstStride d) e + o) = a at eq
  split at eq
  · simp only [Except.ok.injEq] at eq
    rw [← eq]; exact State.devWrite_bounded _ _ _ h
  · split at eq
    · simp only [Except.ok.injEq] at eq
      rw [← eq]; exact State.hostWrite_bounded _ _ _ h
    · simp at eq
  · simp only [Except.ok.injEq] at eq
    rw [← eq]
    exact foldl_bounded _ _ _ (fun s x h => State.modTile_bounded _ _ _ h) h

theorem State.streamMet_bounded (s : State) (d : Desc) (e o n : Nat) (h : s.bounded) :
    (State.streamMet s d e o n).bounded := by
  unfold State.streamMet
  repeat' (first
    | with_reducible assumption | with_reducible apply State.meetRead_bounded | dsimp only | split | intro _)

theorem tagLanded_bounded (id e k : Nat) (s : State) (h : s.bounded) :
    (tagLanded id e k s).bounded := by
  unfold tagLanded
  repeat' (first
    | with_reducible assumption | with_reducible apply State.streamMet_bounded | with_reducible apply State.modStream_bounded
    | with_reducible apply State.issueTags_bounded | with_reducible apply State.abortCmd_bounded
    | with_reducible apply State.bwCharge_bounded | with_reducible apply State.stop_bounded
    | with_reducible apply State.settle_bounded | with_reducible apply State.modCmd_bounded | with_reducible apply foldl_bounded
    | dsimp only | split | intro _ | (with_reducible refine State.streamWrite_bounded (by assumption) ?_))

theorem streamResume_bounded (id : Nat) (s : State) (h : s.bounded) :
    (streamResume id s).bounded := by
  unfold streamResume
  repeat' (first
    | with_reducible assumption | with_reducible apply State.modStream_bounded | with_reducible apply State.issueTags_bounded
    | with_reducible apply State.modCmd_bounded | dsimp only | split | intro _)

theorem dmaEngineFault_bounded (id : Nat) (host : Bool) (s : State) (h : s.bounded) :
    (dmaEngineFault id host s).bounded := by
  unfold dmaEngineFault
  repeat' (first
    | with_reducible assumption | with_reducible apply State.abortCmd_bounded | dsimp only | split | intro _)

theorem atomic_bounded (n : Nat) (s : State) (h : s.bounded) :
    (atomic n s).bounded := by
  unfold atomic
  repeat' (first
    | with_reducible assumption | with_reducible apply State.refuse_bounded | with_reducible apply State.bwRequest_bounded
    | with_reducible apply State.devMemPut_bounded | with_reducible apply State.wcbDrop_bounded
    | with_reducible apply State.bufMet_bounded | with_reducible apply State.meetRead_bounded
    | with_reducible apply State.complete_bounded | with_reducible apply State.randServed_bounded | dsimp only | split | intro _)

end Sys2Proof.Machine
end

