-- ==== Sys2Proof/Laws/BoundsTick.lean ====
section
/-!
SUPPORT. Every function of Machine/Tick.lean keeps the bounds of Safety.lean.
-/

namespace Sys2Proof.Machine

theorem State.engineTime_bounded (s : State) (t : Nat) (h : s.bounded) :
    (State.engineTime s t).bounded := by
  unfold State.engineTime
  repeat' (first
    | with_reducible assumption | with_reducible apply State.chargeEngine_bounded | with_reducible apply foldl_bounded | dsimp only
    | split | intro _)

theorem tick_bounded (s : State) (h : s.bounded) : (tick s).bounded := by
  unfold tick
  dsimp only
  split
  · exact State.timer_bounded _ _ (State.engineTime_bounded _ _ (State.powerTime_bounded _ _ (State.capRefresh_bounded _ h)))
  · exact h

end Sys2Proof.Machine
end

