-- ==== Sys2Proof/Laws/BoundsStep.lean ====
section
/-!
SUPPORT. Every function of Machine/Step.lean keeps the bounds of Safety.lean.
-/

namespace Sys2Proof.Machine

theorem State.withFetchWord_bounded (s : State) (nbits w : Nat) (h : s.bounded) :
    (State.withFetchWord s nbits w).bounded := by
  unfold State.withFetchWord
  repeat' (first
    | with_reducible assumption | dsimp only | split | intro _)

end Sys2Proof.Machine
end

