-- ==== Sys2Proof/Laws/State.lean ====
section
/-!
SUPPORT. What each named update of the state leaves alone, one lemma per field, true by definition; and what the entry
that it changes then holds.
-/

namespace Sys2Proof.Machine

@[simp] theorem State.modRing_module (s : State) (p : Nat) (f : Ring → Ring) : (State.modRing s p f).module = s.module := rfl
@[simp] theorem State.modRing_hif (s : State) (p : Nat) (f : Ring → Ring) : (State.modRing s p f).hif = s.hif := rfl
@[simp] theorem State.modRing_sch (s : State) (p : Nat) (f : Ring → Ring) : (State.modRing s p f).sch = s.sch := rfl
@[simp] theorem State.modRing_pwr (s : State) (p : Nat) (f : Ring → Ring) : (State.modRing s p f).pwr = s.pwr := rfl
@[simp] theorem State.modRing_thm (s : State) (p : Nat) (f : Ring → Ring) : (State.modRing s p f).thm = s.thm := rfl
@[simp] theorem State.modRing_mgt (s : State) (p : Nat) (f : Ring → Ring) : (State.modRing s p f).mgt = s.mgt := rfl
@[simp] theorem State.modRing_tst (s : State) (p : Nat) (f : Ring → Ring) : (State.modRing s p f).tst = s.tst := rfl
@[simp] theorem State.modRing_scan (s : State) (p : Nat) (f : Ring → Ring) : (State.modRing s p f).scan = s.scan := rfl
@[simp] theorem State.modRing_colls (s : State) (p : Nat) (f : Ring → Ring) : (State.modRing s p f).colls = s.colls := rfl
@[simp] theorem State.modRing_jrn (s : State) (p : Nat) (f : Ring → Ring) : (State.modRing s p f).jrn = s.jrn := rfl
@[simp] theorem State.modRing_mem (s : State) (p : Nat) (f : Ring → Ring) : (State.modRing s p f).mem = s.mem := rfl
@[simp] theorem State.modRing_models (s : State) (p : Nat) (f : Ring → Ring) : (State.modRing s p f).models = s.models := rfl
@[simp] theorem State.modRing_tiles (s : State) (p : Nat) (f : Ring → Ring) : (State.modRing s p f).tiles = s.tiles := rfl
@[simp] theorem State.modRing_sec (s : State) (p : Nat) (f : Ring → Ring) : (State.modRing s p f).sec = s.sec := rfl
@[simp] theorem State.modRing_fmt (s : State) (p : Nat) (f : Ring → Ring) : (State.modRing s p f).fmt = s.fmt := rfl
@[simp] theorem State.modRing_hostMem (s : State) (p : Nat) (f : Ring → Ring) : (State.modRing s p f).hostMem = s.hostMem := rfl
@[simp] theorem State.modRing_hostBad (s : State) (p : Nat) (f : Ring → Ring) : (State.modRing s p f).hostBad = s.hostBad := rfl
@[simp] theorem State.modRing_freeCtr (s : State) (p : Nat) (f : Ring → Ring) : (State.modRing s p f).freeCtr = s.freeCtr := rfl
@[simp] theorem State.modRing_pending (s : State) (p : Nat) (f : Ring → Ring) : (State.modRing s p f).pending = s.pending := rfl
@[simp] theorem State.modPart_module (s : State) (p : Nat) (f : Partition → Partition) : (State.modPart s p f).module = s.module := rfl
@[simp] theorem State.modPart_hif (s : State) (p : Nat) (f : Partition → Partition) : (State.modPart s p f).hif = s.hif := rfl
@[simp] theorem State.modPart_qm (s : State) (p : Nat) (f : Partition → Partition) : (State.modPart s p f).qm = s.qm := rfl
@[simp] theorem State.modPart_pwr (s : State) (p : Nat) (f : Partition → Partition) : (State.modPart s p f).pwr = s.pwr := rfl
@[simp] theorem State.modPart_thm (s : State) (p : Nat) (f : Partition → Partition) : (State.modPart s p f).thm = s.thm := rfl
@[simp] theorem State.modPart_mgt (s : State) (p : Nat) (f : Partition → Partition) : (State.modPart s p f).mgt = s.mgt := rfl
@[simp] theorem State.modPart_tst (s : State) (p : Nat) (f : Partition → Partition) : (State.modPart s p f).tst = s.tst := rfl
@[simp] theorem State.modPart_scan (s : State) (p : Nat) (f : Partition → Partition) : (State.modPart s p f).scan = s.scan := rfl
@[simp] theorem State.modPart_colls (s : State) (p : Nat) (f : Partition → Partition) : (State.modPart s p f).colls = s.colls := rfl
@[simp] theorem State.modPart_jrn (s : State) (p : Nat) (f : Partition → Partition) : (State.modPart s p f).jrn = s.jrn := rfl
@[simp] theorem State.modPart_mem (s : State) (p : Nat) (f : Partition → Partition) : (State.modPart s p f).mem = s.mem := rfl
@[simp] theorem State.modPart_models (s : State) (p : Nat) (f : Partition → Partition) : (State.modPart s p f).models = s.models := rfl
@[simp] theorem State.modPart_tiles (s : State) (p : Nat) (f : Partition → Partition) : (State.modPart s p f).tiles = s.tiles := rfl
@[simp] theorem State.modPart_sec (s : State) (p : Nat) (f : Partition → Partition) : (State.modPart s p f).sec = s.sec := rfl
@[simp] theorem State.modPart_fmt (s : State) (p : Nat) (f : Partition → Partition) : (State.modPart s p f).fmt = s.fmt := rfl
@[simp] theorem State.modPart_hostMem (s : State) (p : Nat) (f : Partition → Partition) : (State.modPart s p f).hostMem = s.hostMem := rfl
@[simp] theorem State.modPart_hostBad (s : State) (p : Nat) (f : Partition → Partition) : (State.modPart s p f).hostBad = s.hostBad := rfl
@[simp] theorem State.modPart_freeCtr (s : State) (p : Nat) (f : Partition → Partition) : (State.modPart s p f).freeCtr = s.freeCtr := rfl
@[simp] theorem State.modPart_pending (s : State) (p : Nat) (f : Partition → Partition) : (State.modPart s p f).pending = s.pending := rfl
@[simp] theorem State.modCtx_module (s : State) (c : Nat) (f : Context → Context) : (State.modCtx s c f).module = s.module := rfl
@[simp] theorem State.modCtx_hif (s : State) (c : Nat) (f : Context → Context) : (State.modCtx s c f).hif = s.hif := rfl
@[simp] theorem State.modCtx_qm (s : State) (c : Nat) (f : Context → Context) : (State.modCtx s c f).qm = s.qm := rfl
@[simp] theorem State.modCtx_pwr (s : State) (c : Nat) (f : Context → Context) : (State.modCtx s c f).pwr = s.pwr := rfl
@[simp] theorem State.modCtx_thm (s : State) (c : Nat) (f : Context → Context) : (State.modCtx s c f).thm = s.thm := rfl
@[simp] theorem State.modCtx_mgt (s : State) (c : Nat) (f : Context → Context) : (State.modCtx s c f).mgt = s.mgt := rfl
@[simp] theorem State.modCtx_tst (s : State) (c : Nat) (f : Context → Context) : (State.modCtx s c f).tst = s.tst := rfl
@[simp] theorem State.modCtx_scan (s : State) (c : Nat) (f : Context → Context) : (State.modCtx s c f).scan = s.scan := rfl
@[simp] theorem State.modCtx_colls (s : State) (c : Nat) (f : Context → Context) : (State.modCtx s c f).colls = s.colls := rfl
@[simp] theorem State.modCtx_jrn (s : State) (c : Nat) (f : Context → Context) : (State.modCtx s c f).jrn = s.jrn := rfl
@[simp] theorem State.modCtx_mem (s : State) (c : Nat) (f : Context → Context) : (State.modCtx s c f).mem = s.mem := rfl
@[simp] theorem State.modCtx_models (s : State) (c : Nat) (f : Context → Context) : (State.modCtx s c f).models = s.models := rfl
@[simp] theorem State.modCtx_tiles (s : State) (c : Nat) (f : Context → Context) : (State.modCtx s c f).tiles = s.tiles := rfl
@[simp] theorem State.modCtx_sec (s : State) (c : Nat) (f : Context → Context) : (State.modCtx s c f).sec = s.sec := rfl
@[simp] theorem State.modCtx_fmt (s : State) (c : Nat) (f : Context → Context) : (State.modCtx s c f).fmt = s.fmt := rfl
@[simp] theorem State.modCtx_hostMem (s : State) (c : Nat) (f : Context → Context) : (State.modCtx s c f).hostMem = s.hostMem := rfl
@[simp] theorem State.modCtx_hostBad (s : State) (c : Nat) (f : Context → Context) : (State.modCtx s c f).hostBad = s.hostBad := rfl
@[simp] theorem State.modCtx_freeCtr (s : State) (c : Nat) (f : Context → Context) : (State.modCtx s c f).freeCtr = s.freeCtr := rfl
@[simp] theorem State.modCtx_pending (s : State) (c : Nat) (f : Context → Context) : (State.modCtx s c f).pending = s.pending := rfl
@[simp] theorem State.modColl_module (s : State) (c : Nat) (f : Coll → Coll) : (State.modColl s c f).module = s.module := rfl
@[simp] theorem State.modColl_hif (s : State) (c : Nat) (f : Coll → Coll) : (State.modColl s c f).hif = s.hif := rfl
@[simp] theorem State.modColl_qm (s : State) (c : Nat) (f : Coll → Coll) : (State.modColl s c f).qm = s.qm := rfl
@[simp] theorem State.modColl_sch (s : State) (c : Nat) (f : Coll → Coll) : (State.modColl s c f).sch = s.sch := rfl
@[simp] theorem State.modColl_pwr (s : State) (c : Nat) (f : Coll → Coll) : (State.modColl s c f).pwr = s.pwr := rfl
@[simp] theorem State.modColl_thm (s : State) (c : Nat) (f : Coll → Coll) : (State.modColl s c f).thm = s.thm := rfl
@[simp] theorem State.modColl_mgt (s : State) (c : Nat) (f : Coll → Coll) : (State.modColl s c f).mgt = s.mgt := rfl
@[simp] theorem State.modColl_tst (s : State) (c : Nat) (f : Coll → Coll) : (State.modColl s c f).tst = s.tst := rfl
@[simp] theorem State.modColl_scan (s : State) (c : Nat) (f : Coll → Coll) : (State.modColl s c f).scan = s.scan := rfl
@[simp] theorem State.modColl_jrn (s : State) (c : Nat) (f : Coll → Coll) : (State.modColl s c f).jrn = s.jrn := rfl
@[simp] theorem State.modColl_mem (s : State) (c : Nat) (f : Coll → Coll) : (State.modColl s c f).mem = s.mem := rfl
@[simp] theorem State.modColl_models (s : State) (c : Nat) (f : Coll → Coll) : (State.modColl s c f).models = s.models := rfl
@[simp] theorem State.modColl_tiles (s : State) (c : Nat) (f : Coll → Coll) : (State.modColl s c f).tiles = s.tiles := rfl
@[simp] theorem State.modColl_sec (s : State) (c : Nat) (f : Coll → Coll) : (State.modColl s c f).sec = s.sec := rfl
@[simp] theorem State.modColl_fmt (s : State) (c : Nat) (f : Coll → Coll) : (State.modColl s c f).fmt = s.fmt := rfl
@[simp] theorem State.modColl_hostMem (s : State) (c : Nat) (f : Coll → Coll) : (State.modColl s c f).hostMem = s.hostMem := rfl
@[simp] theorem State.modColl_hostBad (s : State) (c : Nat) (f : Coll → Coll) : (State.modColl s c f).hostBad = s.hostBad := rfl
@[simp] theorem State.modColl_freeCtr (s : State) (c : Nat) (f : Coll → Coll) : (State.modColl s c f).freeCtr = s.freeCtr := rfl
@[simp] theorem State.modColl_pending (s : State) (c : Nat) (f : Coll → Coll) : (State.modColl s c f).pending = s.pending := rfl
@[simp] theorem State.modTile_module (s : State) (t : Nat) (f : Tile → Tile) : (State.modTile s t f).module = s.module := rfl
@[simp] theorem State.modTile_hif (s : State) (t : Nat) (f : Tile → Tile) : (State.modTile s t f).hif = s.hif := rfl
@[simp] theorem State.modTile_qm (s : State) (t : Nat) (f : Tile → Tile) : (State.modTile s t f).qm = s.qm := rfl
@[simp] theorem State.modTile_sch (s : State) (t : Nat) (f : Tile → Tile) : (State.modTile s t f).sch = s.sch := rfl
@[simp] theorem State.modTile_pwr (s : State) (t : Nat) (f : Tile → Tile) : (State.modTile s t f).pwr = s.pwr := rfl
@[simp] theorem State.modTile_thm (s : State) (t : Nat) (f : Tile → Tile) : (State.modTile s t f).thm = s.thm := rfl
@[simp] theorem State.modTile_mgt (s : State) (t : Nat) (f : Tile → Tile) : (State.modTile s t f).mgt = s.mgt := rfl
@[simp] theorem State.modTile_tst (s : State) (t : Nat) (f : Tile → Tile) : (State.modTile s t f).tst = s.tst := rfl
@[simp] theorem State.modTile_scan (s : State) (t : Nat) (f : Tile → Tile) : (State.modTile s t f).scan = s.scan := rfl
@[simp] theorem State.modTile_colls (s : State) (t : Nat) (f : Tile → Tile) : (State.modTile s t f).colls = s.colls := rfl
@[simp] theorem State.modTile_jrn (s : State) (t : Nat) (f : Tile → Tile) : (State.modTile s t f).jrn = s.jrn := rfl
@[simp] theorem State.modTile_mem (s : State) (t : Nat) (f : Tile → Tile) : (State.modTile s t f).mem = s.mem := rfl
@[simp] theorem State.modTile_models (s : State) (t : Nat) (f : Tile → Tile) : (State.modTile s t f).models = s.models := rfl
@[simp] theorem State.modTile_sec (s : State) (t : Nat) (f : Tile → Tile) : (State.modTile s t f).sec = s.sec := rfl
@[simp] theorem State.modTile_fmt (s : State) (t : Nat) (f : Tile → Tile) : (State.modTile s t f).fmt = s.fmt := rfl
@[simp] theorem State.modTile_hostMem (s : State) (t : Nat) (f : Tile → Tile) : (State.modTile s t f).hostMem = s.hostMem := rfl
@[simp] theorem State.modTile_hostBad (s : State) (t : Nat) (f : Tile → Tile) : (State.modTile s t f).hostBad = s.hostBad := rfl
@[simp] theorem State.modTile_freeCtr (s : State) (t : Nat) (f : Tile → Tile) : (State.modTile s t f).freeCtr = s.freeCtr := rfl
@[simp] theorem State.modTile_pending (s : State) (t : Nat) (f : Tile → Tile) : (State.modTile s t f).pending = s.pending := rfl
@[simp] theorem State.mapCmds_module (s : State) (f : Cmd → Cmd) : (State.mapCmds s f).module = s.module := rfl
@[simp] theorem State.mapCmds_hif (s : State) (f : Cmd → Cmd) : (State.mapCmds s f).hif = s.hif := rfl
@[simp] theorem State.mapCmds_sch (s : State) (f : Cmd → Cmd) : (State.mapCmds s f).sch = s.sch := rfl
@[simp] theorem State.mapCmds_pwr (s : State) (f : Cmd → Cmd) : (State.mapCmds s f).pwr = s.pwr := rfl
@[simp] theorem State.mapCmds_thm (s : State) (f : Cmd → Cmd) : (State.mapCmds s f).thm = s.thm := rfl
@[simp] theorem State.mapCmds_mgt (s : State) (f : Cmd → Cmd) : (State.mapCmds s f).mgt = s.mgt := rfl
@[simp] theorem State.mapCmds_tst (s : State) (f : Cmd → Cmd) : (State.mapCmds s f).tst = s.tst := rfl
@[simp] theorem State.mapCmds_scan (s : State) (f : Cmd → Cmd) : (State.mapCmds s f).scan = s.scan := rfl
@[simp] theorem State.mapCmds_colls (s : State) (f : Cmd → Cmd) : (State.mapCmds s f).colls = s.colls := rfl
@[simp] theorem State.mapCmds_jrn (s : State) (f : Cmd → Cmd) : (State.mapCmds s f).jrn = s.jrn := rfl
@[simp] theorem State.mapCmds_mem (s : State) (f : Cmd → Cmd) : (State.mapCmds s f).mem = s.mem := rfl
@[simp] theorem State.mapCmds_models (s : State) (f : Cmd → Cmd) : (State.mapCmds s f).models = s.models := rfl
@[simp] theorem State.mapCmds_tiles (s : State) (f : Cmd → Cmd) : (State.mapCmds s f).tiles = s.tiles := rfl
@[simp] theorem State.mapCmds_sec (s : State) (f : Cmd → Cmd) : (State.mapCmds s f).sec = s.sec := rfl
@[simp] theorem State.mapCmds_fmt (s : State) (f : Cmd → Cmd) : (State.mapCmds s f).fmt = s.fmt := rfl
@[simp] theorem State.mapCmds_hostMem (s : State) (f : Cmd → Cmd) : (State.mapCmds s f).hostMem = s.hostMem := rfl
@[simp] theorem State.mapCmds_hostBad (s : State) (f : Cmd → Cmd) : (State.mapCmds s f).hostBad = s.hostBad := rfl
@[simp] theorem State.mapCmds_freeCtr (s : State) (f : Cmd → Cmd) : (State.mapCmds s f).freeCtr = s.freeCtr := rfl
@[simp] theorem State.mapCmds_pending (s : State) (f : Cmd → Cmd) : (State.mapCmds s f).pending = s.pending := rfl
@[simp] theorem State.modCmd_module (s : State) (n : Nat) (f : Cmd → Cmd) : (State.modCmd s n f).module = s.module := rfl
@[simp] theorem State.modCmd_hif (s : State) (n : Nat) (f : Cmd → Cmd) : (State.modCmd s n f).hif = s.hif := rfl
@[simp] theorem State.modCmd_sch (s : State) (n : Nat) (f : Cmd → Cmd) : (State.modCmd s n f).sch = s.sch := rfl
@[simp] theorem State.modCmd_pwr (s : State) (n : Nat) (f : Cmd → Cmd) : (State.modCmd s n f).pwr = s.pwr := rfl
@[simp] theorem State.modCmd_thm (s : State) (n : Nat) (f : Cmd → Cmd) : (State.modCmd s n f).thm = s.thm := rfl
@[simp] theorem State.modCmd_mgt (s : State) (n : Nat) (f : Cmd → Cmd) : (State.modCmd s n f).mgt = s.mgt := rfl
@[simp] theorem State.modCmd_tst (s : State) (n : Nat) (f : Cmd → Cmd) : (State.modCmd s n f).tst = s.tst := rfl
@[simp] theorem State.modCmd_scan (s : State) (n : Nat) (f : Cmd → Cmd) : (State.modCmd s n f).scan = s.scan := rfl
@[simp] theorem State.modCmd_colls (s : State) (n : Nat) (f : Cmd → Cmd) : (State.modCmd s n f).colls = s.colls := rfl
@[simp] theorem State.modCmd_jrn (s : State) (n : Nat) (f : Cmd → Cmd) : (State.modCmd s n f).jrn = s.jrn := rfl
@[simp] theorem State.modCmd_mem (s : State) (n : Nat) (f : Cmd → Cmd) : (State.modCmd s n f).mem = s.mem := rfl
@[simp] theorem State.modCmd_models (s : State) (n : Nat) (f : Cmd → Cmd) : (State.modCmd s n f).models = s.models := rfl
@[simp] theorem State.modCmd_tiles (s : State) (n : Nat) (f : Cmd → Cmd) : (State.modCmd s n f).tiles = s.tiles := rfl
@[simp] theorem State.modCmd_sec (s : State) (n : Nat) (f : Cmd → Cmd) : (State.modCmd s n f).sec = s.sec := rfl
@[simp] theorem State.modCmd_fmt (s : State) (n : Nat) (f : Cmd → Cmd) : (State.modCmd s n f).fmt = s.fmt := rfl
@[simp] theorem State.modCmd_hostMem (s : State) (n : Nat) (f : Cmd → Cmd) : (State.modCmd s n f).hostMem = s.hostMem := rfl
@[simp] theorem State.modCmd_hostBad (s : State) (n : Nat) (f : Cmd → Cmd) : (State.modCmd s n f).hostBad = s.hostBad := rfl
@[simp] theorem State.modCmd_freeCtr (s : State) (n : Nat) (f : Cmd → Cmd) : (State.modCmd s n f).freeCtr = s.freeCtr := rfl
@[simp] theorem State.modCmd_pending (s : State) (n : Nat) (f : Cmd → Cmd) : (State.modCmd s n f).pending = s.pending := rfl
@[simp] theorem State.hold_module (s : State) (r : HeldReq) : (State.hold s r).module = s.module := rfl
@[simp] theorem State.hold_hif (s : State) (r : HeldReq) : (State.hold s r).hif = s.hif := rfl
@[simp] theorem State.hold_qm (s : State) (r : HeldReq) : (State.hold s r).qm = s.qm := rfl
@[simp] theorem State.hold_sch (s : State) (r : HeldReq) : (State.hold s r).sch = s.sch := rfl
@[simp] theorem State.hold_pwr (s : State) (r : HeldReq) : (State.hold s r).pwr = s.pwr := rfl
@[simp] theorem State.hold_thm (s : State) (r : HeldReq) : (State.hold s r).thm = s.thm := rfl
@[simp] theorem State.hold_mgt (s : State) (r : HeldReq) : (State.hold s r).mgt = s.mgt := rfl
@[simp] theorem State.hold_tst (s : State) (r : HeldReq) : (State.hold s r).tst = s.tst := rfl
@[simp] theorem State.hold_scan (s : State) (r : HeldReq) : (State.hold s r).scan = s.scan := rfl
@[simp] theorem State.hold_colls (s : State) (r : HeldReq) : (State.hold s r).colls = s.colls := rfl
@[simp] theorem State.hold_jrn (s : State) (r : HeldReq) : (State.hold s r).jrn = s.jrn := rfl
@[simp] theorem State.hold_mem (s : State) (r : HeldReq) : (State.hold s r).mem = s.mem := rfl
@[simp] theorem State.hold_models (s : State) (r : HeldReq) : (State.hold s r).models = s.models := rfl
@[simp] theorem State.hold_tiles (s : State) (r : HeldReq) : (State.hold s r).tiles = s.tiles := rfl
@[simp] theorem State.hold_fmt (s : State) (r : HeldReq) : (State.hold s r).fmt = s.fmt := rfl
@[simp] theorem State.hold_hostMem (s : State) (r : HeldReq) : (State.hold s r).hostMem = s.hostMem := rfl
@[simp] theorem State.hold_hostBad (s : State) (r : HeldReq) : (State.hold s r).hostBad = s.hostBad := rfl
@[simp] theorem State.hold_freeCtr (s : State) (r : HeldReq) : (State.hold s r).freeCtr = s.freeCtr := rfl
@[simp] theorem State.hold_pending (s : State) (r : HeldReq) : (State.hold s r).pending = s.pending := rfl
@[simp] theorem State.hostStores_module (s : State) (cs : List Host.Cell) : (State.hostStores s cs).module = s.module := rfl
@[simp] theorem State.hostStores_hif (s : State) (cs : List Host.Cell) : (State.hostStores s cs).hif = s.hif := rfl
@[simp] theorem State.hostStores_qm (s : State) (cs : List Host.Cell) : (State.hostStores s cs).qm = s.qm := rfl
@[simp] theorem State.hostStores_sch (s : State) (cs : List Host.Cell) : (State.hostStores s cs).sch = s.sch := rfl
@[simp] theorem State.hostStores_pwr (s : State) (cs : List Host.Cell) : (State.hostStores s cs).pwr = s.pwr := rfl
@[simp] theorem State.hostStores_thm (s : State) (cs : List Host.Cell) : (State.hostStores s cs).thm = s.thm := rfl
@[simp] theorem State.hostStores_mgt (s : State) (cs : List Host.Cell) : (State.hostStores s cs).mgt = s.mgt := rfl
@[simp] theorem State.hostStores_tst (s : State) (cs : List Host.Cell) : (State.hostStores s cs).tst = s.tst := rfl
@[simp] theorem State.hostStores_scan (s : State) (cs : List Host.Cell) : (State.hostStores s cs).scan = s.scan := rfl
@[simp] theorem State.hostStores_colls (s : State) (cs : List Host.Cell) : (State.hostStores s cs).colls = s.colls := rfl
@[simp] theorem State.hostStores_jrn (s : State) (cs : List Host.Cell) : (State.hostStores s cs).jrn = s.jrn := rfl
@[simp] theorem State.hostStores_mem (s : State) (cs : List Host.Cell) : (State.hostStores s cs).mem = s.mem := rfl
@[simp] theorem State.hostStores_models (s : State) (cs : List Host.Cell) : (State.hostStores s cs).models = s.models := rfl
@[simp] theorem State.hostStores_tiles (s : State) (cs : List Host.Cell) : (State.hostStores s cs).tiles = s.tiles := rfl
@[simp] theorem State.hostStores_sec (s : State) (cs : List Host.Cell) : (State.hostStores s cs).sec = s.sec := rfl
@[simp] theorem State.hostStores_fmt (s : State) (cs : List Host.Cell) : (State.hostStores s cs).fmt = s.fmt := rfl
@[simp] theorem State.hostStores_hostBad (s : State) (cs : List Host.Cell) : (State.hostStores s cs).hostBad = s.hostBad := rfl
@[simp] theorem State.hostStores_freeCtr (s : State) (cs : List Host.Cell) : (State.hostStores s cs).freeCtr = s.freeCtr := rfl
@[simp] theorem State.hostStores_pending (s : State) (cs : List Host.Cell) : (State.hostStores s cs).pending = s.pending := rfl
@[simp] theorem State.pushEvent_module (s : State) (e : Event) : (State.pushEvent s e).module = s.module := rfl
@[simp] theorem State.pushEvent_hif (s : State) (e : Event) : (State.pushEvent s e).hif = s.hif := rfl
@[simp] theorem State.pushEvent_qm (s : State) (e : Event) : (State.pushEvent s e).qm = s.qm := rfl
@[simp] theorem State.pushEvent_sch (s : State) (e : Event) : (State.pushEvent s e).sch = s.sch := rfl
@[simp] theorem State.pushEvent_pwr (s : State) (e : Event) : (State.pushEvent s e).pwr = s.pwr := rfl
@[simp] theorem State.pushEvent_thm (s : State) (e : Event) : (State.pushEvent s e).thm = s.thm := rfl
@[simp] theorem State.pushEvent_tst (s : State) (e : Event) : (State.pushEvent s e).tst = s.tst := rfl
@[simp] theorem State.pushEvent_scan (s : State) (e : Event) : (State.pushEvent s e).scan = s.scan := rfl
@[simp] theorem State.pushEvent_colls (s : State) (e : Event) : (State.pushEvent s e).colls = s.colls := rfl
@[simp] theorem State.pushEvent_jrn (s : State) (e : Event) : (State.pushEvent s e).jrn = s.jrn := rfl
@[simp] theorem State.pushEvent_mem (s : State) (e : Event) : (State.pushEvent s e).mem = s.mem := rfl
@[simp] theorem State.pushEvent_models (s : State) (e : Event) : (State.pushEvent s e).models = s.models := rfl
@[simp] theorem State.pushEvent_tiles (s : State) (e : Event) : (State.pushEvent s e).tiles = s.tiles := rfl
@[simp] theorem State.pushEvent_sec (s : State) (e : Event) : (State.pushEvent s e).sec = s.sec := rfl
@[simp] theorem State.pushEvent_fmt (s : State) (e : Event) : (State.pushEvent s e).fmt = s.fmt := rfl
@[simp] theorem State.pushEvent_hostMem (s : State) (e : Event) : (State.pushEvent s e).hostMem = s.hostMem := rfl
@[simp] theorem State.pushEvent_hostBad (s : State) (e : Event) : (State.pushEvent s e).hostBad = s.hostBad := rfl
@[simp] theorem State.pushEvent_freeCtr (s : State) (e : Event) : (State.pushEvent s e).freeCtr = s.freeCtr := rfl
@[simp] theorem State.pushEvent_pending (s : State) (e : Event) : (State.pushEvent s e).pending = s.pending := rfl
@[simp] theorem State.epochSettle_module (s : State) (p : Nat) : (State.epochSettle s p).module = s.module := rfl
@[simp] theorem State.epochSettle_hif (s : State) (p : Nat) : (State.epochSettle s p).hif = s.hif := rfl
@[simp] theorem State.epochSettle_qm (s : State) (p : Nat) : (State.epochSettle s p).qm = s.qm := rfl
@[simp] theorem State.epochSettle_pwr (s : State) (p : Nat) : (State.epochSettle s p).pwr = s.pwr := rfl
@[simp] theorem State.epochSettle_thm (s : State) (p : Nat) : (State.epochSettle s p).thm = s.thm := rfl
@[simp] theorem State.epochSettle_mgt (s : State) (p : Nat) : (State.epochSettle s p).mgt = s.mgt := rfl
@[simp] theorem State.epochSettle_tst (s : State) (p : Nat) : (State.epochSettle s p).tst = s.tst := rfl
@[simp] theorem State.epochSettle_scan (s : State) (p : Nat) : (State.epochSettle s p).scan = s.scan := rfl
@[simp] theorem State.epochSettle_colls (s : State) (p : Nat) : (State.epochSettle s p).colls = s.colls := rfl
@[simp] theorem State.epochSettle_jrn (s : State) (p : Nat) : (State.epochSettle s p).jrn = s.jrn := rfl
@[simp] theorem State.epochSettle_mem (s : State) (p : Nat) : (State.epochSettle s p).mem = s.mem := rfl
@[simp] theorem State.epochSettle_models (s : State) (p : Nat) : (State.epochSettle s p).models = s.models := rfl
@[simp] theorem State.epochSettle_tiles (s : State) (p : Nat) : (State.epochSettle s p).tiles = s.tiles := rfl
@[simp] theorem State.epochSettle_sec (s : State) (p : Nat) : (State.epochSettle s p).sec = s.sec := rfl
@[simp] theorem State.epochSettle_fmt (s : State) (p : Nat) : (State.epochSettle s p).fmt = s.fmt := rfl
@[simp] theorem State.epochSettle_hostMem (s : State) (p : Nat) : (State.epochSettle s p).hostMem = s.hostMem := rfl
@[simp] theorem State.epochSettle_hostBad (s : State) (p : Nat) : (State.epochSettle s p).hostBad = s.hostBad := rfl
@[simp] theorem State.epochSettle_freeCtr (s : State) (p : Nat) : (State.epochSettle s p).freeCtr = s.freeCtr := rfl
@[simp] theorem State.epochSettle_pending (s : State) (p : Nat) : (State.epochSettle s p).pending = s.pending := rfl
@[simp] theorem State.freeTiles_module (s : State) (n : Nat) : (State.freeTiles s n).module = s.module := rfl
@[simp] theorem State.freeTiles_hif (s : State) (n : Nat) : (State.freeTiles s n).hif = s.hif := rfl
@[simp] theorem State.freeTiles_qm (s : State) (n : Nat) : (State.freeTiles s n).qm = s.qm := rfl
@[simp] theorem State.freeTiles_sch (s : State) (n : Nat) : (State.freeTiles s n).sch = s.sch := rfl
@[simp] theorem State.freeTiles_pwr (s : State) (n : Nat) : (State.freeTiles s n).pwr = s.pwr := rfl
@[simp] theorem State.freeTiles_thm (s : State) (n : Nat) : (State.freeTiles s n).thm = s.thm := rfl
@[simp] theorem State.freeTiles_mgt (s : State) (n : Nat) : (State.freeTiles s n).mgt = s.mgt := rfl
@[simp] theorem State.freeTiles_tst (s : State) (n : Nat) : (State.freeTiles s n).tst = s.tst := rfl
@[simp] theorem State.freeTiles_scan (s : State) (n : Nat) : (State.freeTiles s n).scan = s.scan := rfl
@[simp] theorem State.freeTiles_colls (s : State) (n : Nat) : (State.freeTiles s n).colls = s.colls := rfl
@[simp] theorem State.freeTiles_jrn (s : State) (n : Nat) : (State.freeTiles s n).jrn = s.jrn := rfl
@[simp] theorem State.freeTiles_mem (s : State) (n : Nat) : (State.freeTiles s n).mem = s.mem := rfl
@[simp] theorem State.freeTiles_models (s : State) (n : Nat) : (State.freeTiles s n).models = s.models := rfl
@[simp] theorem State.freeTiles_sec (s : State) (n : Nat) : (State.freeTiles s n).sec = s.sec := rfl
@[simp] theorem State.freeTiles_fmt (s : State) (n : Nat) : (State.freeTiles s n).fmt = s.fmt := rfl
@[simp] theorem State.freeTiles_hostMem (s : State) (n : Nat) : (State.freeTiles s n).hostMem = s.hostMem := rfl
@[simp] theorem State.freeTiles_hostBad (s : State) (n : Nat) : (State.freeTiles s n).hostBad = s.hostBad := rfl
@[simp] theorem State.freeTiles_freeCtr (s : State) (n : Nat) : (State.freeTiles s n).freeCtr = s.freeCtr := rfl
@[simp] theorem State.freeTiles_pending (s : State) (n : Nat) : (State.freeTiles s n).pending = s.pending := rfl
@[simp] theorem State.start_module (s : State) (n : Nat) : (State.start s n).module = s.module := rfl
@[simp] theorem State.start_hif (s : State) (n : Nat) : (State.start s n).hif = s.hif := rfl
@[simp] theorem State.start_sch (s : State) (n : Nat) : (State.start s n).sch = s.sch := rfl
@[simp] theorem State.start_pwr (s : State) (n : Nat) : (State.start s n).pwr = s.pwr := rfl
@[simp] theorem State.start_thm (s : State) (n : Nat) : (State.start s n).thm = s.thm := rfl
@[simp] theorem State.start_mgt (s : State) (n : Nat) : (State.start s n).mgt = s.mgt := rfl
@[simp] theorem State.start_tst (s : State) (n : Nat) : (State.start s n).tst = s.tst := rfl
@[simp] theorem State.start_scan (s : State) (n : Nat) : (State.start s n).scan = s.scan := rfl
@[simp] theorem State.start_colls (s : State) (n : Nat) : (State.start s n).colls = s.colls := rfl
@[simp] theorem State.start_jrn (s : State) (n : Nat) : (State.start s n).jrn = s.jrn := rfl
@[simp] theorem State.start_mem (s : State) (n : Nat) : (State.start s n).mem = s.mem := rfl
@[simp] theorem State.start_models (s : State) (n : Nat) : (State.start s n).models = s.models := rfl
@[simp] theorem State.start_tiles (s : State) (n : Nat) : (State.start s n).tiles = s.tiles := rfl
@[simp] theorem State.start_sec (s : State) (n : Nat) : (State.start s n).sec = s.sec := rfl
@[simp] theorem State.start_fmt (s : State) (n : Nat) : (State.start s n).fmt = s.fmt := rfl
@[simp] theorem State.start_hostMem (s : State) (n : Nat) : (State.start s n).hostMem = s.hostMem := rfl
@[simp] theorem State.start_hostBad (s : State) (n : Nat) : (State.start s n).hostBad = s.hostBad := rfl
@[simp] theorem State.start_freeCtr (s : State) (n : Nat) : (State.start s n).freeCtr = s.freeCtr := rfl
@[simp] theorem State.start_pending (s : State) (n : Nat) : (State.start s n).pending = s.pending := rfl
@[simp] theorem State.fmtCount_module (s : State) (sat : Nat) (nan : Nat) : (State.fmtCount s sat nan).module = s.module := rfl
@[simp] theorem State.fmtCount_hif (s : State) (sat : Nat) (nan : Nat) : (State.fmtCount s sat nan).hif = s.hif := rfl
@[simp] theorem State.fmtCount_qm (s : State) (sat : Nat) (nan : Nat) : (State.fmtCount s sat nan).qm = s.qm := rfl
@[simp] theorem State.fmtCount_sch (s : State) (sat : Nat) (nan : Nat) : (State.fmtCount s sat nan).sch = s.sch := rfl
@[simp] theorem State.fmtCount_pwr (s : State) (sat : Nat) (nan : Nat) : (State.fmtCount s sat nan).pwr = s.pwr := rfl
@[simp] theorem State.fmtCount_thm (s : State) (sat : Nat) (nan : Nat) : (State.fmtCount s sat nan).thm = s.thm := rfl
@[simp] theorem State.fmtCount_mgt (s : State) (sat : Nat) (nan : Nat) : (State.fmtCount s sat nan).mgt = s.mgt := rfl
@[simp] theorem State.fmtCount_tst (s : State) (sat : Nat) (nan : Nat) : (State.fmtCount s sat nan).tst = s.tst := rfl
@[simp] theorem State.fmtCount_scan (s : State) (sat : Nat) (nan : Nat) : (State.fmtCount s sat nan).scan = s.scan := rfl
@[simp] theorem State.fmtCount_colls (s : State) (sat : Nat) (nan : Nat) : (State.fmtCount s sat nan).colls = s.colls := rfl
@[simp] theorem State.fmtCount_jrn (s : State) (sat : Nat) (nan : Nat) : (State.fmtCount s sat nan).jrn = s.jrn := rfl
@[simp] theorem State.fmtCount_mem (s : State) (sat : Nat) (nan : Nat) : (State.fmtCount s sat nan).mem = s.mem := rfl
@[simp] theorem State.fmtCount_models (s : State) (sat : Nat) (nan : Nat) : (State.fmtCount s sat nan).models = s.models := rfl
@[simp] theorem State.fmtCount_tiles (s : State) (sat : Nat) (nan : Nat) : (State.fmtCount s sat nan).tiles = s.tiles := rfl
@[simp] theorem State.fmtCount_sec (s : State) (sat : Nat) (nan : Nat) : (State.fmtCount s sat nan).sec = s.sec := rfl
@[simp] theorem State.fmtCount_hostMem (s : State) (sat : Nat) (nan : Nat) : (State.fmtCount s sat nan).hostMem = s.hostMem := rfl
@[simp] theorem State.fmtCount_hostBad (s : State) (sat : Nat) (nan : Nat) : (State.fmtCount s sat nan).hostBad = s.hostBad := rfl
@[simp] theorem State.fmtCount_freeCtr (s : State) (sat : Nat) (nan : Nat) : (State.fmtCount s sat nan).freeCtr = s.freeCtr := rfl
@[simp] theorem State.fmtCount_pending (s : State) (sat : Nat) (nan : Nat) : (State.fmtCount s sat nan).pending = s.pending := rfl

/-! ### The entry an update changes, and every other -/

@[simp] theorem State.ring_modRing_same (s : State) (p : Nat) (f : Ring → Ring) : (s.modRing p f).ring p = f (s.ring p) := by
  simp [State.ring, State.modRing]

theorem State.ring_modRing_ne (s : State) {p q : Nat} (f : Ring → Ring) (h : q ≠ p) : (s.modRing p f).ring q = s.ring q := by
  simp [State.ring, State.modRing, tget_tmod_ne _ _ _ h]

@[simp] theorem State.part_modPart_same (s : State) (p : Nat) (f : Partition → Partition) : (s.modPart p f).part p = f (s.part p) := by
  simp [State.part, State.modPart]

theorem State.part_modPart_ne (s : State) {p q : Nat} (f : Partition → Partition) (h : q ≠ p) : (s.modPart p f).part q = s.part q := by
  simp [State.part, State.modPart, tget_tmod_ne _ _ _ h]

@[simp] theorem State.ctx_modCtx_same (s : State) (c : Nat) (f : Context → Context) : (s.modCtx c f).ctx c = f (s.ctx c) := by
  simp [State.ctx, State.modCtx]

theorem State.ctx_modCtx_ne (s : State) {c d : Nat} (f : Context → Context) (h : d ≠ c) : (s.modCtx c f).ctx d = s.ctx d := by
  simp [State.ctx, State.modCtx, tget_tmod_ne _ _ _ h]

@[simp] theorem State.coll_modColl_same (s : State) (c : Nat) (f : Coll → Coll) : (s.modColl c f).coll c = f (s.coll c) := by
  simp [State.coll, State.modColl]

theorem State.coll_modColl_ne (s : State) {c d : Nat} (f : Coll → Coll) (h : d ≠ c) : (s.modColl c f).coll d = s.coll d := by
  simp [State.coll, State.modColl, tget_tmod_ne _ _ _ h]

@[simp] theorem State.tile_modTile_same (s : State) (t : Nat) (f : Tile → Tile) : (s.modTile t f).tile t = f (s.tile t) := by
  simp [State.tile, State.modTile]

theorem State.tile_modTile_ne (s : State) {t u : Nat} (f : Tile → Tile) (h : u ≠ t) : (s.modTile t f).tile u = s.tile u := by
  simp [State.tile, State.modTile, tget_tmod_ne _ _ _ h]

/-! ### Sec.noted -/

@[simp] theorem Sec.noted_comps (x y : Sec) : (x.noted y).comps = y.comps := rfl
@[simp] theorem Sec.noted_revoked (x y : Sec) : (x.noted y).revoked = y.revoked := rfl
@[simp] theorem Sec.noted_dikNext (x y : Sec) : (x.noted y).dikNext = y.dikNext := rfl
@[simp] theorem Sec.noted_aakNext (x y : Sec) : (x.noted y).aakNext = y.aakNext := rfl
@[simp] theorem Sec.noted_aakGen (x y : Sec) : (x.noted y).aakGen = y.aakGen := rfl
@[simp] theorem Sec.noted_aakBusy (x y : Sec) : (x.noted y).aakBusy = y.aakBusy := rfl
@[simp] theorem Sec.noted_tokens (x y : Sec) : (x.noted y).tokens = y.tokens := rfl
@[simp] theorem Sec.noted_tokenSec (x y : Sec) : (x.noted y).tokenSec = y.tokenSec := rfl
@[simp] theorem Sec.noted_fwuAddr (x y : Sec) : (x.noted y).fwuAddr = y.fwuAddr := rfl
@[simp] theorem Sec.noted_fwuLen (x y : Sec) : (x.noted y).fwuLen = y.fwuLen := rfl
@[simp] theorem Sec.noted_fwuState (x y : Sec) : (x.noted y).fwuState = y.fwuState := rfl
@[simp] theorem Sec.noted_fwuErr (x y : Sec) : (x.noted y).fwuErr = y.fwuErr := rfl
@[simp] theorem Sec.noted_fwuMib (x y : Sec) : (x.noted y).fwuMib = y.fwuMib := rfl
@[simp] theorem Sec.noted_fwuBase (x y : Sec) : (x.noted y).fwuBase = y.fwuBase := rfl
@[simp] theorem Sec.noted_fwuTotal (x y : Sec) : (x.noted y).fwuTotal = y.fwuTotal := rfl
@[simp] theorem Sec.noted_fwuOob (x y : Sec) : (x.noted y).fwuOob = y.fwuOob := rfl
@[simp] theorem Sec.noted_conns (x y : Sec) : (x.noted y).conns = y.conns := rfl
@[simp] theorem Sec.noted_sessions (x y : Sec) : (x.noted y).sessions = y.sessions := rfl
@[simp] theorem Sec.noted_nextSession (x y : Sec) : (x.noted y).nextSession = y.nextSession := rfl
@[simp] theorem Sec.noted_delayed (x y : Sec) : (x.noted y).delayed = y.delayed := rfl
@[simp] theorem Sec.noted_reply (x y : Sec) : (x.noted y).reply = y.reply := rfl
@[simp] theorem Sec.noted_ide (x y : Sec) : (x.noted y).ide = y.ide := rfl
@[simp] theorem Sec.noted_ideSet (x y : Sec) : (x.noted y).ideSet = y.ideSet := rfl
@[simp] theorem Sec.noted_ideHold (x y : Sec) : (x.noted y).ideHold = y.ideHold := rfl
@[simp] theorem Sec.noted_held (x y : Sec) : (x.noted y).held = y.held := rfl

end Sys2Proof.Machine
end

