-- ==== Sys2Proof/Laws/Ops.lean ====
section
/-!
SUPPORT. What the shared operations of Machine/Ops.lean leave alone, one lemma per operation and field: messages, events,
error flags, the record of a completed command and what its end lets happen.
-/

namespace Sys2Proof.Machine

/-! ### State.hostWrite -/

@[simp] theorem State.hostWrite_module (s : State) (a : Nat) (bs : List Byte) : (State.hostWrite s a bs).module = s.module := by
  unfold State.hostWrite
  repeat' split
  all_goals first | rfl | simp

@[simp] theorem State.hostWrite_hif (s : State) (a : Nat) (bs : List Byte) : (State.hostWrite s a bs).hif = s.hif := by
  unfold State.hostWrite
  repeat' split
  all_goals first | rfl | simp

@[simp] theorem State.hostWrite_qm (s : State) (a : Nat) (bs : List Byte) : (State.hostWrite s a bs).qm = s.qm := by
  unfold State.hostWrite
  repeat' split
  all_goals first | rfl | simp

@[simp] theorem State.hostWrite_sch (s : State) (a : Nat) (bs : List Byte) : (State.hostWrite s a bs).sch = s.sch := by
  unfold State.hostWrite
  repeat' split
  all_goals first | rfl | simp

@[simp] theorem State.hostWrite_pwr (s : State) (a : Nat) (bs : List Byte) : (State.hostWrite s a bs).pwr = s.pwr := by
  unfold State.hostWrite
  repeat' split
  all_goals first | rfl | simp

@[simp] theorem State.hostWrite_thm (s : State) (a : Nat) (bs : List Byte) : (State.hostWrite s a bs).thm = s.thm := by
  unfold State.hostWrite
  repeat' split
  all_goals first | rfl | simp

@[simp] theorem State.hostWrite_mgt (s : State) (a : Nat) (bs : List Byte) : (State.hostWrite s a bs).mgt = s.mgt := by
  unfold State.hostWrite
  repeat' split
  all_goals first | rfl | simp

@[simp] theorem State.hostWrite_tst (s : State) (a : Nat) (bs : List Byte) : (State.hostWrite s a bs).tst = s.tst := by
  unfold State.hostWrite
  repeat' split
  all_goals first | rfl | simp

@[simp] theorem State.hostWrite_scan (s : State) (a : Nat) (bs : List Byte) : (State.hostWrite s a bs).scan = s.scan := by
  unfold State.hostWrite
  repeat' split
  all_goals first | rfl | simp

@[simp] theorem State.hostWrite_colls (s : State) (a : Nat) (bs : List Byte) : (State.hostWrite s a bs).colls = s.colls := by
  unfold State.hostWrite
  repeat' split
  all_goals first | rfl | simp

@[simp] theorem State.hostWrite_jrn (s : State) (a : Nat) (bs : List Byte) : (State.hostWrite s a bs).jrn = s.jrn := by
  unfold State.hostWrite
  repeat' split
  all_goals first | rfl | simp

@[simp] theorem State.hostWrite_mem (s : State) (a : Nat) (bs : List Byte) : (State.hostWrite s a bs).mem = s.mem := by
  unfold State.hostWrite
  repeat' split
  all_goals first | rfl | simp

@[simp] theorem State.hostWrite_models (s : State) (a : Nat) (bs : List Byte) : (State.hostWrite s a bs).models = s.models := by
  unfold State.hostWrite
  repeat' split
  all_goals first | rfl | simp

@[simp] theorem State.hostWrite_tiles (s : State) (a : Nat) (bs : List Byte) : (State.hostWrite s a bs).tiles = s.tiles := by
  unfold State.hostWrite
  repeat' split
  all_goals first | rfl | simp

@[simp] theorem State.hostWrite_fmt (s : State) (a : Nat) (bs : List Byte) : (State.hostWrite s a bs).fmt = s.fmt := by
  unfold State.hostWrite
  repeat' split
  all_goals first | rfl | simp

@[simp] theorem State.hostWrite_hostBad (s : State) (a : Nat) (bs : List Byte) : (State.hostWrite s a bs).hostBad = s.hostBad := by
  unfold State.hostWrite
  repeat' split
  all_goals first | rfl | simp

@[simp] theorem State.hostWrite_freeCtr (s : State) (a : Nat) (bs : List Byte) : (State.hostWrite s a bs).freeCtr = s.freeCtr := by
  unfold State.hostWrite
  repeat' split
  all_goals first | rfl | simp

@[simp] theorem State.hostWrite_pending (s : State) (a : Nat) (bs : List Byte) : (State.hostWrite s a bs).pending = s.pending := by
  unfold State.hostWrite
  repeat' split
  all_goals first | rfl | simp

/-! ### State.msixSend -/

@[simp] theorem State.msixSend_module (s : State) (v : Nat) : (State.msixSend s v).module = s.module := by
  unfold State.msixSend
  dsimp only
  repeat' split
  all_goals simp

@[simp] theorem State.msixSend_qm (s : State) (v : Nat) : (State.msixSend s v).qm = s.qm := by
  unfold State.msixSend
  dsimp only
  repeat' split
  all_goals simp

@[simp] theorem State.msixSend_sch (s : State) (v : Nat) : (State.msixSend s v).sch = s.sch := by
  unfold State.msixSend
  dsimp only
  repeat' split
  all_goals simp

@[simp] theorem State.msixSend_pwr (s : State) (v : Nat) : (State.msixSend s v).pwr = s.pwr := by
  unfold State.msixSend
  dsimp only
  repeat' split
  all_goals simp

@[simp] theorem State.msixSend_thm (s : State) (v : Nat) : (State.msixSend s v).thm = s.thm := by
  unfold State.msixSend
  dsimp only
  repeat' split
  all_goals simp

@[simp] theorem State.msixSend_mgt (s : State) (v : Nat) : (State.msixSend s v).mgt = s.mgt := by
  unfold State.msixSend
  dsimp only
  repeat' split
  all_goals simp

@[simp] theorem State.msixSend_tst (s : State) (v : Nat) : (State.msixSend s v).tst = s.tst := by
  unfold State.msixSend
  dsimp only
  repeat' split
  all_goals simp

@[simp] theorem State.msixSend_scan (s : State) (v : Nat) : (State.msixSend s v).scan = s.scan := by
  unfold State.msixSend
  dsimp only
  repeat' split
  all_goals simp

@[simp] theorem State.msixSend_colls (s : State) (v : Nat) : (State.msixSend s v).colls = s.colls := by
  unfold State.msixSend
  dsimp only
  repeat' split
  all_goals simp

@[simp] theorem State.msixSend_jrn (s : State) (v : Nat) : (State.msixSend s v).jrn = s.jrn := by
  unfold State.msixSend
  dsimp only
  repeat' split
  all_goals simp

@[simp] theorem State.msixSend_mem (s : State) (v : Nat) : (State.msixSend s v).mem = s.mem := by
  unfold State.msixSend
  dsimp only
  repeat' split
  all_goals simp

@[simp] theorem State.msixSend_models (s : State) (v : Nat) : (State.msixSend s v).models = s.models := by
  unfold State.msixSend
  dsimp only
  repeat' split
  all_goals simp

@[simp] theorem State.msixSend_tiles (s : State) (v : Nat) : (State.msixSend s v).tiles = s.tiles := by
  unfold State.msixSend
  dsimp only
  repeat' split
  all_goals simp

@[simp] theorem State.msixSend_fmt (s : State) (v : Nat) : (State.msixSend s v).fmt = s.fmt := by
  unfold State.msixSend
  dsimp only
  repeat' split
  all_goals simp

@[simp] theorem State.msixSend_hostMem (s : State) (v : Nat) : (State.msixSend s v).hostMem = s.hostMem := by
  unfold State.msixSend
  dsimp only
  repeat' split
  all_goals simp

@[simp] theorem State.msixSend_hostBad (s : State) (v : Nat) : (State.msixSend s v).hostBad = s.hostBad := by
  unfold State.msixSend
  dsimp only
  repeat' split
  all_goals simp

@[simp] theorem State.msixSend_freeCtr (s : State) (v : Nat) : (State.msixSend s v).freeCtr = s.freeCtr := by
  unfold State.msixSend
  dsimp only
  repeat' split
  all_goals simp

@[simp] theorem State.msixSend_pending (s : State) (v : Nat) : (State.msixSend s v).pending = s.pending := by
  unfold State.msixSend
  dsimp only
  repeat' split
  all_goals simp

/-! ### State.event -/

@[simp] theorem State.event_module (s : State) (code : Nat) (sev : Nat) (kind : Nat) (unit : Nat) (d0 : Nat) (d1 : Nat) : (State.event s code sev kind unit d0 d1).module = s.module := by
  unfold State.event
  dsimp only
  repeat' split
  all_goals simp

@[simp] theorem State.event_qm (s : State) (code : Nat) (sev : Nat) (kind : Nat) (unit : Nat) (d0 : Nat) (d1 : Nat) : (State.event s code sev kind unit d0 d1).qm = s.qm := by
  unfold State.event
  dsimp only
  repeat' split
  all_goals simp

@[simp] theorem State.event_sch (s : State) (code : Nat) (sev : Nat) (kind : Nat) (unit : Nat) (d0 : Nat) (d1 : Nat) : (State.event s code sev kind unit d0 d1).sch = s.sch := by
  unfold State.event
  dsimp only
  repeat' split
  all_goals simp

@[simp] theorem State.event_pwr (s : State) (code : Nat) (sev : Nat) (kind : Nat) (unit : Nat) (d0 : Nat) (d1 : Nat) : (State.event s code sev kind unit d0 d1).pwr = s.pwr := by
  unfold State.event
  dsimp only
  repeat' split
  all_goals simp

@[simp] theorem State.event_thm (s : State) (code : Nat) (sev : Nat) (kind : Nat) (unit : Nat) (d0 : Nat) (d1 : Nat) : (State.event s code sev kind unit d0 d1).thm = s.thm := by
  unfold State.event
  dsimp only
  repeat' split
  all_goals simp

@[simp] theorem State.event_tst (s : State) (code : Nat) (sev : Nat) (kind : Nat) (unit : Nat) (d0 : Nat) (d1 : Nat) : (State.event s code sev kind unit d0 d1).tst = s.tst := by
  unfold State.event
  dsimp only
  repeat' split
  all_goals simp

@[simp] theorem State.event_scan (s : State) (code : Nat) (sev : Nat) (kind : Nat) (unit : Nat) (d0 : Nat) (d1 : Nat) : (State.event s code sev kind unit d0 d1).scan = s.scan := by
  unfold State.event
  dsimp only
  repeat' split
  all_goals simp

@[simp] theorem State.event_colls (s : State) (code : Nat) (sev : Nat) (kind : Nat) (unit : Nat) (d0 : Nat) (d1 : Nat) : (State.event s code sev kind unit d0 d1).colls = s.colls := by
  unfold State.event
  dsimp only
  repeat' split
  all_goals simp

@[simp] theorem State.event_jrn (s : State) (code : Nat) (sev : Nat) (kind : Nat) (unit : Nat) (d0 : Nat) (d1 : Nat) : (State.event s code sev kind unit d0 d1).jrn = s.jrn := by
  unfold State.event
  dsimp only
  repeat' split
  all_goals simp

@[simp] theorem State.event_mem (s : State) (code : Nat) (sev : Nat) (kind : Nat) (unit : Nat) (d0 : Nat) (d1 : Nat) : (State.event s code sev kind unit d0 d1).mem = s.mem := by
  unfold State.event
  dsimp only
  repeat' split
  all_goals simp

@[simp] theorem State.event_models (s : State) (code : Nat) (sev : Nat) (kind : Nat) (unit : Nat) (d0 : Nat) (d1 : Nat) : (State.event s code sev kind unit d0 d1).models = s.models := by
  unfold State.event
  dsimp only
  repeat' split
  all_goals simp

@[simp] theorem State.event_tiles (s : State) (code : Nat) (sev : Nat) (kind : Nat) (unit : Nat) (d0 : Nat) (d1 : Nat) : (State.event s code sev kind unit d0 d1).tiles = s.tiles := by
  unfold State.event
  dsimp only
  repeat' split
  all_goals simp

@[simp] theorem State.event_fmt (s : State) (code : Nat) (sev : Nat) (kind : Nat) (unit : Nat) (d0 : Nat) (d1 : Nat) : (State.event s code sev kind unit d0 d1).fmt = s.fmt := by
  unfold State.event
  dsimp only
  repeat' split
  all_goals simp

@[simp] theorem State.event_hostMem (s : State) (code : Nat) (sev : Nat) (kind : Nat) (unit : Nat) (d0 : Nat) (d1 : Nat) : (State.event s code sev kind unit d0 d1).hostMem = s.hostMem := by
  unfold State.event
  dsimp only
  repeat' split
  all_goals simp

@[simp] theorem State.event_hostBad (s : State) (code : Nat) (sev : Nat) (kind : Nat) (unit : Nat) (d0 : Nat) (d1 : Nat) : (State.event s code sev kind unit d0 d1).hostBad = s.hostBad := by
  unfold State.event
  dsimp only
  repeat' split
  all_goals simp

@[simp] theorem State.event_freeCtr (s : State) (code : Nat) (sev : Nat) (kind : Nat) (unit : Nat) (d0 : Nat) (d1 : Nat) : (State.event s code sev kind unit d0 d1).freeCtr = s.freeCtr := by
  unfold State.event
  dsimp only
  repeat' split
  all_goals simp

@[simp] theorem State.event_pending (s : State) (code : Nat) (sev : Nat) (kind : Nat) (unit : Nat) (d0 : Nat) (d1 : Nat) : (State.event s code sev kind unit d0 d1).pending = s.pending := by
  unfold State.event
  dsimp only
  repeat' split
  all_goals simp

/-! ### State.hifErr -/

@[simp] theorem State.hifErr_module (s : State) (b : Nat) : (State.hifErr s b).module = s.module := by
  unfold State.hifErr
  dsimp only
  repeat' split
  all_goals simp

@[simp] theorem State.hifErr_qm (s : State) (b : Nat) : (State.hifErr s b).qm = s.qm := by
  unfold State.hifErr
  dsimp only
  repeat' split
  all_goals simp

@[simp] theorem State.hifErr_sch (s : State) (b : Nat) : (State.hifErr s b).sch = s.sch := by
  unfold State.hifErr
  dsimp only
  repeat' split
  all_goals simp

@[simp] theorem State.hifErr_pwr (s : State) (b : Nat) : (State.hifErr s b).pwr = s.pwr := by
  unfold State.hifErr
  dsimp only
  repeat' split
  all_goals simp

@[simp] theorem State.hifErr_thm (s : State) (b : Nat) : (State.hifErr s b).thm = s.thm := by
  unfold State.hifErr
  dsimp only
  repeat' split
  all_goals simp

@[simp] theorem State.hifErr_tst (s : State) (b : Nat) : (State.hifErr s b).tst = s.tst := by
  unfold State.hifErr
  dsimp only
  repeat' split
  all_goals simp

@[simp] theorem State.hifErr_scan (s : State) (b : Nat) : (State.hifErr s b).scan = s.scan := by
  unfold State.hifErr
  dsimp only
  repeat' split
  all_goals simp

@[simp] theorem State.hifErr_colls (s : State) (b : Nat) : (State.hifErr s b).colls = s.colls := by
  unfold State.hifErr
  dsimp only
  repeat' split
  all_goals simp

@[simp] theorem State.hifErr_jrn (s : State) (b : Nat) : (State.hifErr s b).jrn = s.jrn := by
  unfold State.hifErr
  dsimp only
  repeat' split
  all_goals simp

@[simp] theorem State.hifErr_mem (s : State) (b : Nat) : (State.hifErr s b).mem = s.mem := by
  unfold State.hifErr
  dsimp only
  repeat' split
  all_goals simp

@[simp] theorem State.hifErr_models (s : State) (b : Nat) : (State.hifErr s b).models = s.models := by
  unfold State.hifErr
  dsimp only
  repeat' split
  all_goals simp

@[simp] theorem State.hifErr_tiles (s : State) (b : Nat) : (State.hifErr s b).tiles = s.tiles := by
  unfold State.hifErr
  dsimp only
  repeat' split
  all_goals simp

@[simp] theorem State.hifErr_fmt (s : State) (b : Nat) : (State.hifErr s b).fmt = s.fmt := by
  unfold State.hifErr
  dsimp only
  repeat' split
  all_goals simp

@[simp] theorem State.hifErr_hostMem (s : State) (b : Nat) : (State.hifErr s b).hostMem = s.hostMem := by
  unfold State.hifErr
  dsimp only
  repeat' split
  all_goals simp

@[simp] theorem State.hifErr_hostBad (s : State) (b : Nat) : (State.hifErr s b).hostBad = s.hostBad := by
  unfold State.hifErr
  dsimp only
  repeat' split
  all_goals simp

@[simp] theorem State.hifErr_freeCtr (s : State) (b : Nat) : (State.hifErr s b).freeCtr = s.freeCtr := by
  unfold State.hifErr
  dsimp only
  repeat' split
  all_goals simp

@[simp] theorem State.hifErr_pending (s : State) (b : Nat) : (State.hifErr s b).pending = s.pending := by
  unfold State.hifErr
  dsimp only
  repeat' split
  all_goals simp

/-! ### State.recordLost -/

@[simp] theorem State.recordLost_module (s : State) (p : Nat) : (State.recordLost s p).module = s.module := by
  unfold State.recordLost
  dsimp only
  repeat' split
  all_goals simp

@[simp] theorem State.recordLost_sch (s : State) (p : Nat) : (State.recordLost s p).sch = s.sch := by
  unfold State.recordLost
  dsimp only
  repeat' split
  all_goals simp

@[simp] theorem State.recordLost_pwr (s : State) (p : Nat) : (State.recordLost s p).pwr = s.pwr := by
  unfold State.recordLost
  dsimp only
  repeat' split
  all_goals simp

@[simp] theorem State.recordLost_thm (s : State) (p : Nat) : (State.recordLost s p).thm = s.thm := by
  unfold State.recordLost
  dsimp only
  repeat' split
  all_goals simp

@[simp] theorem State.recordLost_tst (s : State) (p : Nat) : (State.recordLost s p).tst = s.tst := by
  unfold State.recordLost
  dsimp only
  repeat' split
  all_goals simp

@[simp] theorem State.recordLost_scan (s : State) (p : Nat) : (State.recordLost s p).scan = s.scan := by
  unfold State.recordLost
  dsimp only
  repeat' split
  all_goals simp

@[simp] theorem State.recordLost_colls (s : State) (p : Nat) : (State.recordLost s p).colls = s.colls := by
  unfold State.recordLost
  dsimp only
  repeat' split
  all_goals simp

@[simp] theorem State.recordLost_jrn (s : State) (p : Nat) : (State.recordLost s p).jrn = s.jrn := by
  unfold State.recordLost
  dsimp only
  repeat' split
  all_goals simp

@[simp] theorem State.recordLost_mem (s : State) (p : Nat) : (State.recordLost s p).mem = s.mem := by
  unfold State.recordLost
  dsimp only
  repeat' split
  all_goals simp

@[simp] theorem State.recordLost_models (s : State) (p : Nat) : (State.recordLost s p).models = s.models := by
  unfold State.recordLost
  dsimp only
  repeat' split
  all_goals simp

@[simp] theorem State.recordLost_tiles (s : State) (p : Nat) : (State.recordLost s p).tiles = s.tiles := by
  unfold State.recordLost
  dsimp only
  repeat' split
  all_goals simp

@[simp] theorem State.recordLost_fmt (s : State) (p : Nat) : (State.recordLost s p).fmt = s.fmt := by
  unfold State.recordLost
  dsimp only
  repeat' split
  all_goals simp

@[simp] theorem State.recordLost_hostMem (s : State) (p : Nat) : (State.recordLost s p).hostMem = s.hostMem := by
  unfold State.recordLost
  dsimp only
  repeat' split
  all_goals simp

@[simp] theorem State.recordLost_hostBad (s : State) (p : Nat) : (State.recordLost s p).hostBad = s.hostBad := by
  unfold State.recordLost
  dsimp only
  repeat' split
  all_goals simp

@[simp] theorem State.recordLost_freeCtr (s : State) (p : Nat) : (State.recordLost s p).freeCtr = s.freeCtr := by
  unfold State.recordLost
  dsimp only
  repeat' split
  all_goals simp

@[simp] theorem State.recordLost_pending (s : State) (p : Nat) : (State.recordLost s p).pending = s.pending := by
  unfold State.recordLost
  dsimp only
  repeat' split
  all_goals simp

/-! ### State.signal -/

@[simp] theorem State.signal_module (s : State) (p : Nat) (irq : Bool) : (State.signal s p irq).module = s.module := by
  unfold State.signal
  dsimp only
  repeat' split
  all_goals simp

@[simp] theorem State.signal_sch (s : State) (p : Nat) (irq : Bool) : (State.signal s p irq).sch = s.sch := by
  unfold State.signal
  dsimp only
  repeat' split
  all_goals simp

@[simp] theorem State.signal_pwr (s : State) (p : Nat) (irq : Bool) : (State.signal s p irq).pwr = s.pwr := by
  unfold State.signal
  dsimp only
  repeat' split
  all_goals simp

@[simp] theorem State.signal_thm (s : State) (p : Nat) (irq : Bool) : (State.signal s p irq).thm = s.thm := by
  unfold State.signal
  dsimp only
  repeat' split
  all_goals simp

@[simp] theorem State.signal_mgt (s : State) (p : Nat) (irq : Bool) : (State.signal s p irq).mgt = s.mgt := by
  unfold State.signal
  dsimp only
  repeat' split
  all_goals simp

@[simp] theorem State.signal_tst (s : State) (p : Nat) (irq : Bool) : (State.signal s p irq).tst = s.tst := by
  unfold State.signal
  dsimp only
  repeat' split
  all_goals simp

@[simp] theorem State.signal_scan (s : State) (p : Nat) (irq : Bool) : (State.signal s p irq).scan = s.scan := by
  unfold State.signal
  dsimp only
  repeat' split
  all_goals simp

@[simp] theorem State.signal_colls (s : State) (p : Nat) (irq : Bool) : (State.signal s p irq).colls = s.colls := by
  unfold State.signal
  dsimp only
  repeat' split
  all_goals simp

@[simp] theorem State.signal_jrn (s : State) (p : Nat) (irq : Bool) : (State.signal s p irq).jrn = s.jrn := by
  unfold State.signal
  dsimp only
  repeat' split
  all_goals simp

@[simp] theorem State.signal_mem (s : State) (p : Nat) (irq : Bool) : (State.signal s p irq).mem = s.mem := by
  unfold State.signal
  dsimp only
  repeat' split
  all_goals simp

@[simp] theorem State.signal_models (s : State) (p : Nat) (irq : Bool) : (State.signal s p irq).models = s.models := by
  unfold State.signal
  dsimp only
  repeat' split
  all_goals simp

@[simp] theorem State.signal_tiles (s : State) (p : Nat) (irq : Bool) : (State.signal s p irq).tiles = s.tiles := by
  unfold State.signal
  dsimp only
  repeat' split
  all_goals simp

@[simp] theorem State.signal_fmt (s : State) (p : Nat) (irq : Bool) : (State.signal s p irq).fmt = s.fmt := by
  unfold State.signal
  dsimp only
  repeat' split
  all_goals simp

@[simp] theorem State.signal_hostMem (s : State) (p : Nat) (irq : Bool) : (State.signal s p irq).hostMem = s.hostMem := by
  unfold State.signal
  dsimp only
  repeat' split
  all_goals simp

@[simp] theorem State.signal_hostBad (s : State) (p : Nat) (irq : Bool) : (State.signal s p irq).hostBad = s.hostBad := by
  unfold State.signal
  dsimp only
  repeat' split
  all_goals simp

@[simp] theorem State.signal_freeCtr (s : State) (p : Nat) (irq : Bool) : (State.signal s p irq).freeCtr = s.freeCtr := by
  unfold State.signal
  dsimp only
  repeat' split
  all_goals simp

@[simp] theorem State.signal_pending (s : State) (p : Nat) (irq : Bool) : (State.signal s p irq).pending = s.pending := by
  unfold State.signal
  dsimp only
  repeat' split
  all_goals simp

/-! ### State.ringSettle -/

@[simp] theorem State.ringSettle_module (s : State) (p : Nat) : (State.ringSettle s p).module = s.module := by
  unfold State.ringSettle
  dsimp only
  repeat' split
  all_goals simp

@[simp] theorem State.ringSettle_hif (s : State) (p : Nat) : (State.ringSettle s p).hif = s.hif := by
  unfold State.ringSettle
  dsimp only
  repeat' split
  all_goals simp

@[simp] theorem State.ringSettle_sch (s : State) (p : Nat) : (State.ringSettle s p).sch = s.sch := by
  unfold State.ringSettle
  dsimp only
  repeat' split
  all_goals simp

@[simp] theorem State.ringSettle_pwr (s : State) (p : Nat) : (State.ringSettle s p).pwr = s.pwr := by
  unfold State.ringSettle
  dsimp only
  repeat' split
  all_goals simp

@[simp] theorem State.ringSettle_thm (s : State) (p : Nat) : (State.ringSettle s p).thm = s.thm := by
  unfold State.ringSettle
  dsimp only
  repeat' split
  all_goals simp

@[simp] theorem State.ringSettle_mgt (s : State) (p : Nat) : (State.ringSettle s p).mgt = s.mgt := by
  unfold State.ringSettle
  dsimp only
  repeat' split
  all_goals simp

@[simp] theorem State.ringSettle_tst (s : State) (p : Nat) : (State.ringSettle s p).tst = s.tst := by
  unfold State.ringSettle
  dsimp only
  repeat' split
  all_goals simp

@[simp] theorem State.ringSettle_scan (s : State) (p : Nat) : (State.ringSettle s p).scan = s.scan := by
  unfold State.ringSettle
  dsimp only
  repeat' split
  all_goals simp

@[simp] theorem State.ringSettle_colls (s : State) (p : Nat) : (State.ringSettle s p).colls = s.colls := by
  unfold State.ringSettle
  dsimp only
  repeat' split
  all_goals simp

@[simp] theorem State.ringSettle_jrn (s : State) (p : Nat) : (State.ringSettle s p).jrn = s.jrn := by
  unfold State.ringSettle
  dsimp only
  repeat' split
  all_goals simp

@[simp] theorem State.ringSettle_mem (s : State) (p : Nat) : (State.ringSettle s p).mem = s.mem := by
  unfold State.ringSettle
  dsimp only
  repeat' split
  all_goals simp

@[simp] theorem State.ringSettle_models (s : State) (p : Nat) : (State.ringSettle s p).models = s.models := by
  unfold State.ringSettle
  dsimp only
  repeat' split
  all_goals simp

@[simp] theorem State.ringSettle_tiles (s : State) (p : Nat) : (State.ringSettle s p).tiles = s.tiles := by
  unfold State.ringSettle
  dsimp only
  repeat' split
  all_goals simp

@[simp] theorem State.ringSettle_sec (s : State) (p : Nat) : (State.ringSettle s p).sec = s.sec := by
  unfold State.ringSettle
  dsimp only
  repeat' split
  all_goals simp

@[simp] theorem State.ringSettle_fmt (s : State) (p : Nat) : (State.ringSettle s p).fmt = s.fmt := by
  unfold State.ringSettle
  dsimp only
  repeat' split
  all_goals simp

@[simp] theorem State.ringSettle_hostMem (s : State) (p : Nat) : (State.ringSettle s p).hostMem = s.hostMem := by
  unfold State.ringSettle
  dsimp only
  repeat' split
  all_goals simp

@[simp] theorem State.ringSettle_hostBad (s : State) (p : Nat) : (State.ringSettle s p).hostBad = s.hostBad := by
  unfold State.ringSettle
  dsimp only
  repeat' split
  all_goals simp

@[simp] theorem State.ringSettle_freeCtr (s : State) (p : Nat) : (State.ringSettle s p).freeCtr = s.freeCtr := by
  unfold State.ringSettle
  dsimp only
  repeat' split
  all_goals simp

@[simp] theorem State.ringSettle_pending (s : State) (p : Nat) : (State.ringSettle s p).pending = s.pending := by
  unfold State.ringSettle
  dsimp only
  repeat' split
  all_goals simp

/-! ### State.cacheFill -/

@[simp] theorem State.cacheFill_module (s : State) (a : Nat) :
    (s.cacheFill a).module = s.module := by
  unfold State.cacheFill
  split <;> rfl

@[simp] theorem State.cacheFill_qm (s : State) (a : Nat) :
    (s.cacheFill a).qm = s.qm := by
  unfold State.cacheFill
  split <;> rfl

@[simp] theorem State.cacheFill_sch (s : State) (a : Nat) :
    (s.cacheFill a).sch = s.sch := by
  unfold State.cacheFill
  split <;> rfl

@[simp] theorem State.cacheFill_pwr (s : State) (a : Nat) :
    (s.cacheFill a).pwr = s.pwr := by
  unfold State.cacheFill
  split <;> rfl

@[simp] theorem State.cacheFill_thm (s : State) (a : Nat) :
    (s.cacheFill a).thm = s.thm := by
  unfold State.cacheFill
  split <;> rfl

@[simp] theorem State.cacheFill_mgt (s : State) (a : Nat) :
    (s.cacheFill a).mgt = s.mgt := by
  unfold State.cacheFill
  split <;> rfl

@[simp] theorem State.cacheFill_tst (s : State) (a : Nat) :
    (s.cacheFill a).tst = s.tst := by
  unfold State.cacheFill
  split <;> rfl

@[simp] theorem State.cacheFill_scan (s : State) (a : Nat) :
    (s.cacheFill a).scan = s.scan := by
  unfold State.cacheFill
  split <;> rfl

@[simp] theorem State.cacheFill_colls (s : State) (a : Nat) :
    (s.cacheFill a).colls = s.colls := by
  unfold State.cacheFill
  split <;> rfl

@[simp] theorem State.cacheFill_jrn (s : State) (a : Nat) :
    (s.cacheFill a).jrn = s.jrn := by
  unfold State.cacheFill
  split <;> rfl

@[simp] theorem State.cacheFill_mem (s : State) (a : Nat) :
    (s.cacheFill a).mem = s.mem := by
  unfold State.cacheFill
  split <;> rfl

@[simp] theorem State.cacheFill_models (s : State) (a : Nat) :
    (s.cacheFill a).models = s.models := by
  unfold State.cacheFill
  split <;> rfl

@[simp] theorem State.cacheFill_tiles (s : State) (a : Nat) :
    (s.cacheFill a).tiles = s.tiles := by
  unfold State.cacheFill
  split <;> rfl

@[simp] theorem State.cacheFill_sec (s : State) (a : Nat) :
    (s.cacheFill a).sec = s.sec := by
  unfold State.cacheFill
  split <;> rfl

@[simp] theorem State.cacheFill_fmt (s : State) (a : Nat) :
    (s.cacheFill a).fmt = s.fmt := by
  unfold State.cacheFill
  split <;> rfl

@[simp] theorem State.cacheFill_hostMem (s : State) (a : Nat) :
    (s.cacheFill a).hostMem = s.hostMem := by
  unfold State.cacheFill
  split <;> rfl

@[simp] theorem State.cacheFill_hostBad (s : State) (a : Nat) :
    (s.cacheFill a).hostBad = s.hostBad := by
  unfold State.cacheFill
  split <;> rfl

@[simp] theorem State.cacheFill_freeCtr (s : State) (a : Nat) :
    (s.cacheFill a).freeCtr = s.freeCtr := by
  unfold State.cacheFill
  split <;> rfl

@[simp] theorem State.cacheFill_pending (s : State) (a : Nat) :
    (s.cacheFill a).pending = s.pending := by
  unfold State.cacheFill
  split <;> rfl

/-! ### State.dropGone -/

@[simp] theorem State.dropGone_module (s : State) (n : Nat) :
    (s.dropGone n).module = s.module := by
  unfold State.dropGone
  repeat' split
  all_goals first | rfl | simp

@[simp] theorem State.dropGone_hif (s : State) (n : Nat) :
    (s.dropGone n).hif = s.hif := by
  unfold State.dropGone
  repeat' split
  all_goals first | rfl | simp

@[simp] theorem State.dropGone_qm (s : State) (n : Nat) :
    (s.dropGone n).qm = s.qm := by
  unfold State.dropGone
  repeat' split
  all_goals first | rfl | simp

@[simp] theorem State.dropGone_sch (s : State) (n : Nat) :
    (s.dropGone n).sch = s.sch := by
  unfold State.dropGone
  repeat' split
  all_goals first | rfl | simp

@[simp] theorem State.dropGone_pwr (s : State) (n : Nat) :
    (s.dropGone n).pwr = s.pwr := by
  unfold State.dropGone
  repeat' split
  all_goals first | rfl | simp

@[simp] theorem State.dropGone_thm (s : State) (n : Nat) :
    (s.dropGone n).thm = s.thm := by
  unfold State.dropGone
  repeat' split
  all_goals first | rfl | simp

@[simp] theorem State.dropGone_mgt (s : State) (n : Nat) :
    (s.dropGone n).mgt = s.mgt := by
  unfold State.dropGone
  repeat' split
  all_goals first | rfl | simp

@[simp] theorem State.dropGone_tst (s : State) (n : Nat) :
    (s.dropGone n).tst = s.tst := by
  unfold State.dropGone
  repeat' split
  all_goals first | rfl | simp

@[simp] theorem State.dropGone_scan (s : State) (n : Nat) :
    (s.dropGone n).scan = s.scan := by
  unfold State.dropGone
  repeat' split
  all_goals first | rfl | simp

@[simp] theorem State.dropGone_colls (s : State) (n : Nat) :
    (s.dropGone n).colls = s.colls := by
  unfold State.dropGone
  repeat' split
  all_goals first | rfl | simp

@[simp] theorem State.dropGone_mem (s : State) (n : Nat) :
    (s.dropGone n).mem = s.mem := by
  unfold State.dropGone
  repeat' split
  all_goals first | rfl | simp

@[simp] theorem State.dropGone_models (s : State) (n : Nat) :
    (s.dropGone n).models = s.models := by
  unfold State.dropGone
  repeat' split
  all_goals first | rfl | simp

@[simp] theorem State.dropGone_tiles (s : State) (n : Nat) :
    (s.dropGone n).tiles = s.tiles := by
  unfold State.dropGone
  repeat' split
  all_goals first | rfl | simp

@[simp] theorem State.dropGone_sec (s : State) (n : Nat) :
    (s.dropGone n).sec = s.sec := by
  unfold State.dropGone
  repeat' split
  all_goals first | rfl | simp

@[simp] theorem State.dropGone_fmt (s : State) (n : Nat) :
    (s.dropGone n).fmt = s.fmt := by
  unfold State.dropGone
  repeat' split
  all_goals first | rfl | simp

@[simp] theorem State.dropGone_hostMem (s : State) (n : Nat) :
    (s.dropGone n).hostMem = s.hostMem := by
  unfold State.dropGone
  repeat' split
  all_goals first | rfl | simp

@[simp] theorem State.dropGone_hostBad (s : State) (n : Nat) :
    (s.dropGone n).hostBad = s.hostBad := by
  unfold State.dropGone
  repeat' split
  all_goals first | rfl | simp

@[simp] theorem State.dropGone_freeCtr (s : State) (n : Nat) :
    (s.dropGone n).freeCtr = s.freeCtr := by
  unfold State.dropGone
  repeat' split
  all_goals first | rfl | simp

@[simp] theorem State.dropGone_pending (s : State) (n : Nat) :
    (s.dropGone n).pending = s.pending := by
  unfold State.dropGone
  repeat' split
  all_goals first | rfl | simp

@[simp] theorem State.dropGone_jrn_frames (s : State) (n : Nat) :
    (s.dropGone n).jrn.frames = s.jrn.frames := by
  unfold State.dropGone
  repeat' split
  all_goals first | rfl | simp

@[simp] theorem State.dropGone_jrn_images (s : State) (n : Nat) :
    (s.dropGone n).jrn.images = s.jrn.images := by
  unfold State.dropGone
  repeat' split
  all_goals first | rfl | simp

@[simp] theorem State.dropGone_jrn_h (s : State) (n : Nat) :
    (s.dropGone n).jrn.h = s.jrn.h := by
  unfold State.dropGone
  repeat' split
  all_goals first | rfl | simp

@[simp] theorem State.dropGone_jrn_next (s : State) (n : Nat) :
    (s.dropGone n).jrn.next = s.jrn.next := by
  unfold State.dropGone
  repeat' split
  all_goals first | rfl | simp

/-! ### State.finish -/

@[simp] theorem State.finish_module (s : State) (c : Cmd) (st spec0 spec1 : Nat) (result trunc : Bool) :
    (s.finish c st spec0 spec1 result trunc).module = s.module := by
  unfold State.finish
  dsimp only
  repeat' split
  all_goals first | rfl | simp

@[simp] theorem State.finish_pwr (s : State) (c : Cmd) (st spec0 spec1 : Nat) (result trunc : Bool) :
    (s.finish c st spec0 spec1 result trunc).pwr = s.pwr := by
  unfold State.finish
  dsimp only
  repeat' split
  all_goals first | rfl | simp

@[simp] theorem State.finish_thm (s : State) (c : Cmd) (st spec0 spec1 : Nat) (result trunc : Bool) :
    (s.finish c st spec0 spec1 result trunc).thm = s.thm := by
  unfold State.finish
  dsimp only
  repeat' split
  all_goals first | rfl | simp

@[simp] theorem State.finish_tst (s : State) (c : Cmd) (st spec0 spec1 : Nat) (result trunc : Bool) :
    (s.finish c st spec0 spec1 result trunc).tst = s.tst := by
  unfold State.finish
  dsimp only
  repeat' split
  all_goals first | rfl | simp

@[simp] theorem State.finish_scan (s : State) (c : Cmd) (st spec0 spec1 : Nat) (result trunc : Bool) :
    (s.finish c st spec0 spec1 result trunc).scan = s.scan := by
  unfold State.finish
  dsimp only
  repeat' split
  all_goals first | rfl | simp

@[simp] theorem State.finish_colls (s : State) (c : Cmd) (st spec0 spec1 : Nat) (result trunc : Bool) :
    (s.finish c st spec0 spec1 result trunc).colls = s.colls := by
  unfold State.finish
  dsimp only
  repeat' split
  all_goals first | rfl | simp

@[simp] theorem State.finish_fmt (s : State) (c : Cmd) (st spec0 spec1 : Nat) (result trunc : Bool) :
    (s.finish c st spec0 spec1 result trunc).fmt = s.fmt := by
  unfold State.finish
  dsimp only
  repeat' split
  all_goals first | rfl | simp

@[simp] theorem State.finish_hostBad (s : State) (c : Cmd) (st spec0 spec1 : Nat) (result trunc : Bool) :
    (s.finish c st spec0 spec1 result trunc).hostBad = s.hostBad := by
  unfold State.finish
  dsimp only
  repeat' split
  all_goals first | rfl | simp

@[simp] theorem State.finish_freeCtr (s : State) (c : Cmd) (st spec0 spec1 : Nat) (result trunc : Bool) :
    (s.finish c st spec0 spec1 result trunc).freeCtr = s.freeCtr := by
  unfold State.finish
  dsimp only
  repeat' split
  all_goals first | rfl | simp

@[simp] theorem State.finish_pending (s : State) (c : Cmd) (st spec0 spec1 : Nat) (result trunc : Bool) :
    (s.finish c st spec0 spec1 result trunc).pending = s.pending := by
  unfold State.finish
  dsimp only
  repeat' split
  all_goals first | rfl | simp

@[simp] theorem State.finish_jrn_frames (s : State) (c : Cmd) (st spec0 spec1 : Nat) (result trunc : Bool) :
    (s.finish c st spec0 spec1 result trunc).jrn.frames = s.jrn.frames := by
  unfold State.finish
  dsimp only
  repeat' split
  all_goals first | rfl | simp

@[simp] theorem State.finish_jrn_images (s : State) (c : Cmd) (st spec0 spec1 : Nat) (result trunc : Bool) :
    (s.finish c st spec0 spec1 result trunc).jrn.images = s.jrn.images := by
  unfold State.finish
  dsimp only
  repeat' split
  all_goals first | rfl | simp

@[simp] theorem State.finish_jrn_h (s : State) (c : Cmd) (st spec0 spec1 : Nat) (result trunc : Bool) :
    (s.finish c st spec0 spec1 result trunc).jrn.h = s.jrn.h := by
  unfold State.finish
  dsimp only
  repeat' split
  all_goals first | rfl | simp

@[simp] theorem State.finish_jrn_next (s : State) (c : Cmd) (st spec0 spec1 : Nat) (result trunc : Bool) :
    (s.finish c st spec0 spec1 result trunc).jrn.next = s.jrn.next := by
  unfold State.finish
  dsimp only
  repeat' split
  all_goals first | rfl | simp

@[simp] theorem State.finish_models (s : State) (c : Cmd) (st spec0 spec1 : Nat) (result trunc : Bool) :
    (s.finish c st spec0 spec1 result trunc).models = s.models := by
  unfold State.finish
  dsimp only
  repeat' split
  all_goals first | rfl | simp

/-! ### State.yieldSettle -/

@[simp] theorem State.yieldSettle_module (s : State) (x : Nat) :
    (s.yieldSettle x).module = s.module := by
  unfold State.yieldSettle
  dsimp only
  repeat' split
  all_goals first | rfl | simp

@[simp] theorem State.yieldSettle_pwr (s : State) (x : Nat) :
    (s.yieldSettle x).pwr = s.pwr := by
  unfold State.yieldSettle
  dsimp only
  repeat' split
  all_goals first | rfl | simp

@[simp] theorem State.yieldSettle_thm (s : State) (x : Nat) :
    (s.yieldSettle x).thm = s.thm := by
  unfold State.yieldSettle
  dsimp only
  repeat' split
  all_goals first | rfl | simp

@[simp] theorem State.yieldSettle_tst (s : State) (x : Nat) :
    (s.yieldSettle x).tst = s.tst := by
  unfold State.yieldSettle
  dsimp only
  repeat' split
  all_goals first | rfl | simp

@[simp] theorem State.yieldSettle_scan (s : State) (x : Nat) :
    (s.yieldSettle x).scan = s.scan := by
  unfold State.yieldSettle
  dsimp only
  repeat' split
  all_goals first | rfl | simp

@[simp] theorem State.yieldSettle_colls (s : State) (x : Nat) :
    (s.yieldSettle x).colls = s.colls := by
  unfold State.yieldSettle
  dsimp only
  repeat' split
  all_goals first | rfl | simp

@[simp] theorem State.yieldSettle_fmt (s : State) (x : Nat) :
    (s.yieldSettle x).fmt = s.fmt := by
  unfold State.yieldSettle
  dsimp only
  repeat' split
  all_goals first | rfl | simp

@[simp] theorem State.yieldSettle_hostBad (s : State) (x : Nat) :
    (s.yieldSettle x).hostBad = s.hostBad := by
  unfold State.yieldSettle
  dsimp only
  repeat' split
  all_goals first | rfl | simp

@[simp] theorem State.yieldSettle_freeCtr (s : State) (x : Nat) :
    (s.yieldSettle x).freeCtr = s.freeCtr := by
  unfold State.yieldSettle
  dsimp only
  repeat' split
  all_goals first | rfl | simp

@[simp] theorem State.yieldSettle_pending (s : State) (x : Nat) :
    (s.yieldSettle x).pending = s.pending := by
  unfold State.yieldSettle
  dsimp only
  repeat' split
  all_goals first | rfl | simp

@[simp] theorem State.yieldSettle_jrn_frames (s : State) (x : Nat) :
    (s.yieldSettle x).jrn.frames = s.jrn.frames := by
  unfold State.yieldSettle
  dsimp only
  repeat' split
  all_goals first | rfl | simp

@[simp] theorem State.yieldSettle_jrn_images (s : State) (x : Nat) :
    (s.yieldSettle x).jrn.images = s.jrn.images := by
  unfold State.yieldSettle
  dsimp only
  repeat' split
  all_goals first | rfl | simp

@[simp] theorem State.yieldSettle_jrn_h (s : State) (x : Nat) :
    (s.yieldSettle x).jrn.h = s.jrn.h := by
  unfold State.yieldSettle
  dsimp only
  repeat' split
  all_goals first | rfl | simp

@[simp] theorem State.yieldSettle_jrn_next (s : State) (x : Nat) :
    (s.yieldSettle x).jrn.next = s.jrn.next := by
  unfold State.yieldSettle
  dsimp only
  repeat' split
  all_goals first | rfl | simp

@[simp] theorem State.yieldSettle_models (s : State) (x : Nat) :
    (s.yieldSettle x).models = s.models := by
  unfold State.yieldSettle
  dsimp only
  repeat' split
  all_goals first | rfl | simp

/-! ### State.saveSettle -/

@[simp] theorem State.saveSettle_module (s : State) (x : Nat) :
    (s.saveSettle x).module = s.module := by
  unfold State.saveSettle
  dsimp only
  repeat' split
  all_goals first | rfl | simp

@[simp] theorem State.saveSettle_pwr (s : State) (x : Nat) :
    (s.saveSettle x).pwr = s.pwr := by
  unfold State.saveSettle
  dsimp only
  repeat' split
  all_goals first | rfl | simp

@[simp] theorem State.saveSettle_thm (s : State) (x : Nat) :
    (s.saveSettle x).thm = s.thm := by
  unfold State.saveSettle
  dsimp only
  repeat' split
  all_goals first | rfl | simp

@[simp] theorem State.saveSettle_tst (s : State) (x : Nat) :
    (s.saveSettle x).tst = s.tst := by
  unfold State.saveSettle
  dsimp only
  repeat' split
  all_goals first | rfl | simp

@[simp] theorem State.saveSettle_scan (s : State) (x : Nat) :
    (s.saveSettle x).scan = s.scan := by
  unfold State.saveSettle
  dsimp only
  repeat' split
  all_goals first | rfl | simp

@[simp] theorem State.saveSettle_colls (s : State) (x : Nat) :
    (s.saveSettle x).colls = s.colls := by
  unfold State.saveSettle
  dsimp only
  repeat' split
  all_goals first | rfl | simp

@[simp] theorem State.saveSettle_fmt (s : State) (x : Nat) :
    (s.saveSettle x).fmt = s.fmt := by
  unfold State.saveSettle
  dsimp only
  repeat' split
  all_goals first | rfl | simp

@[simp] theorem State.saveSettle_hostBad (s : State) (x : Nat) :
    (s.saveSettle x).hostBad = s.hostBad := by
  unfold State.saveSettle
  dsimp only
  repeat' split
  all_goals first | rfl | simp

@[simp] theorem State.saveSettle_freeCtr (s : State) (x : Nat) :
    (s.saveSettle x).freeCtr = s.freeCtr := by
  unfold State.saveSettle
  dsimp only
  repeat' split
  all_goals first | rfl | simp

@[simp] theorem State.saveSettle_pending (s : State) (x : Nat) :
    (s.saveSettle x).pending = s.pending := by
  unfold State.saveSettle
  dsimp only
  repeat' split
  all_goals first | rfl | simp

@[simp] theorem State.saveSettle_jrn_frames (s : State) (x : Nat) :
    (s.saveSettle x).jrn.frames = s.jrn.frames := by
  unfold State.saveSettle
  dsimp only
  repeat' split
  all_goals first | rfl | simp

@[simp] theorem State.saveSettle_jrn_images (s : State) (x : Nat) :
    (s.saveSettle x).jrn.images = s.jrn.images := by
  unfold State.saveSettle
  dsimp only
  repeat' split
  all_goals first | rfl | simp

@[simp] theorem State.saveSettle_jrn_h (s : State) (x : Nat) :
    (s.saveSettle x).jrn.h = s.jrn.h := by
  unfold State.saveSettle
  dsimp only
  repeat' split
  all_goals first | rfl | simp

@[simp] theorem State.saveSettle_jrn_next (s : State) (x : Nat) :
    (s.saveSettle x).jrn.next = s.jrn.next := by
  unfold State.saveSettle
  dsimp only
  repeat' split
  all_goals first | rfl | simp

@[simp] theorem State.saveSettle_models (s : State) (x : Nat) :
    (s.saveSettle x).models = s.models := by
  unfold State.saveSettle
  dsimp only
  repeat' split
  all_goals first | rfl | simp

/-! ### State.markHeld -/

@[simp] theorem State.markHeld_module (s : State) (x : Nat) :
    (s.markHeld x).module = s.module := by
  rfl

@[simp] theorem State.markHeld_hif (s : State) (x : Nat) :
    (s.markHeld x).hif = s.hif := by
  rfl

@[simp] theorem State.markHeld_qm (s : State) (x : Nat) :
    (s.markHeld x).qm = s.qm := by
  rfl

@[simp] theorem State.markHeld_pwr (s : State) (x : Nat) :
    (s.markHeld x).pwr = s.pwr := by
  rfl

@[simp] theorem State.markHeld_thm (s : State) (x : Nat) :
    (s.markHeld x).thm = s.thm := by
  rfl

@[simp] theorem State.markHeld_mgt (s : State) (x : Nat) :
    (s.markHeld x).mgt = s.mgt := by
  rfl

@[simp] theorem State.markHeld_tst (s : State) (x : Nat) :
    (s.markHeld x).tst = s.tst := by
  rfl

@[simp] theorem State.markHeld_scan (s : State) (x : Nat) :
    (s.markHeld x).scan = s.scan := by
  rfl

@[simp] theorem State.markHeld_colls (s : State) (x : Nat) :
    (s.markHeld x).colls = s.colls := by
  rfl

@[simp] theorem State.markHeld_jrn (s : State) (x : Nat) :
    (s.markHeld x).jrn = s.jrn := by
  rfl

@[simp] theorem State.markHeld_models (s : State) (x : Nat) :
    (s.markHeld x).models = s.models := by
  rfl

@[simp] theorem State.markHeld_tiles (s : State) (x : Nat) :
    (s.markHeld x).tiles = s.tiles := by
  rfl

@[simp] theorem State.markHeld_sec (s : State) (x : Nat) :
    (s.markHeld x).sec = s.sec := by
  rfl

@[simp] theorem State.markHeld_fmt (s : State) (x : Nat) :
    (s.markHeld x).fmt = s.fmt := by
  rfl

@[simp] theorem State.markHeld_hostMem (s : State) (x : Nat) :
    (s.markHeld x).hostMem = s.hostMem := by
  rfl

@[simp] theorem State.markHeld_hostBad (s : State) (x : Nat) :
    (s.markHeld x).hostBad = s.hostBad := by
  rfl

@[simp] theorem State.markHeld_freeCtr (s : State) (x : Nat) :
    (s.markHeld x).freeCtr = s.freeCtr := by
  rfl

@[simp] theorem State.markHeld_pending (s : State) (x : Nat) :
    (s.markHeld x).pending = s.pending := by
  rfl

/-! ### State.borrowSettle -/

@[simp] theorem State.borrowSettle_module (s : State) (x : Nat) :
    (s.borrowSettle x).module = s.module := by
  unfold State.borrowSettle
  dsimp only
  repeat' split
  all_goals first | rfl | simp

@[simp] theorem State.borrowSettle_hif (s : State) (x : Nat) :
    (s.borrowSettle x).hif = s.hif := by
  unfold State.borrowSettle
  dsimp only
  repeat' split
  all_goals first | rfl | simp

@[simp] theorem State.borrowSettle_qm (s : State) (x : Nat) :
    (s.borrowSettle x).qm = s.qm := by
  unfold State.borrowSettle
  dsimp only
  repeat' split
  all_goals first | rfl | simp

@[simp] theorem State.borrowSettle_pwr (s : State) (x : Nat) :
    (s.borrowSettle x).pwr = s.pwr := by
  unfold State.borrowSettle
  dsimp only
  repeat' split
  all_goals first | rfl | simp

@[simp] theorem State.borrowSettle_thm (s : State) (x : Nat) :
    (s.borrowSettle x).thm = s.thm := by
  unfold State.borrowSettle
  dsimp only
  repeat' split
  all_goals first | rfl | simp

@[simp] theorem State.borrowSettle_mgt (s : State) (x : Nat) :
    (s.borrowSettle x).mgt = s.mgt := by
  unfold State.borrowSettle
  dsimp only
  repeat' split
  all_goals first | rfl | simp

@[simp] theorem State.borrowSettle_tst (s : State) (x : Nat) :
    (s.borrowSettle x).tst = s.tst := by
  unfold State.borrowSettle
  dsimp only
  repeat' split
  all_goals first | rfl | simp

@[simp] theorem State.borrowSettle_scan (s : State) (x : Nat) :
    (s.borrowSettle x).scan = s.scan := by
  unfold State.borrowSettle
  dsimp only
  repeat' split
  all_goals first | rfl | simp

@[simp] theorem State.borrowSettle_colls (s : State) (x : Nat) :
    (s.borrowSettle x).colls = s.colls := by
  unfold State.borrowSettle
  dsimp only
  repeat' split
  all_goals first | rfl | simp

@[simp] theorem State.borrowSettle_jrn (s : State) (x : Nat) :
    (s.borrowSettle x).jrn = s.jrn := by
  unfold State.borrowSettle
  dsimp only
  repeat' split
  all_goals first | rfl | simp

@[simp] theorem State.borrowSettle_models (s : State) (x : Nat) :
    (s.borrowSettle x).models = s.models := by
  unfold State.borrowSettle
  dsimp only
  repeat' split
  all_goals first | rfl | simp

@[simp] theorem State.borrowSettle_tiles (s : State) (x : Nat) :
    (s.borrowSettle x).tiles = s.tiles := by
  unfold State.borrowSettle
  dsimp only
  repeat' split
  all_goals first | rfl | simp

@[simp] theorem State.borrowSettle_sec (s : State) (x : Nat) :
    (s.borrowSettle x).sec = s.sec := by
  unfold State.borrowSettle
  dsimp only
  repeat' split
  all_goals first | rfl | simp

@[simp] theorem State.borrowSettle_fmt (s : State) (x : Nat) :
    (s.borrowSettle x).fmt = s.fmt := by
  unfold State.borrowSettle
  dsimp only
  repeat' split
  all_goals first | rfl | simp

@[simp] theorem State.borrowSettle_hostMem (s : State) (x : Nat) :
    (s.borrowSettle x).hostMem = s.hostMem := by
  unfold State.borrowSettle
  dsimp only
  repeat' split
  all_goals first | rfl | simp

@[simp] theorem State.borrowSettle_hostBad (s : State) (x : Nat) :
    (s.borrowSettle x).hostBad = s.hostBad := by
  unfold State.borrowSettle
  dsimp only
  repeat' split
  all_goals first | rfl | simp

@[simp] theorem State.borrowSettle_freeCtr (s : State) (x : Nat) :
    (s.borrowSettle x).freeCtr = s.freeCtr := by
  unfold State.borrowSettle
  dsimp only
  repeat' split
  all_goals first | rfl | simp

@[simp] theorem State.borrowSettle_pending (s : State) (x : Nat) :
    (s.borrowSettle x).pending = s.pending := by
  unfold State.borrowSettle
  dsimp only
  repeat' split
  all_goals first | rfl | simp

/-- A fold whose steps keep a projection keeps it. -/
theorem foldl_keeps {σ α β : Type} (g : σ → β) (f : σ → α → σ) (l : List α) (s : σ) (hf : ∀ s x, g (f s x) = g s) :
    g (l.foldl f s) = g s := by
  induction l generalizing s with
  | nil => rfl
  | cons x l ih => rw [List.foldl_cons, ih, hf]

/-! ### State.putImages -/

@[simp] theorem State.putImages_module (s : State) (p : Nat) (sel : SaveImage → Bool) :
    (s.putImages p sel).module = s.module := by
  unfold State.putImages
  exact foldl_keeps State.module _ _ _ (fun _ _ => rfl)

@[simp] theorem State.putImages_hif (s : State) (p : Nat) (sel : SaveImage → Bool) :
    (s.putImages p sel).hif = s.hif := by
  unfold State.putImages
  exact foldl_keeps State.hif _ _ _ (fun _ _ => rfl)

@[simp] theorem State.putImages_pwr (s : State) (p : Nat) (sel : SaveImage → Bool) :
    (s.putImages p sel).pwr = s.pwr := by
  unfold State.putImages
  exact foldl_keeps State.pwr _ _ _ (fun _ _ => rfl)

@[simp] theorem State.putImages_thm (s : State) (p : Nat) (sel : SaveImage → Bool) :
    (s.putImages p sel).thm = s.thm := by
  unfold State.putImages
  exact foldl_keeps State.thm _ _ _ (fun _ _ => rfl)

@[simp] theorem State.putImages_mgt (s : State) (p : Nat) (sel : SaveImage → Bool) :
    (s.putImages p sel).mgt = s.mgt := by
  unfold State.putImages
  exact foldl_keeps State.mgt _ _ _ (fun _ _ => rfl)

@[simp] theorem State.putImages_tst (s : State) (p : Nat) (sel : SaveImage → Bool) :
    (s.putImages p sel).tst = s.tst := by
  unfold State.putImages
  exact foldl_keeps State.tst _ _ _ (fun _ _ => rfl)

@[simp] theorem State.putImages_scan (s : State) (p : Nat) (sel : SaveImage → Bool) :
    (s.putImages p sel).scan = s.scan := by
  unfold State.putImages
  exact foldl_keeps State.scan _ _ _ (fun _ _ => rfl)

@[simp] theorem State.putImages_colls (s : State) (p : Nat) (sel : SaveImage → Bool) :
    (s.putImages p sel).colls = s.colls := by
  unfold State.putImages
  exact foldl_keeps State.colls _ _ _ (fun _ _ => rfl)

@[simp] theorem State.putImages_jrn (s : State) (p : Nat) (sel : SaveImage → Bool) :
    (s.putImages p sel).jrn = s.jrn := by
  unfold State.putImages
  exact foldl_keeps State.jrn _ _ _ (fun _ _ => rfl)

@[simp] theorem State.putImages_models (s : State) (p : Nat) (sel : SaveImage → Bool) :
    (s.putImages p sel).models = s.models := by
  unfold State.putImages
  exact foldl_keeps State.models _ _ _ (fun _ _ => rfl)

@[simp] theorem State.putImages_sec (s : State) (p : Nat) (sel : SaveImage → Bool) :
    (s.putImages p sel).sec = s.sec := by
  unfold State.putImages
  exact foldl_keeps State.sec _ _ _ (fun _ _ => rfl)

@[simp] theorem State.putImages_fmt (s : State) (p : Nat) (sel : SaveImage → Bool) :
    (s.putImages p sel).fmt = s.fmt := by
  unfold State.putImages
  exact foldl_keeps State.fmt _ _ _ (fun _ _ => rfl)

@[simp] theorem State.putImages_hostMem (s : State) (p : Nat) (sel : SaveImage → Bool) :
    (s.putImages p sel).hostMem = s.hostMem := by
  unfold State.putImages
  exact foldl_keeps State.hostMem _ _ _ (fun _ _ => rfl)

@[simp] theorem State.putImages_hostBad (s : State) (p : Nat) (sel : SaveImage → Bool) :
    (s.putImages p sel).hostBad = s.hostBad := by
  unfold State.putImages
  exact foldl_keeps State.hostBad _ _ _ (fun _ _ => rfl)

@[simp] theorem State.putImages_freeCtr (s : State) (p : Nat) (sel : SaveImage → Bool) :
    (s.putImages p sel).freeCtr = s.freeCtr := by
  unfold State.putImages
  exact foldl_keeps State.freeCtr _ _ _ (fun _ _ => rfl)

@[simp] theorem State.putImages_pending (s : State) (p : Nat) (sel : SaveImage → Bool) :
    (s.putImages p sel).pending = s.pending := by
  unfold State.putImages
  exact foldl_keeps State.pending _ _ _ (fun _ _ => rfl)

/-! ### State.restoreFree -/

@[simp] theorem State.restoreFree_module (s : State) (p : Nat) :
    (s.restoreFree p).module = s.module := by
  unfold State.restoreFree
  simp

@[simp] theorem State.restoreFree_hif (s : State) (p : Nat) :
    (s.restoreFree p).hif = s.hif := by
  unfold State.restoreFree
  simp

@[simp] theorem State.restoreFree_pwr (s : State) (p : Nat) :
    (s.restoreFree p).pwr = s.pwr := by
  unfold State.restoreFree
  simp

@[simp] theorem State.restoreFree_thm (s : State) (p : Nat) :
    (s.restoreFree p).thm = s.thm := by
  unfold State.restoreFree
  simp

@[simp] theorem State.restoreFree_mgt (s : State) (p : Nat) :
    (s.restoreFree p).mgt = s.mgt := by
  unfold State.restoreFree
  simp

@[simp] theorem State.restoreFree_tst (s : State) (p : Nat) :
    (s.restoreFree p).tst = s.tst := by
  unfold State.restoreFree
  simp

@[simp] theorem State.restoreFree_scan (s : State) (p : Nat) :
    (s.restoreFree p).scan = s.scan := by
  unfold State.restoreFree
  simp

@[simp] theorem State.restoreFree_colls (s : State) (p : Nat) :
    (s.restoreFree p).colls = s.colls := by
  unfold State.restoreFree
  simp

@[simp] theorem State.restoreFree_jrn (s : State) (p : Nat) :
    (s.restoreFree p).jrn = s.jrn := by
  unfold State.restoreFree
  simp

@[simp] theorem State.restoreFree_models (s : State) (p : Nat) :
    (s.restoreFree p).models = s.models := by
  unfold State.restoreFree
  simp

@[simp] theorem State.restoreFree_sec (s : State) (p : Nat) :
    (s.restoreFree p).sec = s.sec := by
  unfold State.restoreFree
  simp

@[simp] theorem State.restoreFree_fmt (s : State) (p : Nat) :
    (s.restoreFree p).fmt = s.fmt := by
  unfold State.restoreFree
  simp

@[simp] theorem State.restoreFree_hostMem (s : State) (p : Nat) :
    (s.restoreFree p).hostMem = s.hostMem := by
  unfold State.restoreFree
  simp

@[simp] theorem State.restoreFree_hostBad (s : State) (p : Nat) :
    (s.restoreFree p).hostBad = s.hostBad := by
  unfold State.restoreFree
  simp

@[simp] theorem State.restoreFree_freeCtr (s : State) (p : Nat) :
    (s.restoreFree p).freeCtr = s.freeCtr := by
  unfold State.restoreFree
  simp

@[simp] theorem State.restoreFree_pending (s : State) (p : Nat) :
    (s.restoreFree p).pending = s.pending := by
  unfold State.restoreFree
  simp

/-! ### State.pauseSettle -/

@[simp] theorem State.pauseSettle_module (s : State) (p : Nat) :
    (s.pauseSettle p).module = s.module := by
  unfold State.pauseSettle
  dsimp only
  repeat' split
  all_goals first | rfl | simp

@[simp] theorem State.pauseSettle_pwr (s : State) (p : Nat) :
    (s.pauseSettle p).pwr = s.pwr := by
  unfold State.pauseSettle
  dsimp only
  repeat' split
  all_goals first | rfl | simp

@[simp] theorem State.pauseSettle_thm (s : State) (p : Nat) :
    (s.pauseSettle p).thm = s.thm := by
  unfold State.pauseSettle
  dsimp only
  repeat' split
  all_goals first | rfl | simp

@[simp] theorem State.pauseSettle_tst (s : State) (p : Nat) :
    (s.pauseSettle p).tst = s.tst := by
  unfold State.pauseSettle
  dsimp only
  repeat' split
  all_goals first | rfl | simp

@[simp] theorem State.pauseSettle_scan (s : State) (p : Nat) :
    (s.pauseSettle p).scan = s.scan := by
  unfold State.pauseSettle
  dsimp only
  repeat' split
  all_goals first | rfl | simp

@[simp] theorem State.pauseSettle_colls (s : State) (p : Nat) :
    (s.pauseSettle p).colls = s.colls := by
  unfold State.pauseSettle
  dsimp only
  repeat' split
  all_goals first | rfl | simp

@[simp] theorem State.pauseSettle_fmt (s : State) (p : Nat) :
    (s.pauseSettle p).fmt = s.fmt := by
  unfold State.pauseSettle
  dsimp only
  repeat' split
  all_goals first | rfl | simp

@[simp] theorem State.pauseSettle_hostBad (s : State) (p : Nat) :
    (s.pauseSettle p).hostBad = s.hostBad := by
  unfold State.pauseSettle
  dsimp only
  repeat' split
  all_goals first | rfl | simp

@[simp] theorem State.pauseSettle_freeCtr (s : State) (p : Nat) :
    (s.pauseSettle p).freeCtr = s.freeCtr := by
  unfold State.pauseSettle
  dsimp only
  repeat' split
  all_goals first | rfl | simp

@[simp] theorem State.pauseSettle_pending (s : State) (p : Nat) :
    (s.pauseSettle p).pending = s.pending := by
  unfold State.pauseSettle
  dsimp only
  repeat' split
  all_goals first | rfl | simp

@[simp] theorem State.pauseSettle_jrn_frames (s : State) (p : Nat) :
    (s.pauseSettle p).jrn.frames = s.jrn.frames := by
  unfold State.pauseSettle
  dsimp only
  repeat' split
  all_goals first | rfl | simp

@[simp] theorem State.pauseSettle_jrn_images (s : State) (p : Nat) :
    (s.pauseSettle p).jrn.images = s.jrn.images := by
  unfold State.pauseSettle
  dsimp only
  repeat' split
  all_goals first | rfl | simp

@[simp] theorem State.pauseSettle_jrn_h (s : State) (p : Nat) :
    (s.pauseSettle p).jrn.h = s.jrn.h := by
  unfold State.pauseSettle
  dsimp only
  repeat' split
  all_goals first | rfl | simp

@[simp] theorem State.pauseSettle_jrn_next (s : State) (p : Nat) :
    (s.pauseSettle p).jrn.next = s.jrn.next := by
  unfold State.pauseSettle
  dsimp only
  repeat' split
  all_goals first | rfl | simp

@[simp] theorem State.pauseSettle_models (s : State) (p : Nat) :
    (s.pauseSettle p).models = s.models := by
  unfold State.pauseSettle
  dsimp only
  repeat' split
  all_goals first | rfl | simp

/-! ### State.drainSettle -/

@[simp] theorem State.drainSettle_module (s : State) (p : Nat) : (State.drainSettle s p).module = s.module := by
  unfold State.drainSettle
  dsimp only
  repeat' split
  all_goals simp

@[simp] theorem State.drainSettle_hif (s : State) (p : Nat) : (State.drainSettle s p).hif = s.hif := by
  unfold State.drainSettle
  dsimp only
  repeat' split
  all_goals simp

@[simp] theorem State.drainSettle_qm (s : State) (p : Nat) : (State.drainSettle s p).qm = s.qm := by
  unfold State.drainSettle
  dsimp only
  repeat' split
  all_goals simp

@[simp] theorem State.drainSettle_pwr (s : State) (p : Nat) : (State.drainSettle s p).pwr = s.pwr := by
  unfold State.drainSettle
  dsimp only
  repeat' split
  all_goals simp

@[simp] theorem State.drainSettle_thm (s : State) (p : Nat) : (State.drainSettle s p).thm = s.thm := by
  unfold State.drainSettle
  dsimp only
  repeat' split
  all_goals simp

@[simp] theorem State.drainSettle_mgt (s : State) (p : Nat) : (State.drainSettle s p).mgt = s.mgt := by
  unfold State.drainSettle
  dsimp only
  repeat' split
  all_goals simp

@[simp] theorem State.drainSettle_tst (s : State) (p : Nat) : (State.drainSettle s p).tst = s.tst := by
  unfold State.drainSettle
  dsimp only
  repeat' split
  all_goals simp

@[simp] theorem State.drainSettle_scan (s : State) (p : Nat) : (State.drainSettle s p).scan = s.scan := by
  unfold State.drainSettle
  dsimp only
  repeat' split
  all_goals simp

@[simp] theorem State.drainSettle_colls (s : State) (p : Nat) : (State.drainSettle s p).colls = s.colls := by
  unfold State.drainSettle
  dsimp only
  repeat' split
  all_goals simp

@[simp] theorem State.drainSettle_jrn (s : State) (p : Nat) : (State.drainSettle s p).jrn = s.jrn := by
  unfold State.drainSettle
  dsimp only
  repeat' split
  all_goals simp

@[simp] theorem State.drainSettle_mem (s : State) (p : Nat) : (State.drainSettle s p).mem = s.mem := by
  unfold State.drainSettle
  dsimp only
  repeat' split
  all_goals simp

@[simp] theorem State.drainSettle_tiles (s : State) (p : Nat) : (State.drainSettle s p).tiles = s.tiles := by
  unfold State.drainSettle
  dsimp only
  repeat' split
  all_goals simp

@[simp] theorem State.drainSettle_sec (s : State) (p : Nat) : (State.drainSettle s p).sec = s.sec := by
  unfold State.drainSettle
  dsimp only
  repeat' split
  all_goals simp

@[simp] theorem State.drainSettle_fmt (s : State) (p : Nat) : (State.drainSettle s p).fmt = s.fmt := by
  unfold State.drainSettle
  dsimp only
  repeat' split
  all_goals simp

@[simp] theorem State.drainSettle_hostMem (s : State) (p : Nat) : (State.drainSettle s p).hostMem = s.hostMem := by
  unfold State.drainSettle
  dsimp only
  repeat' split
  all_goals simp

@[simp] theorem State.drainSettle_hostBad (s : State) (p : Nat) : (State.drainSettle s p).hostBad = s.hostBad := by
  unfold State.drainSettle
  dsimp only
  repeat' split
  all_goals simp

@[simp] theorem State.drainSettle_freeCtr (s : State) (p : Nat) : (State.drainSettle s p).freeCtr = s.freeCtr := by
  unfold State.drainSettle
  dsimp only
  repeat' split
  all_goals simp

@[simp] theorem State.drainSettle_pending (s : State) (p : Nat) : (State.drainSettle s p).pending = s.pending := by
  unfold State.drainSettle
  dsimp only
  repeat' split
  all_goals simp

/-! ### State.bindCmd -/

@[simp] theorem State.bindCmd_module (s : State) (c : Cmd) : (State.bindCmd s c).module = s.module := by
  unfold State.bindCmd
  dsimp only
  repeat' split
  all_goals simp

@[simp] theorem State.bindCmd_hif (s : State) (c : Cmd) : (State.bindCmd s c).hif = s.hif := by
  unfold State.bindCmd
  dsimp only
  repeat' split
  all_goals simp

@[simp] theorem State.bindCmd_sch (s : State) (c : Cmd) : (State.bindCmd s c).sch = s.sch := by
  unfold State.bindCmd
  dsimp only
  repeat' split
  all_goals simp

@[simp] theorem State.bindCmd_pwr (s : State) (c : Cmd) : (State.bindCmd s c).pwr = s.pwr := by
  unfold State.bindCmd
  dsimp only
  repeat' split
  all_goals simp

@[simp] theorem State.bindCmd_thm (s : State) (c : Cmd) : (State.bindCmd s c).thm = s.thm := by
  unfold State.bindCmd
  dsimp only
  repeat' split
  all_goals simp

@[simp] theorem State.bindCmd_mgt (s : State) (c : Cmd) : (State.bindCmd s c).mgt = s.mgt := by
  unfold State.bindCmd
  dsimp only
  repeat' split
  all_goals simp

@[simp] theorem State.bindCmd_tst (s : State) (c : Cmd) : (State.bindCmd s c).tst = s.tst := by
  unfold State.bindCmd
  dsimp only
  repeat' split
  all_goals simp

@[simp] theorem State.bindCmd_scan (s : State) (c : Cmd) : (State.bindCmd s c).scan = s.scan := by
  unfold State.bindCmd
  dsimp only
  repeat' split
  all_goals simp

@[simp] theorem State.bindCmd_colls (s : State) (c : Cmd) : (State.bindCmd s c).colls = s.colls := by
  unfold State.bindCmd
  dsimp only
  repeat' split
  all_goals simp

@[simp] theorem State.bindCmd_jrn (s : State) (c : Cmd) : (State.bindCmd s c).jrn = s.jrn := by
  unfold State.bindCmd
  dsimp only
  repeat' split
  all_goals simp

@[simp] theorem State.bindCmd_mem (s : State) (c : Cmd) : (State.bindCmd s c).mem = s.mem := by
  unfold State.bindCmd
  dsimp only
  repeat' split
  all_goals simp

@[simp] theorem State.bindCmd_models (s : State) (c : Cmd) : (State.bindCmd s c).models = s.models := by
  unfold State.bindCmd
  dsimp only
  repeat' split
  all_goals simp

@[simp] theorem State.bindCmd_tiles (s : State) (c : Cmd) : (State.bindCmd s c).tiles = s.tiles := by
  unfold State.bindCmd
  dsimp only
  repeat' split
  all_goals simp

@[simp] theorem State.bindCmd_sec (s : State) (c : Cmd) : (State.bindCmd s c).sec = s.sec := by
  unfold State.bindCmd
  dsimp only
  repeat' split
  all_goals simp

@[simp] theorem State.bindCmd_fmt (s : State) (c : Cmd) : (State.bindCmd s c).fmt = s.fmt := by
  unfold State.bindCmd
  dsimp only
  repeat' split
  all_goals simp

@[simp] theorem State.bindCmd_hostMem (s : State) (c : Cmd) : (State.bindCmd s c).hostMem = s.hostMem := by
  unfold State.bindCmd
  dsimp only
  repeat' split
  all_goals simp

@[simp] theorem State.bindCmd_hostBad (s : State) (c : Cmd) : (State.bindCmd s c).hostBad = s.hostBad := by
  unfold State.bindCmd
  dsimp only
  repeat' split
  all_goals simp

@[simp] theorem State.bindCmd_freeCtr (s : State) (c : Cmd) : (State.bindCmd s c).freeCtr = s.freeCtr := by
  unfold State.bindCmd
  dsimp only
  repeat' split
  all_goals simp

@[simp] theorem State.bindCmd_pending (s : State) (c : Cmd) : (State.bindCmd s c).pending = s.pending := by
  unfold State.bindCmd
  dsimp only
  repeat' split
  all_goals simp

/-! ### State.bindAll, State.complete, State.stop -/

@[simp] theorem State.bindAll_module (s : State) : s.bindAll.module = s.module :=
  foldl_keeps State.module _ _ _ (fun s c => State.bindCmd_module s c)

@[simp] theorem State.bindAll_hif (s : State) : s.bindAll.hif = s.hif :=
  foldl_keeps State.hif _ _ _ (fun s c => State.bindCmd_hif s c)

@[simp] theorem State.bindAll_sch (s : State) : s.bindAll.sch = s.sch :=
  foldl_keeps State.sch _ _ _ (fun s c => State.bindCmd_sch s c)

@[simp] theorem State.bindAll_pwr (s : State) : s.bindAll.pwr = s.pwr :=
  foldl_keeps State.pwr _ _ _ (fun s c => State.bindCmd_pwr s c)

@[simp] theorem State.bindAll_thm (s : State) : s.bindAll.thm = s.thm :=
  foldl_keeps State.thm _ _ _ (fun s c => State.bindCmd_thm s c)

@[simp] theorem State.bindAll_mgt (s : State) : s.bindAll.mgt = s.mgt :=
  foldl_keeps State.mgt _ _ _ (fun s c => State.bindCmd_mgt s c)

@[simp] theorem State.bindAll_tst (s : State) : s.bindAll.tst = s.tst :=
  foldl_keeps State.tst _ _ _ (fun s c => State.bindCmd_tst s c)

@[simp] theorem State.bindAll_scan (s : State) : s.bindAll.scan = s.scan :=
  foldl_keeps State.scan _ _ _ (fun s c => State.bindCmd_scan s c)

@[simp] theorem State.bindAll_colls (s : State) : s.bindAll.colls = s.colls :=
  foldl_keeps State.colls _ _ _ (fun s c => State.bindCmd_colls s c)

@[simp] theorem State.bindAll_jrn (s : State) : s.bindAll.jrn = s.jrn :=
  foldl_keeps State.jrn _ _ _ (fun s c => State.bindCmd_jrn s c)

@[simp] theorem State.bindAll_mem (s : State) : s.bindAll.mem = s.mem :=
  foldl_keeps State.mem _ _ _ (fun s c => State.bindCmd_mem s c)

@[simp] theorem State.bindAll_models (s : State) : s.bindAll.models = s.models :=
  foldl_keeps State.models _ _ _ (fun s c => State.bindCmd_models s c)

@[simp] theorem State.bindAll_tiles (s : State) : s.bindAll.tiles = s.tiles :=
  foldl_keeps State.tiles _ _ _ (fun s c => State.bindCmd_tiles s c)

@[simp] theorem State.bindAll_sec (s : State) : s.bindAll.sec = s.sec :=
  foldl_keeps State.sec _ _ _ (fun s c => State.bindCmd_sec s c)

@[simp] theorem State.bindAll_fmt (s : State) : s.bindAll.fmt = s.fmt :=
  foldl_keeps State.fmt _ _ _ (fun s c => State.bindCmd_fmt s c)

@[simp] theorem State.bindAll_hostMem (s : State) : s.bindAll.hostMem = s.hostMem :=
  foldl_keeps State.hostMem _ _ _ (fun s c => State.bindCmd_hostMem s c)

@[simp] theorem State.bindAll_hostBad (s : State) : s.bindAll.hostBad = s.hostBad :=
  foldl_keeps State.hostBad _ _ _ (fun s c => State.bindCmd_hostBad s c)

@[simp] theorem State.bindAll_freeCtr (s : State) : s.bindAll.freeCtr = s.freeCtr :=
  foldl_keeps State.freeCtr _ _ _ (fun s c => State.bindCmd_freeCtr s c)

@[simp] theorem State.bindAll_pending (s : State) : s.bindAll.pending = s.pending :=
  foldl_keeps State.pending _ _ _ (fun s c => State.bindCmd_pending s c)

/-! ### State.settle -/

@[simp] theorem State.settle_module (s : State) (x p : Nat) :
    (s.settle x p).module = s.module := by
  unfold State.settle
  simp

@[simp] theorem State.settle_pwr (s : State) (x p : Nat) :
    (s.settle x p).pwr = s.pwr := by
  unfold State.settle
  simp

@[simp] theorem State.settle_thm (s : State) (x p : Nat) :
    (s.settle x p).thm = s.thm := by
  unfold State.settle
  simp

@[simp] theorem State.settle_tst (s : State) (x p : Nat) :
    (s.settle x p).tst = s.tst := by
  unfold State.settle
  simp

@[simp] theorem State.settle_scan (s : State) (x p : Nat) :
    (s.settle x p).scan = s.scan := by
  unfold State.settle
  simp

@[simp] theorem State.settle_colls (s : State) (x p : Nat) :
    (s.settle x p).colls = s.colls := by
  unfold State.settle
  simp

@[simp] theorem State.settle_fmt (s : State) (x p : Nat) :
    (s.settle x p).fmt = s.fmt := by
  unfold State.settle
  simp

@[simp] theorem State.settle_hostBad (s : State) (x p : Nat) :
    (s.settle x p).hostBad = s.hostBad := by
  unfold State.settle
  simp

@[simp] theorem State.settle_freeCtr (s : State) (x p : Nat) :
    (s.settle x p).freeCtr = s.freeCtr := by
  unfold State.settle
  simp

@[simp] theorem State.settle_pending (s : State) (x p : Nat) :
    (s.settle x p).pending = s.pending := by
  unfold State.settle
  simp

@[simp] theorem State.settle_jrn_frames (s : State) (x p : Nat) :
    (s.settle x p).jrn.frames = s.jrn.frames := by
  unfold State.settle
  simp

@[simp] theorem State.settle_jrn_images (s : State) (x p : Nat) :
    (s.settle x p).jrn.images = s.jrn.images := by
  unfold State.settle
  simp

@[simp] theorem State.settle_jrn_h (s : State) (x p : Nat) :
    (s.settle x p).jrn.h = s.jrn.h := by
  unfold State.settle
  simp

@[simp] theorem State.settle_jrn_next (s : State) (x p : Nat) :
    (s.settle x p).jrn.next = s.jrn.next := by
  unfold State.settle
  simp

/-! ### State.complete, State.stop -/

@[simp] theorem State.complete_module (s : State) (c : Cmd) (st spec0 spec1 : Nat) (result trunc : Bool) :
    (s.complete c st spec0 spec1 result trunc).module = s.module := by
  unfold State.complete
  dsimp only
  split <;> simp

@[simp] theorem State.stop_module (s : State) (c : Cmd) (st : Nat) :
    (s.stop c st).module = s.module := by
  unfold State.stop
  simp

@[simp] theorem State.complete_pwr (s : State) (c : Cmd) (st spec0 spec1 : Nat) (result trunc : Bool) :
    (s.complete c st spec0 spec1 result trunc).pwr = s.pwr := by
  unfold State.complete
  dsimp only
  split <;> simp

@[simp] theorem State.stop_pwr (s : State) (c : Cmd) (st : Nat) :
    (s.stop c st).pwr = s.pwr := by
  unfold State.stop
  simp

@[simp] theorem State.complete_thm (s : State) (c : Cmd) (st spec0 spec1 : Nat) (result trunc : Bool) :
    (s.complete c st spec0 spec1 result trunc).thm = s.thm := by
  unfold State.complete
  dsimp only
  split <;> simp

@[simp] theorem State.stop_thm (s : State) (c : Cmd) (st : Nat) :
    (s.stop c st).thm = s.thm := by
  unfold State.stop
  simp

@[simp] theorem State.complete_tst (s : State) (c : Cmd) (st spec0 spec1 : Nat) (result trunc : Bool) :
    (s.complete c st spec0 spec1 result trunc).tst = s.tst := by
  unfold State.complete
  dsimp only
  split <;> simp

@[simp] theorem State.stop_tst (s : State) (c : Cmd) (st : Nat) :
    (s.stop c st).tst = s.tst := by
  unfold State.stop
  simp

@[simp] theorem State.complete_scan (s : State) (c : Cmd) (st spec0 spec1 : Nat) (result trunc : Bool) :
    (s.complete c st spec0 spec1 result trunc).scan = s.scan := by
  unfold State.complete
  dsimp only
  split <;> simp

@[simp] theorem State.stop_scan (s : State) (c : Cmd) (st : Nat) :
    (s.stop c st).scan = s.scan := by
  unfold State.stop
  simp

@[simp] theorem State.complete_colls (s : State) (c : Cmd) (st spec0 spec1 : Nat) (result trunc : Bool) :
    (s.complete c st spec0 spec1 result trunc).colls = s.colls := by
  unfold State.complete
  dsimp only
  split <;> simp

@[simp] theorem State.stop_colls (s : State) (c : Cmd) (st : Nat) :
    (s.stop c st).colls = s.colls := by
  unfold State.stop
  simp

@[simp] theorem State.complete_fmt (s : State) (c : Cmd) (st spec0 spec1 : Nat) (result trunc : Bool) :
    (s.complete c st spec0 spec1 result trunc).fmt = s.fmt := by
  unfold State.complete
  dsimp only
  split <;> simp

@[simp] theorem State.stop_fmt (s : State) (c : Cmd) (st : Nat) :
    (s.stop c st).fmt = s.fmt := by
  unfold State.stop
  simp

@[simp] theorem State.complete_hostBad (s : State) (c : Cmd) (st spec0 spec1 : Nat) (result trunc : Bool) :
    (s.complete c st spec0 spec1 result trunc).hostBad = s.hostBad := by
  unfold State.complete
  dsimp only
  split <;> simp

@[simp] theorem State.stop_hostBad (s : State) (c : Cmd) (st : Nat) :
    (s.stop c st).hostBad = s.hostBad := by
  unfold State.stop
  simp

@[simp] theorem State.complete_freeCtr (s : State) (c : Cmd) (st spec0 spec1 : Nat) (result trunc : Bool) :
    (s.complete c st spec0 spec1 result trunc).freeCtr = s.freeCtr := by
  unfold State.complete
  dsimp only
  split <;> simp

@[simp] theorem State.stop_freeCtr (s : State) (c : Cmd) (st : Nat) :
    (s.stop c st).freeCtr = s.freeCtr := by
  unfold State.stop
  simp

@[simp] theorem State.complete_pending (s : State) (c : Cmd) (st spec0 spec1 : Nat) (result trunc : Bool) :
    (s.complete c st spec0 spec1 result trunc).pending = s.pending := by
  unfold State.complete
  dsimp only
  split <;> simp

@[simp] theorem State.stop_pending (s : State) (c : Cmd) (st : Nat) :
    (s.stop c st).pending = s.pending := by
  unfold State.stop
  simp

@[simp] theorem State.complete_jrn_frames (s : State) (c : Cmd) (st spec0 spec1 : Nat) (result trunc : Bool) :
    (s.complete c st spec0 spec1 result trunc).jrn.frames = s.jrn.frames := by
  unfold State.complete
  dsimp only
  split <;> simp

@[simp] theorem State.stop_jrn_frames (s : State) (c : Cmd) (st : Nat) :
    (s.stop c st).jrn.frames = s.jrn.frames := by
  unfold State.stop
  simp

@[simp] theorem State.complete_jrn_images (s : State) (c : Cmd) (st spec0 spec1 : Nat) (result trunc : Bool) :
    (s.complete c st spec0 spec1 result trunc).jrn.images = s.jrn.images := by
  unfold State.complete
  dsimp only
  split <;> simp

@[simp] theorem State.stop_jrn_images (s : State) (c : Cmd) (st : Nat) :
    (s.stop c st).jrn.images = s.jrn.images := by
  unfold State.stop
  simp

@[simp] theorem State.complete_jrn_h (s : State) (c : Cmd) (st spec0 spec1 : Nat) (result trunc : Bool) :
    (s.complete c st spec0 spec1 result trunc).jrn.h = s.jrn.h := by
  unfold State.complete
  dsimp only
  split <;> simp

@[simp] theorem State.stop_jrn_h (s : State) (c : Cmd) (st : Nat) :
    (s.stop c st).jrn.h = s.jrn.h := by
  unfold State.stop
  simp

@[simp] theorem State.complete_jrn_next (s : State) (c : Cmd) (st spec0 spec1 : Nat) (result trunc : Bool) :
    (s.complete c st spec0 spec1 result trunc).jrn.next = s.jrn.next := by
  unfold State.complete
  dsimp only
  split <;> simp

@[simp] theorem State.stop_jrn_next (s : State) (c : Cmd) (st : Nat) :
    (s.stop c st).jrn.next = s.jrn.next := by
  unfold State.stop
  simp

end Sys2Proof.Machine
end

