-- ==== Sys2Proof/WellFormed.lean ====
section
/-!
DEFINITION. Which commands are well-formed: the bounds the spec puts on what a sender can name and that the operand
types do not already hold. exec is total on the others too.
-/

namespace Sys2Proof

/-- A BAR0 access size the spec serves (R47); a bad access is one of another size or alignment. -/
def badAccessShape (offset size : Nat) : Bool :=
  !((size == 4 && offset % 4 == 0) || (size == 8 && offset % 8 == 0))

/-- Well-formedness of a command. -/
def Instr.wellFormed : Instr → Bool
  | .badAccess offset size _ => badAccessShape offset.toNat size
  | .registerWrite offset wide _ => offset.toNat % (if wide then 8 else 4) == 0
  | .lowHalfReadLatch (.word offset) => offset.toNat % 4 == 0
  | .lowHalfReadLatch (.pair offset) => offset.toNat % 8 == 0
  | .lowHalfReadLatch (.page _ offset) => offset.toNat % 4 == 0
  | .highHalfRead offset => offset.toNat % 8 == 4
  | .hostMemRead addr _ => addr.toNat % 64 == 0
  | .hostMemWrite addr _ _ => addr.toNat % 64 == 0
  | .inputPowerReport power vin _ meas energy _ _ =>
    decide (power < 65536 ∧ vin < 65536) && meas.all (fun m => decide (m.1 < 16 ∧ m.2.1 < 6)) &&
    energy.all (fun e => decide (e.1 < 16 ∧ e.2.1 < 4096))
  | _ => true

end Sys2Proof
end

