-- ==== Sys2Proof/Tests/Slice0.lean ====
section
/-!
SUPPORT. Tests: ill-formed commands are refused, values the spec works out by hand, and a witness for the hypotheses of
each statement.
-/

namespace Sys2Proof.Tests

open Sys2Proof Sys2Proof.Machine

set_option Elab.async false

/-! ### States -/

/-- A descriptor from (byte offset, value) pairs. -/
def descWith (l : List (Nat × Nat)) : Desc := BitVec.ofNat 512 ((l.map (fun x => x.2 * 2 ^ (8 * x.1))).foldl (· + ·) 0)

/-- Ring pair 5: 16 entries each way, of context 7, one entry to fetch. -/
def ring5 : Ring := { cfg := 0x00070404, state := .active, sqBase := 0x10000, cqBase := 0x20000, sqTail := 1 }

/-- Partition 2: cluster 2, scan slot 0, ring group 0; two logical tiles in groups 0 and 1, placement epoch 1. -/
def part2 : Partition := { res := 0x000100010004, state := .active, epoch := 1, place := [(34, 0), (35, 1)] }

/-- A module that runs, with ring pair 5, context 7 and partition 2 active. -/
def base : State :=
  { State.reset with
    module := { State.reset.module with perstN := true }
    hif := { State.reset.hif with
      inReset := none, ready := true, control := 3, memActive := true, timer := 5000000, cfgRetry := false, link := { up := true } }
    jrn := { ready := true }
    qm := { rings := [(5, ring5)], ringSel := 5, nextSeq := 1 }
    sch := { parts := [(2, part2)], ctxs := [(7, { cfg := 0x00020001, state := .active })], partSel := 2, ctxSel := 7 } }

/-- Command n of ring pair 5 with a descriptor. -/
def cmdAt (n : Nat) (d : Desc) : Cmd := { seq := n, ring := 5, ctx := 7, part := 2, desc := d, stamp := 0, qos := 1000, pEpoch := 1 }

/-- The running module with these commands in flight. -/
def holding (cs : List Cmd) : State := { base with qm := { base.qm with cmds := cs, nextSeq := 100 } }

/-- Ring pair 5, partition 2 or context 7 changed. -/
def withRing (f : Ring → Ring) (s : State) : State := s.modRing 5 f
def withPart (f : Partition → Partition) (s : State) : State := s.modPart 2 f
def withCtx (f : Context → Context) (s : State) : State := s.modCtx 7 f

/-- The partition's regulators limited and empty. -/
def shut (s : State) : State := withPart (fun p => { p with bw := List.replicate 6 { reg := 0x10000001, level := 0 } }) s

/-! ### Well-formedness (R47, R64, R65, R53) -/

theorem test_wf_bad_access : Instr.wellFormed (.badAccess 8 4 false) = false := by decide
theorem test_wf_register_write : Instr.wellFormed (.registerWrite 4 true 0) = false := by decide
theorem test_wf_low_half : Instr.wellFormed (.lowHalfReadLatch (.word 2)) = false ∧ Instr.wellFormed (.lowHalfReadLatch (.pair 4)) = false := by decide
theorem test_wf_high_half : Instr.wellFormed (.highHalfRead 8) = false := by decide
theorem test_wf_host_read : Instr.wellFormed (.hostMemRead 32 .none) = false := by decide
theorem test_wf_host_write : Instr.wellFormed (.hostMemWrite 1 0 0) = false := by decide
theorem test_wf_input_power : Instr.wellFormed (.inputPowerReport 65536 0 0 [] [] 0 false) = false := by decide
theorem test_wf_others : Instr.wellFormed (.registerWrite 8 true 0) = true ∧ Instr.wellFormed (.highHalfRead 12) = true ∧
    Instr.wellFormed (.badAccess 2 4 true) = true := by decide

/-- The table gives no row bits. -/
theorem test_no_word_spells_a_command : decodeTableWord 64 0x21 = none := rfl

/-! ### Witnesses: steps, rings, messages -/

theorem wit_step_front : ({ base with pending := [.viral] } : State).pending = .viral :: [] ∧ base.pending = [] := by decide +kernel

theorem wit_bounded : base.bounded ∧ step base = .next (tick base) := by
  refine ⟨⟨rfl, rfl, by decide, by decide, by decide, ?_, by decide⟩, rfl⟩
  intro r h
  obtain rfl : r = (5, ring5) := List.mem_singleton.mp h
  exact ⟨by decide, by decide⟩

theorem wit_sq_tail : base.hif.inReset = none ∧ (base.ring 5).state = .active ∧ 15 % 65536 < (base.ring 5).sqSize ∧
    (base.ring 5).sqSize ≤ 16 % 65536 ∧ (base.ring 6).state ≠ .active := by decide +kernel

/-- CQ_HEAD at CQ_TAIL releases all; one past it is an error. -/
def cqState : State := withRing (fun r => { r with cqTail := 3, cqHead := 1 }) base

theorem wit_cq_head : (cqState.ring 5).state = .active ∧
    (3 < (cqState.ring 5).cqSize ∧ (3 + 16 - 1) % 16 ≤ ((cqState.ring 5).cqTail + 16 - (cqState.ring 5).cqHead) % 16) ∧
    ((cqState.ring 5).cqTail + 16 - (cqState.ring 5).cqHead) % 16 < (4 + 16 - 1) % 16 ∧ (cqState.ring 5).cqSize ≤ 16 := by decide +kernel

theorem wit_ring_create :
    let s := { base with qm := { base.qm with ringSel := 6, rings := [(6, { cfg := 0x00071004 })] } }
    (s.ring 6).state = .free ∧ (4 ≤ cfgSqLog (s.ring 6).cfg ∧ cfgCqLog (s.ring 6).cfg ≤ 16) ∧ s.ctxFits 6 7 = true ∧
    ¬ 4 ≤ cfgSqLog 0x00070403 ∧ ¬ cfgSqLog 0x00070411 ≤ 16 ∧ s.ctxFits 6 8 = false ∧ (base.ring 5).state ≠ .free := by decide +kernel

theorem wit_ring_destroy :
    ((base.ring 5).state = .active ∧ (∀ c ∈ base.qm.cmds, c.ring ≠ 5) ∧ (base.ring 5).inflight = 0 ∧
      (base.part (fld (base.ctx (cfgContext (base.ring 5).cfg)).cfg 16 4)).state ≠ .draining) ∧
    (let s := withRing (fun r => { r with inflight := 1 }) (holding [cmdAt 3 (descWith [(0, opFence)])])
     (∀ c ∈ s.qm.cmds, s.waitsAtBarrier c.seq = false) ∧ (s.ring 5).inflight ≠ 0) ∧
    ((withRing (fun r => { r with state := .draining }) base).ring 5).state = .draining ∧ (base.ring 9).state = .free := by decide +kernel

theorem wit_qm_enable : flag (0 : Word32) 0 = false ∧ (flag (1 : Word32) 0 = true ∧ base.hif.ready = true ∧ base.hif.viral = false) ∧
    State.reset.hif.ready = false := by decide +kernel

theorem wit_messages :
    let s := withRing (fun r => { r with irq := 0x00203004, unsig := 1, oldest := 3000000 }) base
    ((withRing (fun r => { r with goWait := [false] }) base).ring 5).goWait = false :: [] ∧
    ((withRing (fun r => { r with goWait := [true] }) base).ring 5).goWait = true :: [] ∧
    fld (s.ring 5).irq 0 11 ≠ 0 ∧ fld (s.ring 5).irq 20 12 ≠ 0 ∧ (s.ring 5).unsig ≠ 0 ∧
    (s.ring 5).oldest + 1000 * fld (s.ring 5).irq 20 12 ≤ s.hif.timer ∧ (s.ring 5).goWait = [] := by decide +kernel

/-- Vector 3 open, vector 4 pending. -/
def msixState : State := { base with hif := { base.hif with msix := [(3, { mask := false }), (4, { pend := true })] } }

theorem wit_msix :
    (tget ({} : MsixEntry) msixState.hif.msix 2).mask = true ∧
    ((tget ({} : MsixEntry) msixState.hif.msix 3).mask = false ∧ msixState.hif.msixFuncMask = false ∧ msixState.sec.ideHold = false) ∧
    ({ msixState with sec := { msixState.sec with ideHold := true } } : State).sec.ideHold = true ∧
    (tget ({} : MsixEntry) msixState.hif.msix 4).pend = true ∧ (tget ({} : MsixEntry) msixState.hif.msix 3).pend = false := by decide +kernel

/-- A FENCE alone, and one behind another command. -/
def fence1 : State := holding [cmdAt 3 (descWith [(0, opFence)])]
def fence2 : State := holding [cmdAt 2 (descWith [(0, opProgress)]), cmdAt 3 (descWith [(0, opFence)])]

theorem wit_fence : (fence1.ready? 3 (· == opFence)).map fence1.fenceReady = some true ∧
    (fence2.ready? 3 (· == opFence)).map fence2.fenceReady = some false := by decide +kernel

/-- A BARRIER of two participants with TIMEOUT_US 1, and the instance that one arrival has opened. -/
def barC : Cmd := cmdAt 3 (descWith [(0, opBarrier), (8, 2), (12, 1)])
def barS : State := holding [barC]
def barT (k : Nat) : State := { barS with qm := { barS.qm with barriers :=
  [(512, { participants := k, timeoutUs := 1, first := 4999000, arrived := [1] })] } }

theorem wit_barrier :
    (barS.ready? 3 (· == opBarrier) = some barC ∧ barS.earlier barC (fun x => x.ring == barC.ring) = false ∧
      barS.waitsAtBarrier 3 = false ∧ barS.qm.barriers.find? (fun b => b.1 == 256 * barC.part + dSubop barC.desc % 256) = none) ∧
    ((barT 2).ready? 3 (· == opBarrier) = some barC ∧ (barT 2).waitsAtBarrier 3 = false ∧
      ((barT 2).qm.barriers.find? (fun b => b.1 == 256 * barC.part + dSubop barC.desc % 256)).map (fun b => b.2.arrived.length + 1) =
        some (dfld barC.desc 0x08 0 16)) ∧
    (let s := withRing (fun r => { r with state := .draining }) barS
     s.ready? 3 (· == opBarrier) = some barC ∧ (s.ring 5).state = .draining ∧ (barS.ring 5).state ≠ .draining) ∧
    ((barT 3).qm.barriers.map (fun b => b.2.participants)) ≠ [dfld barC.desc 0x08 0 16] ∧
    ((barT 2).qm.barriers.find? (fun b => b.1 == 256 * (2 : BitVec 4).toNat + (0 : BitVec 8).toNat)).map
      (fun b => decide (b.2.timeoutUs ≠ 0 ∧ b.2.first + 1000 * b.2.timeoutUs ≤ (barT 2).hif.timer)) = some true := by decide +kernel

theorem wit_completion :
    let a := ((base.ring 5).cqBase.toNat / 4096) * 4096 + 32 * (base.ring 5).cqTail
    base.hif.viral = false ∧ base.hostOk (a / 64 * 64) 64 = true ∧ a % 64 = 0 ∧ base.cmd? 3 = none ∧ base.sec.ideHold = false ∧ Memory.wf base.hostMem = true ∧ (base.ring 5).state = .active := by decide +kernel

/-! ### Witnesses: resets, power input, link -/

theorem wit_device_reset : base.hif.inReset = none ∧ flag (0x12340001 : Word32) 0 = true ∧ fld (0x12340001 : Word32) 16 16 ≠ 0xA5C3 ∧
    flag ({ base with hif := { base.hif with errMask := 4 } } : State).hif.errMask 2 = true := by decide +kernel

/-- The rails off, and a level in progress. -/
def off : State := { base with module := { base.module with rails := false, inputValid := false } }
def inLevel (lv : ResetLevel) : State := { base with hif := { base.hif with inReset := some lv } }

theorem wit_cold : off.module.rails = false ∧ off.module.standby = true ∧ off.module.primroseReady = true ∧ off.module.latch = .none := by
  decide +kernel

theorem wit_levels : base.module.rails = true ∧ base.module.flushing = false ∧ base.hif.link.up = true ∧
    (1 < levelRank .cxl ∧ levelRank .cold ≤ 1 ∧ levelRank .warm ≤ 1 ∧ 2 < levelRank .flr ∧ levelRank .cxl ≤ 2 ∧ levelRank .flr ≤ 3) ∧
    (inLevel .device).hif.inReset = some .device ∧ flag (0xA5C30001 : Word32) 0 = true ∧ fld (0xA5C30001 : Word32) 16 16 = 0xA5C3 := by decide +kernel

theorem wit_reset_complete :
    ((inLevel .cold).startGoes .cold = true ∧ (inLevel .cold).hif.bootStage ≠ 0x60 ∧ (inLevel .cold).jrn.maint.active = false) ∧
    (let s := { inLevel .cold with jrn := { base.jrn with maint := { active := true, target := 0x7FF } } }
     s.startGoes .cold = true ∧ s.jrn.maint.active = true ∧ s.jrn.maint.target = 0x7FF) ∧
    State.reset.startGoes .cold = false := by decide +kernel

theorem wit_input_loss : base.module.rails = true ∧ base.module.flushing = false ∧
    ({ base with module := { base.module with flushing := true, holdupAtLoss := true } } : State).module.flushing = true ∧
    (let s := { off with module := { off.module with latch := .breaker } }; s.module.latch ≠ .none ∧ s.module.rails = false) := by decide +kernel

/-- The bank's threshold at 4000 µF is 56.1 V. -/
theorem wit_holdup : (inLevel .cold).hif.inReset = some .cold ∧ base.module.lastMeasure + 86400 ≤ ({ base.mgt with prSec := 86400 } : Mgt).prSec ∧
    9 * 10 ^ 12 + 9 * 10 ^ 8 * 4000 ≤ 4000 * 56125 * 56125 ∧ 4000 * 56124 * 56124 < 9 * 10 ^ 12 + 9 * 10 ^ 8 * 4000 ∧
    ({ base.module with holdupReady := true } : Module).holdupReady = true := by decide +kernel

theorem wit_standby : ({ off.module with standby := false } : Module).standby = false ∧ off.module.standby = true ∧ off.module.rails = false ∧
    base.module.rails = true ∧ base.module.perstN = true ∧ base.module.refclk = true ∧ (8 : Nat) ∈ [32, 16, 8] ∧ (4 : Nat) ∈ [16, 8, 4] := by
  decide +kernel

theorem wit_viral : base.hif.viral = false ∧ ({ base.hif with viral := true } : Hif).viral = true ∧ base.hif.link.up = true ∧
    lget 0 ({ base.mgt with life := List.replicate 18 1 } : Mgt).life 17 ≠ 0 := by decide +kernel

/-! ### Witnesses: registers, configuration, memory -/

theorem wit_registers : base.hif.inReset = none ∧ (0x10008 : BitVec 21).toNat % 8 = 0 ∧ (0x10020 : BitVec 21).toNat % 8 = 0 ∧ (base.reg64 0x10008).isSome = true ∧ base.reg64 0x10020 = none ∧
    ({ base.hif with shadow := some (0x10008, 7) } : Hif).shadow = some ((0x1000C : BitVec 21).toNat - 4, 7) ∧ base.hif.shadow = none ∧
    (0x1000C : BitVec 21).toNat % 8 = 4 := by decide +kernel

theorem wit_register_write : (inLevel .flr).hif.inReset = some .flr ∧ (0x10 : BitVec 21).toNat = 0x10 ∧
    (let s := { base with qm := { base.qm with ringSel := 6 } }; (s.ring s.qm.ringSel).state = .free) ∧ 0xE0100 ≤ (0xE0100 : BitVec 21).toNat := by
  decide +kernel

theorem wit_bad_access : ¬ (((2 : Nat) = 4 ∨ (2 : Nat) = 8) ∧ (0 : BitVec 21).toNat % 2 = 0) ∧ ¬ (((4 : Nat) = 4 ∨ (4 : Nat) = 8) ∧ (2 : BitVec 21).toNat % 4 = 0) ∧
    ¬ (((8 : Nat) = 4 ∨ (8 : Nat) = 8) ∧ (4 : BitVec 21).toNat % 8 = 0) ∧ flag ({ base.hif with errMask := 1 } : Hif).errMask 0 = true := by
  decide +kernel

theorem wit_config : State.reset.hif.cfgRetry = true ∧ base.hif.cfgRetry = false ∧ flag (0x4000 : Word32) 14 = true := by decide +kernel

/-- Decoder 0 claims 256 MiB at 0x4000_0000 of the far tier's host region; memory is active. -/
def memS : State := { base with
  hif := { base.hif with decoders := [{ base := 0x40000000, size := 2 ^ 28, skip := farBase, committed := true }, {}, { locked := true }, {}] }
  mem := { base.mem with farHost := 1 } }

theorem wit_decoder : memS.hif.inReset = none ∧ memS.hif.decoders.length = 4 ∧ (lget {} memS.hif.decoders 2).locked = true ∧
    (lget {} memS.hif.decoders 1).locked = false ∧
    (∀ x ∈ memS.hif.decoders.take 1, x.committed = true ∧ x.base + x.size ≤ (0x50000000 : Word64).toNat) ∧
    (lget {} memS.hif.decoders 1).committed = false ∧
    (let start := ((memS.hif.decoders.take 1).map (fun x => x.skip + x.size)).foldl (· + ·) 0
     start + 0 + (memS.dpaEnd - start) ≤ memS.dpaEnd ∧ ¬ start + 2 ^ 28 + (memS.dpaEnd - start) ≤ memS.dpaEnd ∧
     (memS.dpaEnd - start) % 2 ^ 28 = 0) := by decide +kernel

theorem wit_bias : flag (0x80000000 : Word32) 31 = true ∧ ({ base.hif with biasFlip := some (0, true) } : Hif).biasFlip.isSome = true ∧
    base.hif.biasFlip = none ∧ base.dpaEnd ≤ fld (0x803FFFFF : Word32) 0 22 * blockBytes ∧
    (fld (0xC0000000 : Word32) 0 22 * blockBytes < base.dpaEnd ∧ flag (0xC0000000 : Word32) 30 = true ∧ base.inHostRegion 0 blockBytes = false) ∧
    flag (0x80000000 : Word32) 30 = false := by decide +kernel

/-- A line of it, uncorrectable, missing, or past the usable capacity. -/
def memBad : State := { memS with mem := { memS.mem with bad := [farBase] } }
def memMissing : State := { memS with mem := { memS.mem with missing := [{ block := farBase / blockBytes, source := true, room := false }] } }
def memSmall : State := { memS with hif := { memS.hif with decoders := [{ base := 0x40000000, size := 2 ^ 28, skip := stackBytes - 2 ^ 28, committed := true }] }
                                    mem := { memS.mem with units := [(0, { units := 191 })] } }

theorem wit_host_read : memS.hif.memActive = true ∧ memS.hif.inReset ≠ some .cold ∧ memS.hif.inReset ≠ some .warm ∧
    memS.hif.inReset ≠ some .cxl ∧ memS.hif.link.cacheMem = true ∧
    hdmDecode memS.hif.decoders 0x3FFFFFC0 = none ∧ hdmDecode memS.hif.decoders 0x50000000 = none ∧
    hdmDecode memS.hif.decoders 0x40000000 = some farBase ∧ memS.usable farBase = true ∧
    memS.mem.missing.any (fun m => m.block == farBase / blockBytes) = false ∧ farBase ∈ memBad.mem.bad ∧ farBase ∉ memS.mem.bad ∧
    memMissing.mem.missing.any (fun m => m.block == farBase / blockBytes) = true := by decide +kernel

theorem wit_host_read_unusable : hdmDecode memSmall.hif.decoders 0x40000000 = some (stackBytes - 2 ^ 28) ∧
    memSmall.usable (stackBytes - 2 ^ 28) = false := by decide +kernel

theorem wit_host_write : memS.inHostRegion farBase 64 = true ∧ Memory.wf memS.mem.dev = true ∧
    ({ memS with mem := { memS.mem with farHost := 0 } } : State).inHostRegion farBase 64 = false := by decide +kernel

theorem wit_memory : Memory.wf [(3, 1)] = true ∧ Memory.wf [] = true ∧ Memory.wf [(3, 0)] = false := by decide

theorem wit_links : (base.memUnit 0).oos = false ∧ (base.memUnit 0).retrain = false ∧ (base.memUnit 0).replays < 7 ∧
    7 ≤ ((base.modUnit 0 (fun m => { m with replays := 7 })).memUnit 0).replays ∧
    ((base.modUnit 19 (fun m => { m with retrain := true })).memUnit 19).retrain = true ∧
    ((base.modUnit 0 (fun m => { m with evac := some (0, 0) })).memUnit 0).evac ≠ none := by decide +kernel

/-- Scrub off for the stacks. -/
def noScrub : State := { base with mem := { base.mem with scrub := [0, 0x80000018] } }

theorem wit_scrub : flag (lget 0 base.mem.scrub 0) 31 = true ∧ base.usable 0 = true ∧ base.margining 0 = false ∧ 0 ∉ base.mem.bad ∧
    farBase ∈ memBad.mem.bad ∧ flag (lget 0 noScrub.mem.scrub 0) 31 = false := by decide +kernel

/-- One missing block that can be rebuilt, and one under rebuild. -/
def miss (run : Bool) : State := { base with mem := { base.mem with missing := [{ block := 9, source := true, room := false, running := run }] } }

theorem wit_rebuild : base.mem.missing.filter base.canRebuild = [] ∧
    (miss false).mem.missing.filter (miss false).canRebuild = [{ block := 9, source := true, room := false }] ∧
    ((miss true).mem.missing.find? (fun m => m.running)).isSome = true ∧
    0 ∈ ({ base.mem with told := [0] } : Mem).told ∧ 0 ∉ base.mem.told := by decide +kernel

theorem wit_margin : (base.memUnit (65536 / stackBytes)).active = 0xFFFF ∧ 65536 < farBase ∧ fld (0x7C2E8000 : Word32) 16 16 = 0x7C2E ∧ flag (0x7C2E8000 : Word32) 15 = true ∧ fld (0x7C2E800B : Word32) 0 4 < 12 ∧
    fld (0x7C2E8700 : Word32) 8 5 < 8 ∧ fld (0x8000 : Word32) 16 16 ≠ 0x7C2E ∧ base.mem.margin.length = 2 ∧ base.mem.marginRes.length = 2 ∧
    flag (lget 0 base.mem.margin 1) 30 = false ∧ flag (lget 0 [0, (0x40000000 : Word32)] 1) 30 = true ∧
    base.marginRefused false 0x80000001 = true ∧
    ({ base with hif := { base.hif with control := 2 } } : State).marginRefused true 0x80000001 = false := by decide +kernel

theorem wit_far_host : flag ({ base.hif with control := 2 } : Hif).control 0 = false ∧ flag base.hif.control 0 = true ∧
    fld (1 : Word32) 0 16 ≤ base.farHostMax ∧ base.farHostMax < fld (0xFFFF : Word32) 0 16 := by decide +kernel

/-! ### Witnesses: fetching and searching -/

/-- The state with one entry at the head of ring pair 5: a FENCE, or a bad opcode. -/
def fetchS (op : Nat) : State := { base with hostMem := if op = 0 then [] else [(0x10000, BitVec.ofNat 8 op)] }

theorem wit_fetch : base.fetches 2 = true ∧ base.fetches 3 = false ∧ (base.candRefresh 2).pickCtx 2 = some 7 ∧
    (base.candRefresh 2).pickRing 7 = some 5 ∧ base.hostOk 0x10000 64 = true ∧
    ({ base with hostBad := [(0x10000, 64)] } : State).hostOk 0x10000 64 = false := by decide +kernel

theorem wit_validate :
    (let s := fetchS opFence; let c := cmdAt 1 (descOfBytes (s.hostRead 0x10000 64))
     dOpcode c.desc ∈ opcodes ∧ descOk c.desc opFence = true ∧ s.fieldCheck c = none ∧ (match s.validate c with | .ok _ => true | .error _ => false) = true) ∧
    0xFF ∉ opcodes ∧ descOk (descWith [(0, opFence), (63, 1)]) opFence = false ∧
    (let c := cmdAt 1 (descWith [(0, opSearch), (4, 3), (0x1C, 1)]); base.fieldCheck c = some stNoObject) := by decide +kernel

/-- A BIN collection of one list with one entry, whose IDs lie in the far tier. -/
def binCfg : CollCfg := { metric := 3, codeType := 4, dim := 32, srcFmt := 4, maxEntries := 100 }
def binData : CollData :=
  { cfg := binCfg, epoch := 1
    lists := [{ slots := [{ id := 11, code := [0, 0, 0, 0], attr := [], res := [] }], capacity := 1
                cols := { code := 0x1200000, tomb := 0x1201000, attr := 0, id := farBase, res := 0 } }]
    centroids := [List.replicate 32 0], freshCols := List.replicate 12 {} }
def binColl : Coll := { state := .ready, owner := 2, data := binData, phys := binData }

/-- A SEARCH of it with K = 1. -/
def searchD : Desc := descWith [(0, opSearch), (0x08, 0x40000), (0x10, 0x50000), (0x18, 0x480), (0x1C, 1)]
def cand11 : Cand := { score := 0, id := 11, fresh := false, version := 0, list := 0, slot := 0, stack := 0 }
def searchW (st : Option ProbeState) : QueryWork :=
  { met := true, bound := some binData
    qs := [{ q32 := List.replicate 32 0, qbits := [0, 0, 0, 0], held := if st = some .delivered then [cand11] else []
             probes := st.map (fun p => [{ what := .list 0, stack := 0, onStack := 0, state := p }]) }] }
def searchC (st : Option ProbeState) : Cmd := { cmdAt 3 searchD with query := some (searchW st), run := .running }
def searchS (st : Option ProbeState) : State := { holding [searchC st] with colls := [(0, binColl)] }

theorem wit_search_dispatch :
    let s := searchS none
    let s1 := (((s.start 3).modCmd 3 (fun c => { c with spec1 := 1 })).bwRequest 2 [(3, wholeInv)] []).2
    s.ready? 3 (· == opSearch) = some (searchC none) ∧ (searchC none).query.map QueryWork.met = some true ∧
    (searchC none).query.bind QueryWork.bound = some binData ∧ s.noMerge 2 = false ∧ sEncode (searchC none) = false ∧
    (searchW none).qs.any (fun q => q.probes.isNone) = true ∧
    (match s1.cmd? 3 with
     | some c1 => (match s1.readQueries c1 binCfg (searchW none).qs.zipIdx with
       | .ok qs => decide (dirLinesBad s1 binData (dedupBy id (probedOf (s1.dispatchAll c1 binData qs)) []) = []) | .error _ => false)
     | none => false) = true ∧
    routeLinesBad s1 binData = [] ∧ s1.tableLinesBad 0 = [] := by decide +kernel

theorem wit_search_unbound :
    ((searchC none).query.map (fun w => ({ w with bound := none } : QueryWork).bound)) = some none := by decide +kernel

theorem wit_search_answer :
    let s := searchS (some .delivered)
    let c := searchC (some .delivered)
    let w := searchW (some .delivered)
    s.ready? 3 (· == opSearch) = some c ∧ c.query = some w ∧ w.met = true ∧ w.bound = some binData ∧ s.noMerge 2 = false ∧
    sEncode c = false ∧ sRerank c = false ∧ sRewrite c = false ∧ dDevAddr c.desc = false ∧ w.qs.any (fun q => q.probes.isNone) = false ∧
    (match w.qs with
     | [q] => !q.bad && decide (s.coverage? 2 q = some 0xFFF) && (s.bwRequest 2 [(3, wholeInv)] [(2, 64 * s.refineLines c w binData q 0xFFF)]).1 &&
        (match (s.bwRequest 2 [(3, wholeInv)] [(2, 64 * s.refineLines c w binData q 0xFFF)]).2.answer c w binData q 0 0xFFF with
        | .ok a => a.excls.isEmpty && a.out.isEmpty && decide (a.entries = [(11, 0)]) | .error _ => false)
     | _ => false) = true ∧
    s.hostOk 0x50000 0x450 = true := by decide +kernel

theorem wit_search_waits :
    ((searchW (some .pending)).qs.map (fun q => (searchS (some .pending)).coverage? 2 q)) = [none] := by decide +kernel

/-- SEARCH completes OK: its block's first entry is ID 11 with score 0, its record shows the mask (Tables 3.20 and 3.22). -/
theorem test_search_block :
    (match exec (.search 3 { tables := [], hard := false, seqs := [] }) (searchS (some .delivered)) with
     | .next t => decide (memNat t.hostMem 0x50040 16 = 11) && t.qm.cmds.isEmpty && decide (memNat t.hostMem 0x20002 2 = 0 ∧ memNat t.hostMem 0x20014 2 = 0xFFF)
     | _ => false) = true := by decide +kernel

theorem wit_scan_pass :
    let s := searchS (some .pending)
    let s0 := s.assignEngines
    (s0.waitingProbes 2 0 0 (.list 0)).map (fun h => decide (h.limit ≤ s0.hif.timer)) = [true] ∧ s0.freeEngine 2 0 = some 0 ∧
    (s0.waitingProbes 2 0 0 (.list 0)).map Waiting.mem = [true] ∧
    s0.stackOutFor 2 0 = false ∧ s0.waitingProbes 2 0 1 (.list 1) = [] ∧ s0.freeEngine 3 0 = none := by decide +kernel

/-- A segment of list 0 on engine 0 of stack 0. -/
def scanA : Pass := { id := 1, pass := 1, part := 2, coll := 0, what := .list 0, stack := 0, engine := some 0, first := 0, count := 1048576,
                      cursor := 0, served := [{ cmd := 3, q := 0 }], busy := 40 }
def scanS : State := { searchS (some (.running 1)) with scan := { base.scan with passes := [scanA], nextPass := 2 } }

/-- A record of list 0's one slot and what reading a slot for the query brings, with a score, a NaN, a withheld one, or near IDs. -/
def rowOf (dead : Bool) : SlotRow := { slot := 0, entry := { id := 11, code := [0, 0, 0, 0], attr := [], res := [], dead := dead } }
def nearData : CollData :=
  { binData with cfg := { binCfg with idInStack := true }, lists := binData.lists.map (fun l => { l with cols := { l.cols with id := 0x1300000 } }) }
def fpData : CollData := { binData with cfg := { binCfg with metric := 0, codeType := 2 } }
def oneServed : Served := { cmd := 3, q := 0 }

theorem wit_segment : scanS.segmentOn 0 0 = some scanA ∧ scanA.served = [oneServed] ∧
    (scanA.served.findSome? scanS.servedOf).isSome = true ∧ (scanS.part 2).state = .active ∧ scanS.scan.read.length = 12 ∧
    scanS.scan.emit.length = 12 ∧
    (let x := scanS.readFor scanA 1048576 (oneServed, 0)
     x.records.map (fun r => (r.1.slot, r.2)) = [(0, 11)] ∧ x.lines = [] ∧ x.far.all (fun l => !scanS.lineBad l) = true ∧
     (scanS.bwRequest 2 [(3, passInv 1)] [(scanS.scanReg scanA, scanBytes binData scanA 1), (2, 64)]).1 = true) ∧
    (0 < scanA.served.length ∧ scanA.first ≤ 0 ∧ 0 < scanA.first + scanA.count) ∧ ¬ (1 : Nat) < scanA.served.length ∧
    oneServed.left = false ∧ (scanS.ctx 7).borrower = none ∧ scanS.segmentOn 1 0 = none := by decide +kernel

theorem wit_read_row :
    let q : QState := { q32 := List.replicate 32 0, qbits := [0, 0, 0, 0] }
    let late : Served := { oneServed with theta := some 0 }
    let nan : Served := { oneServed with beta := 0xFF800000, table := (0, List.replicate 32 (List.replicate 256 0x7C00)) }
    slotBad scanS.lineBad (fun ln => !scanS.usable ln) binCfg (scanCols binData (.list 0) 0) false false 0 = [] ∧
    slotBad scanS.lineBad (fun ln => !scanS.usable ln) nearData.cfg (scanCols nearData (.list 0) 0) true false 0 = [] ∧
    oneServed.drops (rowOf true) = true ∧ oneServed.drops (rowOf false) = false ∧
    isNaN .fp32 (oneServed.score binData q (rowOf false)) = false ∧ isNaN .fp32 (nan.score fpData q (rowOf false)) = true ∧
    scanS.withholds binData oneServed 0x3F800000 = false ∧ scanS.withholds binData late 0x3F800000 = true ∧
    idsFar binData (.list 0) = true ∧ idsFar nearData (.list 0) = false ∧
    scanS.lineBad (idLine (scanCols nearData (.list 0) 0) 0) = false := by decide +kernel

/-- SEGMENT_DONE fetches the ID of its one record and charges its 40 ns. -/
theorem test_segment_done :
    (match exec (.segmentDone 0 0) scanS with
     | .next t => decide (t.mem.randLines = 1 ∧ lget 0 t.scan.emit 0 = 1 ∧ lget 0 t.scan.read 0 = 1 ∧ (t.ctx 7).engine = 40 ∧ t.scan.passes = [])
     | _ => false) = true := by decide +kernel

/-- A held entry of the query. -/
def thetaS : State := scanS.modQuery 3 0 (fun q => { q with held := [{ score := 0x3F800000, id := 11, fresh := false, version := 1, list := 0, slot := 0, stack := 0 }] })

theorem wit_theta : (scanS.servedOf { cmd := 3, q := 0 }).map (fun x => decide (x.2.2.1.held.length < (queryParams x.1 x.2.1 x.2.2.1).depth)) = some true ∧
    (thetaS.servedOf { cmd := 3, q := 0 }).map (fun x => decide ((queryParams x.1 x.2.1 x.2.2.1).depth ≤
      (bestOf (similarity x.2.2.2.cfg) 32 false 1 x.2.2.1.held).length ∧ x.2.2.1.theta = [])) = some true := by decide +kernel

theorem test_theta_update :
    (match exec (.thetaUpdate 3 0 0) thetaS with
     | .next t => (t.servedOf { cmd := 3, q := 0 }).map (fun x => x.2.2.1.theta) == some [(0, 0x3F800000)]
     | _ => false) = true := by decide +kernel

/-- PARTIAL_OK: the cut-off at F + 0.85 b. -/
def partS (t : Nat) : State :=
  let s := searchS (some .pending)
  { s with hif := { s.hif with timer := t }, qm := { s.qm with cmds := [{ searchC (some .pending) with qos := 0x000103E8 }] } }

theorem wit_cutoff : (partS 849999).hif.timer < 0 + 850 * qosBound 0x000103E8 + 0 ∧ 0 + 850 * qosBound 0x000103E8 + 0 ≤ (partS 850000).hif.timer ∧
    qosPartial 0x000103E8 = true ∧ qosPartial 1000 = false ∧ ctxRuns ((partS 850000).ctx 7) = true ∧ ((partS 850000).cmd? 3).isSome = true := by decide +kernel

theorem test_cutoff_fixes : (match exec (.coverageCutoff 3) (partS 850000) with
    | .next t => (t.qm.cmds.map (fun c => (c.query.getD {}).qs.map QState.fixed)) == [[some 0xFFE]] | _ => false) = true := by decide +kernel

/-! ### Witnesses: mutations and the journal store -/

/-- A mutation of the BIN collection: one record of 16 bytes, or an ID of 8, at host address 0x30000. -/
def mutD (op : Nat) : Desc := descWith [(0, op), (0x08, 9), (0x10, 0x30000), (0x18, if op = opDelete ∨ op = opAttrSet then 8 else 16), (0x1C, 1)]
def mutC (op : Nat) (m : Option MutWork) : Cmd := { cmdAt 3 (mutD op) with muta := m }
def mutS (op : Nat) (m : Option MutWork) : State :=
  { holding [mutC op m] with colls := [(0, binColl)], hostMem := [(0x30000, if op = opInsert then 12 else 11)] }

/-- The premises of a mutation that takes its locks and JSEQs. -/
def mutGoes (s : State) (c : Cmd) (bs : List Byte) : Bool :=
  let k := s.coll 0
  let rs := splitRecs k.data.cfg (dOpcode c.desc) bs
  decide (s.ready? 3 isMutation = some c ∧ s.qm.cmds = [c] ∧ k.state = .ready ∧ s.jrn.readOnly = false ∧ s.jrn.quiesced = false ∧
    s.jrn.mirror = false ∧ s.jrn.lp = 0) && s.lockFree c (mutLocks k.data 0 (dOpcode c.desc) 3 rs) &&
  (s.recordLinesBad 0 (dOpcode c.desc) k.data (rs.map recId)).isEmpty && !badRecords k.data (dOpcode c.desc) rs &&
  s.mutFits 0 (if addsFresh (dOpcode c.desc) then rs.length else 0) bs.length && s.frameRoom k.data.cfg.durability bs.length &&
  !c.before c

theorem wit_mutations : [opInsert, opDelete, opUpsert, opAttrSet].all (fun op =>
    let s := mutS op none
    match s.bufRead false 0x30000 (dfld (mutD op) 0x18 0 32) with
    | .ok bs => mutGoes s (mutC op none) bs
    | .error _ => false) = true := by decide +kernel

/-- A DELETE of ID 11 whose lock request waits. -/
def waitM : MutWork := { bytes := natBytes 8 11, waiting := true }

theorem wit_lock_grant : mutGoes (mutS opDelete (some waitM)) (mutC opDelete (some waitM)) waitM.bytes = true ∧
    waitM.bytes ≠ [] ∧ waitM.locked = false ∧ waitM.first = none := by decide +kernel

/-- INSERT takes JSEQ 1 and its SPEC0 shows it (R273, Table 3.20). -/
theorem test_insert_jseq : (match exec (.insert 3) (mutS opInsert none) with
    | .next t => decide (t.jrn.next = 2 ∧ t.qm.cmds.map (fun c => (c.run, c.spec0)) = [(.last, 1)] ∧ t.jrn.locks.length = 2)
    | _ => false) = true := by decide +kernel

theorem wit_barred :
    ((mutS opInsert none).ready? 3 isMutation = some (mutC opInsert none)) ∧
    ({ (mutS opInsert none).jrn with readOnly := true } : Jrn).readOnly = true ∧
    ({ mutS opInsert none with colls := [] } : State).coll 0 = {} ∧ (mutS opInsert none).jrn.readOnly = false ∧
    (let s := { mutS opInsert none with colls := [(0, { binColl with state := .failed })] }
     s.ready? 3 isMutation = some (mutC opInsert none) ∧ (s.coll 0).state = .failed) := by decide +kernel

/-- A frame of one INSERT of ID 12. -/
def frame12 (p : Place) : Frame :=
  { coll := 0, op := opInsert, first := 1, count := 1, hseq := 9, bytes := natBytes 8 12 ++ natBytes 8 0, place := p }
def frameS (f : Frame) : State :=
  { holding [{ mutC opInsert (some { locked := true, first := some 1 }) with run := .last, spec0 := 1 }] with
    colls := [(0, binColl)]
    jrn := { base.jrn with next := 2, frames := [f], locks := [{ coll := 0, list := true, lo := freshList, hi := freshList, excl := false, cmd := 3 }] } }

theorem wit_frames : (frameS (frame12 .staging)).jrn.frames = [] ++ frame12 .staging :: [] ∧
    (frameS (frame12 .staging)).jrn.bytesAt .buffer + (frame12 .staging).bytes.length ≤ bufCap ∧
    (frame12 .buffer).persisted = false ∧ ({ (frameS (frame12 .buffer)).module with holdupReady := true } : Module).holdupReady = true ∧
    (frame12 .nand).place = .nand ∧
    (let s := frameS (frame12 .staging)
     (s.frameRequest (frame12 .staging) [(4, 16)]).1 = true ∧ ((shut s).frameRequest (frame12 .staging) [(4, 16)]).1 = false ∧
     (s.frameRequest (frame12 .staging) [(0, 16)]).1 = true ∧ ((shut s).frameRequest (frame12 .staging) [(0, 16)]).1 = false) := by decide +kernel

/-- The frame owned by a command in flight, and by none. -/
theorem wit_write_fail : (frameS (frame12 .buffer)).jrn.frames.filter (fun f => !f.persisted) = [frame12 .buffer] ∧
    ((frameS (frame12 .buffer)).qm.cmds.find? (fun c => c.muta.bind MutWork.first == some (frame12 .buffer).first)).isSome = true ∧
    (let s := { frameS (frame12 .buffer) with qm := base.qm }; s.jrn.frames.any (fun f => !f.persisted) = true ∧
      s.qm.cmds.find? (fun c => c.muta.bind MutWork.first == some 1) = none) := by decide +kernel

theorem wit_record_apply :
    let s := frameS (frame12 .staging)
    (s.coll (0 : BitVec 10).toNat).state ≠ .free ∧ s.nextApply (0 : BitVec 10).toNat = some (frame12 .staging) ∧
    (s.qm.cmds.find? (fun c => c.muta.bind MutWork.first == some 1)).isSome = true ∧
    ({ s with qm := base.qm } : State).nextApply 0 = some (frame12 .staging) := by decide +kernel

/-- The INSERT's one record makes fresh entry 0; its command ends with ST_OK, SPEC0 1 and SPEC1 1. -/
theorem test_record_apply : (match exec (.recordApply 0) (frameS (frame12 .staging)) with
    | .next t => decide ((t.coll 0).data.fresh.map (fun f => (f.index, f.entry.id, f.jseq)) = [(0, 12, 1)] ∧ (t.coll 0).applied = 1 ∧
        (t.coll 0).hseq = 9 ∧ t.qm.cmds = [] ∧ memNat t.hostMem 0x20002 2 = 0 ∧ memNat t.hostMem 0x20010 8 = 1 ∧ t.jrn.locks = [])
    | _ => false) = true := by decide +kernel

theorem wit_records : binData.live 11 = true ∧ binData.live 12 = false ∧ recId (natBytes 8 11) = 11 ∧ recId (natBytes 8 12) = 12 := by
  decide +kernel

/-- DELETE tombstones ID 11; deleting ID 12 is ST_OK_ABSENT's case (Table 10.2). -/
theorem test_delete : (applyRec [] 0 opDelete 1 { data := binData, next := 0 } (natBytes 8 11)).data.live 11 = false ∧
    (applyRec [] 0 opDelete 1 { data := binData, next := 0 } (natBytes 8 12)).absent = true := by decide +kernel

/-- FILTER_DEFINE of filter 0 with a program that is well formed, and with one that is not. -/
def filtS (sub : Nat) (block : List Byte) : State :=
  { holding [{ cmdAt 3 (descWith [(0, opFilter), (6, sub)]) with block := block }] with
    colls := [(0, { binColl with data := { binData with filters := [(0, natBytes 64 0)] } })] }

theorem wit_filter :
    (let s := filtS 0x100 []
     s.jrn.lp = 0 ∧ s.tableLinesBad 0 = [] ∧ (s.bwRequest 2 [(3, wholeInv)] [(5, 0)]).1 = true) ∧
    ({ base.jrn with lp := 2 } : Jrn).lp ≠ 0 ∧ ((shut (filtS 0 (natBytes 64 0))).bwRequest 2 [(3, wholeInv)] [(5, 64)]).1 = false ∧
    ((filtS 0 []).ready? 3 (· == opFilter)).isSome = true ∧ ((filtS 0 []).coll 0).serves = true ∧
    ((filtS 0 []).coll 0).data.filters.any (fun f => f.1 == 0) = true ∧ ((filtS 0x101 []).coll 0).data.filters.any (fun f => f.1 == 1) = false ∧
    bitsOf (dSubop (descWith [(0, opFilter), (6, 0x101)])) 8 1 = 1 ∧ filterOk 0 (natBytes 64 0) = false := by
  decide +kernel

theorem wit_version :
    (let rs := (searchS none).readers (0 : BitVec 10).toNat (.list 0)
     rs.map (fun x => decide (x.memVer (.list 0) ≤ binData.memVer (.list 0))) = [true]) ∧
    (frameS (frame12 .staging)).readers (0 : BitVec 10).toNat (.list 0) = [] ∧
    (let d1 : CollData := { binData with vers := [(listKey 0, 1)] }
     let s := { searchS none with colls := [(0, { binColl with data := d1 })], qm := (holding [{ searchC none with query := some { searchW none with bound := some d1 } }]).qm }
     (s.readers 0 (.list 0)).map (fun x => decide (binData.memVer (.list 0) < x.memVer (.list 0))) = [true]) ∧ 0 < binData.lists.length := by
  decide +kernel

/-- An idle store with low power enabled after 1 ms. -/
def lpS : State := { base with jrn := { base.jrn with ctl := 0x10001 } }

theorem wit_low_power : lpS.jrn.lp = 0 ∧ flag lpS.jrn.ctl 16 = true ∧ lpS.jrn.lastUse + 1000000 * max 1 (fld lpS.jrn.ctl 0 16) ≤ lpS.hif.timer ∧
    lpS.jrn.maint.active = false ∧ lpS.jrn.ready = true ∧ lpS.jrn.frames = [] ∧ flag base.jrn.ctl 16 = false ∧ lpS.qm.cmds = [] := by
  decide +kernel

/-- A saved session of 12 TB fills the journal. -/
def bigSeq : Seq := { slot := 0, ctx := 7, seq := 0, state := 0, pos := 12, gen := 0, maxNew := 1, seed := 0, last := 0, pages := 1, per := 10 ^ 12 }
def fullS : State := { base with jrn := { base.jrn with twin := 0x40000000, snaps := [(0, { session := true, seqs := [(1, bigSeq)] })] } }

theorem wit_twins : base.hif.inReset = none ∧ flag (0xC0000000 : Word32) 30 = true ∧ base.qm.cmds = [] ∧ fullS.jrn.retain = true ∧
    100 * fullS.jrn.freeBytes < jrnCap ∧ base.jrn.retain = false ∧ (base.coll base.jrn.collSel).recovering = false := by decide +kernel

/-! ### Witnesses: collections -/

/-- A configuration block of a BIN collection of 32 dimensions: one list, FRESH_CAPACITY 4096, two records at 0x30000. -/
def blkB : List Byte := natBytes 512 (3 + 4 * 2 ^ 8 + 32 * 2 ^ 16 + 1 * 2 ^ 48 + 2 ^ 64 + 4096 * 2 ^ 96 + 100 * 2 ^ 128 + 4 * 2 ^ (8 * 0x1C) +
  0x30000 * 2 ^ (8 * 0x20) + 2 * 2 ^ (8 * 0x28) + 64 * 2 ^ (8 * 0x30) + 2 * 2 ^ (8 * 0x34))
def buildC (j : Option Job) (b : List Byte) : Cmd := { cmdAt 3 (descWith [(0, opBuild)]) with block := b, job := j }
def buildS (j : Option Job) (b : List Byte) (m : List Host.Cell) : State := { holding [buildC j b] with hostMem := m }

theorem test_build_block_fits_table_4_1 : cfgOk blkB = true ∧ cfgOk (0 :: blkB.drop 1) = false := by decide +kernel

theorem wit_build_checks :
    let s := buildS none blkB []
    s.ready? 3 (· == opBuild) = some (buildC none blkB) ∧ (s.coll 0).state = .free ∧ s.awaits 0 = false ∧
    ({ s with jrn := { s.jrn with maint := { active := true } } } : State).awaits 0 = true ∧
    s.buildFits (cfgOf blkB) (cfgCount blkB * (cfgOf blkB).spillMax) = true ∧ s.buildFits (cfgOf blkB) (2 ^ 38) = false ∧
    s.dropReplicas.buildFits (cfgOf blkB) (2 ^ 38) = false ∧ (s.bwRequest 2 [(3, wholeInv)] (listBulk (cfgOf blkB) 2 1)).1 = true ∧
    ((shut s).bwRequest 2 [(3, wholeInv)] (listBulk (cfgOf blkB) 2 1)).1 = false ∧
    (match s.readRecords false (cfgSource blkB) (cfgStride blkB) (contentBytes (cfgOf blkB)) (cfgCount blkB) with
     | .ok rs => !rs.any (fun r => recId r == padId || (recEls (cfgOf blkB) r).any (elemBad (cfgOf blkB))) | .error _ => false) = true ∧
    (match (buildS none blkB [(0x30000, 255), (0x30001, 255), (0x30002, 255), (0x30003, 255), (0x30004, 255), (0x30005, 255), (0x30006, 255),
        (0x30007, 255)]).readRecords false (cfgSource blkB) (cfgStride blkB) (contentBytes (cfgOf blkB)) (cfgCount blkB) with
     | .ok rs => rs.any (fun r => recId r == padId || (recEls (cfgOf blkB) r).any (elemBad (cfgOf blkB))) | .error _ => false) = true ∧
    ({ s with colls := [(0, binColl)] } : State).coll 0 = binColl := by decide +kernel

/-- A block with no entries, lists or fresh segment takes no memory, whatever the free choices. -/
def blkZ : List Byte := natBytes 512 (3 + 4 * 2 ^ 8)

theorem wit_build_makes :
    let s := buildS none blkZ []
    let cfg := cfgOf blkZ
    let s1 := ((s.bwRequest 2 [(3, wholeInv)] (listBulk cfg 0 1)).2.modColl 0 (fun _ => { state := .building, owner := 2, busyOp := opBuild, data := { cfg := cfg } })).modCmd 3
      (fun c => { c with run := .running, spec0 := unitsSpec 0 0, job := some { total := 0 } })
    (match s1.readF32 false 0 0, s1.buildParams cfg none none none [] with
     | .ok none, pr =>
       let as := assignAll pr.1 []
       let d0 := withResScale pr.1 as
       let e := encodeAll d0 as
       (s.bwRequest 2 [(3, wholeInv)] (listBulk cfg 0 1)).1 && !overLimits cfg e.lists 0 && (match (pr.2.fmtCount e.sat e.nan).orDropReplicas (fun s => s.layColl { d0 with epoch := 1 } (fun _ => none) e.lists (fun _ => 1)) with
        | some (d, s2) => decide (imageBytes d ≤ s2.jrn.freeBytes ∧ s2.qm = s1.qm) && (s1.cmd? 3).isSome
        | none => false)
     | _, _ => false) = true := by decide +kernel

/-! ### Witnesses: rewriting, saving and ending collections -/

/-- The content an empty configuration makes. -/
def dataZ : CollData := { cfg := cfgOf blkZ, epoch := 1 }
def collZ (st : CollState) (op : Nat) : Coll := { state := st, owner := 2, busyOp := op, data := dataZ, phys := dataZ }
def jobC (op : Nat) (l : List (Nat × Nat)) (j : Option Job) : Cmd := { cmdAt 3 (descWith ((0, op) :: l)) with job := j }
def jobS (op : Nat) (l : List (Nat × Nat)) (j : Option Job) (k : Coll) : State := { holding [jobC op l j] with colls := [(0, k)] }

theorem wit_build_done :
    let s := { jobS opBuild [] (some { result := some dataZ }) (collZ .building opBuild) with jrn := { base.jrn with twin := 0x40000000 } }
    (s.ready? 3 (· == opBuild)).isSome = true ∧ s.jrn.retain = true ∧ s.jrn.lp = 0 ∧ ({ s.jrn with lp := 2 } : Jrn).lp ≠ 0 ∧
    (s.bwRequest 2 [(3, wholeInv)] [(5, imageBytes dataZ)]).1 = true ∧ ((shut s).bwRequest 2 [(3, wholeInv)] [(5, imageBytes binData)]).1 = false := by decide +kernel

/-- The saved image of collection 0 in catalog entry 0, at label 5, and a RESTORE of it. -/
def snapZ : Snapshot := { part := 2, object := 0, label := 5, epoch := 4, image := { epoch := 4, mark := 6, after := 6, owner := 2, data := { dataZ with epoch := 4 }, hseq := 9 } }
def saved (s : State) : State := { s with jrn := { s.jrn with snaps := [(0, snapZ)], images := [(0, { epoch := 1, data := dataZ })], next := 8, h := 7 } }
def restS (j : Option Job) (st : CollState) : State := saved (jobS opRestore [(8, 5)] j (collZ st opRestore))

theorem wit_restore :
    (let s := restS none .ready
     (s.ready? 3 (· == opRestore)).isSome = true ∧ s.jrn.lp = 0 ∧ s.jrn.readOnly = false ∧ s.awaits 0 = false ∧
     s.jrn.findSnap 2 false 0 5 = some (0, snapZ) ∧ s.jrn.findSnap 2 false 0 6 = none ∧
     (({ s with colls := tset s.colls 0 { collZ .ready opRestore with state := .exclusive, busyOp := opRestore, data := { cfg := dataZ.cfg, epoch := 1 }, phys := {} } } : State).orDropReplicas
       (fun s => s.layImage snapZ.image.data)).isSome = true) ∧
    ((restS none .building).coll 0).state = .building ∧
    (let s := restS (some { result := some dataZ, snap := 0 }) .exclusive
     (s.ready? 3 (· == opRestore)).isSome = true ∧ s.jrn.frames = [] ∧ s.jrn.readOnly = false ∧ s.jrn.lp = 0 ∧
     (s.bwRequest 2 [(3, wholeInv)] (listBulk dataZ.cfg 0 1)).1 = true ∧
     ((shut s).bwRequest 2 [(3, wholeInv)] (listBulk binCfg 1 1)).1 = false ∧
     ({ s with jrn := { s.jrn with frames := [frame12 .staging], readOnly := true } } : State).jrn.readOnly = true ∧ (frame12 .staging).persisted = false) := by decide +kernel

/-- RESTORE_DONE: marker JSEQ 8, H = 8, epoch 4 again (R306). -/
theorem test_restore_done : (match exec (.restoreDone 3) (restS (some { result := some { dataZ with epoch := 4 }, snap := 0, start := .ready }) .exclusive) with
    | .next t => decide ((t.coll 0).state = .ready ∧ (t.coll 0).data.epoch = 4 ∧ (t.coll 0).applied = 8 ∧ t.jrn.h = 8 ∧ t.jrn.next = 9 ∧ t.qm.cmds = [])
    | _ => false) = true := by decide +kernel

theorem wit_compact :
    let s := jobS opCompact [] none (collZ .ready 0)
    let c := jobC opCompact [] none
    s.ready? 3 (· == opCompact) = some c ∧ s.rewriteBinds c = true ∧
    s.lockFree c [{ coll := 0, list := true, lo := 0, hi := 0, excl := false, cmd := 3 }, { coll := 0, list := true, lo := freshList, hi := freshList, excl := false, cmd := 3 }] = true ∧
    (s.coll 0).state = .ready ∧ s.rewriteLinesBad 0 dataZ [0] false = [] ∧ dataZ.fresh = [] ∧
    compactRange (s.coll 0).data.lists.length 0 0 = (0, 0) ∧ (s.coll 0).data.epoch ≠ 0xFFFFFFFF ∧
    (match s.orDropReplicas (fun s => s.compactRun (s.coll 0) (s.compactPlan (collZ .ready 0) 0 0)) with
     | some (d, s1) => decide (s1.jrn.newBytes (imageParts d s1.jrn.nextImg (s.compactPlan (collZ .ready 0) 0 0).lists.contains []) ≤ s1.jrn.freeBytes)
     | none => false) = true ∧
    (jobS opCompact [] none (collZ .failed 0)).rewriteBinds c = true ∧
    ({ jobS opCompact [] none (collZ .ready 0) with qm := { base.qm with cmds := [{ mutC opInsert none with seq := 2 }, c] } } : State).rewriteBinds c = false := by
  decide +kernel

theorem wit_train :
    let s := jobS opTrain [(6, 2)] none (collZ .ready 0)
    let c := jobC opTrain [(6, 2)] none
    s.ready? 3 (· == opTrain) = some c ∧ s.rewriteBinds c = true ∧
    (s.coll 0).state = .ready ∧ (s.coll 0).data.epoch ≠ 0xFFFFFFFF ∧ s.rewriteLinesBad 0 dataZ [] true = [] ∧
    s.lockFree c [{ coll := 0, list := true, lo := 0, hi := freshList, excl := false, cmd := 3 }] = true ∧
    (match s.trainSample c dataZ with
     | .ok x =>
       let t := trainParams dataZ x.1 true false 0 0
       let d := withResScale { t.1 with epoch := 2 } (assignAll t.1 (liveVecs dataZ))
       (match (s.fmtCount t.2.1 t.2.2).orDropReplicas (fun s => s.trainRun d (liveVecs dataZ)) with
        | some (r, s1) => decide (imageBytes r.1 ≤ s1.jrn.freeBytes) | none => false)
     | .error _ => false) = true := by decide +kernel

/-- A COMPACT that has its new content, alone, or beside another holder of the fresh segment. -/
def pubJ : Job := { bound := some dataZ, result := some { dataZ with epoch := 2 }, mark := 6, committed := true }

/-- Before its commit, with units left and with none. -/
def unitC (total done : Nat) : Cmd := { jobC opCompact [] (some { pubJ with committed := false, result := some { binData with epoch := 2 } }) with spec0 := unitsSpec done total }
theorem wit_rewrite_units :
    let s := { holding [unitC 2 1] with colls := [(0, collZ .exclusive opCompact)] }
    let u := { holding [unitC 2 2] with colls := [(0, collZ .exclusive opCompact)] }
    s.ready? 3 (· == opCompact) = some (unitC 2 1) ∧ (unitC 2 1).unitsDone = false ∧ (unitC 2 2).unitsDone = true ∧
    (u.rewriteImage (unitC 2 2)).1 = true ∧ ((shut u).rewriteImage (unitC 2 2)).1 = false ∧ u.jrn.lp = 0 := by decide +kernel

def pubS (other : Bool) : State :=
  let s := jobS opCompact [] (some pubJ) (collZ .exclusive opCompact)
  let l : Lock := { coll := 0, list := true, lo := freshList, hi := freshList, excl := false, cmd := 3 }
  { s with jrn := { s.jrn with locks := if other then [l, { l with cmd := 4 }] else [l] } }

theorem wit_publish :
    (pubS true).ready? 3 (fun op => op == opCompact || op == opTrain) = some (jobC opCompact [] (some pubJ)) ∧
    [true, false].map (fun b =>
      let s := pubS b
      let mine := (s.jrn.locks.filter (fun l => l.cmd == 3)).map (fun l => { l with excl := true })
      s.jrn.locks.any (fun h => h.cmd != 3 && mine.any (fun l => l.conflicts h))) = [true, false] := by decide +kernel

/-- A SNAPSHOT of the image bound at JSEQ 6, before and after H reaches it, and a session's. -/
def snapJ (mark : Nat) : Job := { bound := some dataZ, mark := mark }
def snapS (sub mark : Nat) : State := saved (jobS opSnapshot [(6, sub), (8, 5)] (if sub = 0 then some (snapJ mark) else none) (collZ .ready 0))

theorem wit_snapshot :
    (let s := snapS 0 7
     let c := jobC opSnapshot [(6, 0), (8, 5)] (some (snapJ 7))
     s.ready? 3 (· == opSnapshot) = some c ∧ dSubop c.desc = 0 ∧ s.mutsDone c = true ∧ s.jrn.lp = 0 ∧ s.jrn.readOnly = false ∧ 7 ≤ s.jrn.h ∧
     (((s.start 3).modCmd 3 (fun c => { c with spec0 := unitsSpec 0 (imageMiB dataZ), spec1 := dataZ.epoch })).commitSnap
       { part := 2, object := 0, label := 5, epoch := 1, image := { epoch := 1, after := 7, owner := 2, data := dataZ, wins := [(0, 7)] } }).isSome = true ∧
     (match (({ s with jrn := { s.jrn with snaps := [(0, { session := true, seqs := [(1, { bigSeq with pos := 13 })] })] } } : State).commitSnap
       { part := 2, object := 0, label := 5, epoch := 1, image := { data := binData, parts := [{ list := none, img := 9, bytes := 64 }] } }) with | none => true | some _ => false) = true) ∧
    (snapS 0 8).jrn.h < 8 ∧
    (let s := snapS 1 0
     (s.ready? 3 (· == opSnapshot)).isSome = true ∧ dSubop (jobC opSnapshot [(6, 1), (8, 5)] none).desc = 1 ∧
     (s.bwRequest 2 [(3, wholeInv)] [(5, 0)]).1 = true ∧
     ((s.bwRequest 2 [(3, wholeInv)] [(5, 0)]).2.commitSnap { part := 2, session := true, object := 7, label := 5 }).isSome = true ∧
     ((shut s).bwRequest 2 [(3, wholeInv)] [(5, 96)]).1 = false ∧
     (match s.commitSnap { part := 2, session := true, object := 7, label := 6, seqs := [(1, { bigSeq with pos := 13 })] } with | none => true | _ => false) = true) := by
  decide +kernel

/-- The header of a decoder's image: 16 tokens of vocabulary, one tensor of 1 × 16 FP32, a pool of 1 MiB. -/
def hdrM : List Byte := natBytes 256 (0x53574D31 + 2 ^ 32 + 3 * 2 ^ 48 + 16 * 2 ^ 64 + 64 * 2 ^ (8 * 0x0C) + 8 * 2 ^ (8 * 0x0E) + 2 * 2 ^ (8 * 0x10) +
  2 ^ (8 * 0x16) + 64 * 2 ^ (8 * 0x18) + 2 ^ (8 * 0x1A) + 64 * 2 ^ (8 * 0x1C) + 2 ^ (8 * 0x20) + f32One * 2 ^ (8 * 0x24) + f32One * 2 ^ (8 * 0x28) +
  2 ^ (8 * 0x2C) + 64 * 2 ^ (8 * 0x48) + 256 * 2 ^ (8 * 0x50))

/-- A saved session with sequence 0 of a model of slot 0, which holds the same model or another. -/
def sesS (id : Nat) : State :=
  { holding [jobC opRestore [(6, 1), (8, 5)] none] with
    jrn := { base.jrn with snaps := [(0, { part := 2, session := true, object := 7, label := 5, seqs := [(1, { bigSeq with per := 64 })] })] }
    models := { slots := [(0, { state := .ready, owner := 2, modelId := id, hdr := if id = 3 then [] else hdrM })] } }

theorem wit_restore_session :
    (let s := sesS 1
     s.ready? 3 (· == opRestore) = some (jobC opRestore [(6, 1), (8, 5)] none) ∧ dSubop (jobC opRestore [(6, 1), (8, 5)] none).desc = 1 ∧
     (s.jrn.findSnap 2 true 7 5).map Prod.fst = some 0 ∧ s.jrn.lp = 0 ∧ s.jrn.readOnly = false ∧
     (tget {} s.models.slots 0 : Slot).state = .ready ∧ (tget {} s.models.slots 0 : Slot).modelId = 1 ∧ (tget {} s.models.slots 0 : Slot).owner = 2) ∧
    (tget {} (sesS 2).models.slots 0 : Slot).modelId ≠ 1 ∧
    [1, 3].map (fun n => (sesS n).sessionFits [] [{ bigSeq with per := 64 }]) = [true, false] := by decide +kernel

theorem wit_snap_delete : (saved base).hif.inReset = none ∧ flag (1 : Word32) 0 = true ∧
    (saved base).jrn.snaps.any (fun x => x.1 == (saved base).jrn.snapSel) = true ∧ (saved base).qm.cmds = [] ∧
    (restS (some { result := some dataZ, snap := 0 }) .exclusive).qm.cmds.map (fun c => decide (dOpcode c.desc = opRestore ∧ c.job.map Job.snap = some 0)) = [true] := by decide +kernel

theorem wit_recovery :
    let s := { saved base with jrn := { (saved base).jrn with recov := [0] } }
    let i : Image := tget {} s.jrn.images 0
    let k := recoveredColl i (s.jrn.framesAbove 0 i.after)
    s.jrn.recov = 0 :: [] ∧ s.jrn.ready = true ∧ s.jrn.lp = 0 ∧ (s.bwRequest i.owner [] [(5, imageBytes i.data)]).1 = true ∧
    ((s.bwRequest i.owner [] [(5, imageBytes i.data)]).2.orDropReplicas (fun s => s.layImage k.data)).isSome = true ∧
    ((shut s).bwRequest 2 [] [(5, imageBytes binData)]).1 = false ∧ base.jrn.recov = [] := by decide +kernel

/-- FORMAT of collection 0 or of the store, and one under way. -/
def fmtS (o : Nat) : State := jobS opFormat [(4, o)] none (collZ .ready 0)
def maintS (target : Nat) (cmd : Option Nat) : State :=
  let s := jobS opFormat [] (some { total := 1 }) (collZ .exclusive opFormat)
  { s with jrn := { s.jrn with maint := { op := 1, target := target, total := 1, active := true, cmd := cmd } } }

theorem wit_maint_unit :
    let s := maintS 0 (some 3)
    let u := { s with jrn := { s.jrn with maint := { s.jrn.maint with total := 3 } } }
    s.jrn.maint.total ≤ s.jrn.maint.done + 1 ∧ u.jrn.maint.done + 1 < u.jrn.maint.total ∧ u.maintRequest.1 = true ∧ (shut u).maintRequest.1 = false := by
  decide +kernel

theorem wit_maintenance :
    [0, 0xFFFF].all (fun o => decide ((fmtS o).ready? 3 (· == opFormat) = some (jobC opFormat [(4, o)] none)) && decide ((fmtS o).jrn.maint.active = false)) = true ∧
    ((jobS opSanitise [] none (collZ .failed 0)).ready? 3 (· == opSanitise)).isSome = true ∧
    (maintS 0 (some 3)).jrn.maint.active = true ∧ ((maintS 0 (some 3)).cmd? 3).isSome = true ∧ (maintS 0 (some 3)).jrn.maint.target ≠ 0x7FF ∧
    (maintS 0x7FF (some 3)).jrn.maint.target = 0x7FF ∧ (maintS 0 none).jrn.maint.cmd = none ∧ (maintS 0 none).jrn.maint.resumed = false ∧
    (maintS 0 none).jrn.ready = true ∧
    (let s := { maintS 0x7FF none with hif := { base.hif with bootStage := 0x60 }, jrn := { (maintS 0x7FF none).jrn with ready := false } }
     s.hif.bootStage = 0x60 ∧ s.jrn.ready = false) := by decide +kernel

/-- FORMAT of one collection frees it (Table 10.17). -/
theorem test_format_done : (match exec .maintDone (maintS 0 (some 3)) with
    | .next t => decide ((t.coll 0).state = .free ∧ t.jrn.maint.active = false ∧ t.qm.cmds = []) | _ => false) = true := by decide +kernel

/-! ### Witnesses: models -/

/-- The tensor's entry, and the cells of bytes at an address. -/
def entM : List Byte := natBytes 64 (64 * 2 ^ 64 + 2 ^ 128 + 16 * 2 ^ 160)
def cellsAt (a : Nat) (bs : List Byte) : List Host.Cell := (bs.zipIdx.filter (fun x => x.1 != 0)).map (fun x => (a + x.2, x.1))

/-- A far MODEL_LOAD of slot 0 from 0x30000, with an image whose header starts with byte m. -/
def loadC (sub : Nat) (j : Option Job) : Cmd := jobC opModelLoad [(6, sub), (8, 0x30000), (0x10, 384)] j
def loadS (sub : Nat) (j : Option Job) (hdr : List Byte) (k : Slot) : State :=
  { holding [loadC sub j] with hostMem := cellsAt 0x30000 (hdr ++ entM), models := { slots := [(0, k)] } }

theorem wit_model_load :
    (let s := loadS 1 none hdrM {}
     s.ready? 3 (· == opModelLoad) = some (loadC 1 none) ∧ (tget {} s.models.slots 0 : Slot).state = .free ∧
     (match s.bufRead false 0x30000 256, s.bufRead false (0x30000 + 256) 64 with
      | .ok h, .ok dir => decide (h = hdrM) && headerOk h 384 && (dirEntries h dir).all (tensorOk · 384) &&
          (match (s.slotFree 0).orDropReplicas (fun x => x.modelSpace true (weightBytes (dirEntries h dir) + shadowTotal (dirEntries h dir)) (2 ^ 20)) with
           | some (_, s1) => (match s1.bufRead false 0x30000 384 with | .ok _ => true | .error _ => false)
           | none => false)
      | _, _ => false) = true) ∧
    headerOk (0 :: hdrM.drop 1) 384 = false ∧
    (let s := loadS 1 none hdrM { state := .ready }
     s.slotUsed (loadC 1 none) 0 = false ∧ ({ s with models := { s.models with seqs := [bigSeq] } } : State).slotUsed (loadC 1 none) 0 = true) := by
  decide +kernel

theorem wit_model_done :
    (let s := loadS 1 (some {}) hdrM { state := .loading, owner := 2, hdr := hdrM, tensors := [{ entry := entM, bytes := 64 }] }
     s.ready? 3 (· == opModelLoad) = some (loadC 1 (some {})) ∧ (tget {} s.models.slots 0 : Slot).state = .loading ∧ (s.part 2).state ≠ .draining) ∧
    bitsOf (dSubop (loadC 2 none).desc) 1 1 = 1 ∧ (loadS 2 none hdrM { state := .ready }).slotUsed (loadC 2 none) 0 = false ∧
    (loadC 1 (some {})).job ≠ none ∧ ((loadS 1 (some {}) hdrM {}).copyGo 3 2 true).1 = true ∧
    ((shut (loadS 1 (some {}) hdrM {})).copyGo 3 2 true).1 = false := by decide +kernel

/-- Slot 4 of partition 2, ready: in the stacks, far with room for a working copy, and far in place. -/
def slotS (far inPlace : Bool) : State :=
  { base with models := { slots := [(4, { state := .ready, owner := 2, far := far, inPlace := inPlace, hdr := hdrM })] } }

theorem wit_activate :
    (let s := slotS false false
     (tget {} s.models.slots 4 : Slot).state = .ready ∧ (tget {} s.models.slots 4 : Slot).owner = 2 ∧ (s.part 2).state = .active ∧
     (s.part 2).place.any (fun e => e.2 == 1) = true ∧ (s.part 2).place.any (fun e => e.2 == 5) = false ∧
     (tget {} s.models.slots 4 : Slot).far = false) ∧
    (let s := slotS true false
     (tget {} s.models.slots 4 : Slot).far = true ∧ (tget {} s.models.slots 4 : Slot).inPlace = false ∧ s.models.copies = [] ∧
     (tget {} s.models.slots 4 : Slot).weights ≤ s.modelArea 2 ∧ (s.bwRequest 2 [] [(3, 0), (1, 0)]).1 = true ∧
     ((shut s).bwRequest 2 [] [(3, 64), (1, 64)]).1 = false) := by decide +kernel

/-- A MODEL_STEP with one join of one token at 0x31000, and with none. -/
def blkJ (seq : Nat) : List Byte := natBytes 128 (2 ^ 16 * 1 + 2 ^ 512 * (seq + 2 ^ 32 + 0x31000 * 2 ^ 64 + 2 ^ (8 * 0x14)))
def stepC (b : List Byte) : Cmd := { cmdAt 3 (descWith [(0, opModelStep), (0x04, 4), (0x18, 0x32000)]) with block := b }
def stepS (b : List Byte) (tok : Nat) : State :=
  { holding [stepC b] with hostMem := cellsAt 0x31000 (natBytes 4 tok), models := { (slotS false false).models with active := [(129, 4)] } }
def slotM : Slot := tget {} (slotS false false).models.slots 4

theorem wit_model_step :
    [natBytes 64 0, blkJ 1].all (fun b =>
      let s := stepS b 3
      let js := (List.range (stepJoins b)).map (joinAt b)
      decide (s.ready? 3 (· == opModelStep) = some (stepC b)) && s.modelActive 2 4 && !s.earlier (stepC b) (fun _ => true) &&
      s.stepOk slotM 4 7 b && (s.bwRequest 2 [(3, wholeInv)] (s.weightReads [4])).1 &&
      (match s.readJoins false js, (stepS b 16).readJoins false js with
       | .ok ts, .ok us => !ts.any (fun t => (t.2.1 ++ t.2.2).any (fun k => decide (hdrVocab hdrM ≤ k))) &&
           (b.length == 64) != us.any (fun t => (t.2.1 ++ t.2.2).any (fun k => decide (hdrVocab hdrM ≤ k)))
       | _, _ => false)) = true ∧
    (stepS (blkJ 1) 3).stepOk slotM 4 7 (natBytes 128 (2 ^ 16)) = false ∧
    ((shut (stepS (natBytes 64 0) 3)).bwRequest 2 [(3, wholeInv)] [(0, 64)]).1 = false ∧ (base.part 2).state ≠ .draining ∧
    (let s := stepS (natBytes 64 0) 3
     (s.writeAll false [(0x32000, natBytes 64 0)]).isSome = true ∧
     (match ({ s with hostBad := [(0x32000, 64)] } : State).writeAll false [(0x32000, natBytes 64 0)] with | none => true | _ => false) = true) := by
  decide +kernel

/-- Greedy picks the largest logit, a tie to the lower index (R331). -/
theorem test_greedy : greedy (fun i => if i = 2 ∨ i = 5 then 0x40000000 else 0x3F800000) 8 = some 2 := by decide +kernel

/-- ATOMIC adds at the start of the host region, aligned types 0 and 4. -/
def atomS (ty : Nat) : State := { holding [cmdAt 3 (descWith [(0, opAtomic), (6, ty), (8, farBase), (0x10, 0x30000)])] with mem := { base.mem with farHost := 1 } }

theorem wit_atomic :
    ((atomS 0).ready? 3 (· == opAtomic)).isSome = true ∧ (atomS 0).badLines farBase (atomicBytes 0) = [] ∧
    ((atomS 0).bwRequest 2 [(3, wholeInv)] [(lcOf farBase, atomicBytes 0)]).1 = true ∧
    ((shut (atomS 0)).bwRequest 2 [(3, wholeInv)] [(lcOf farBase, atomicBytes 0)]).1 = false ∧
    (match (atomS 4).bufRead false 0x30000 64 with | .ok _ => true | .error _ => false) = true ∧
    ({ atomS 0 with mem := { (atomS 0).mem with bad := [farBase] } } : State).badLines farBase (atomicBytes 0) ≠ [] := by decide +kernel

theorem wit_progress_digest :
    [0, 1].all (fun sub => ((holding [cmdAt 3 (descWith [(0, opProgress), (6, sub)])]).ready? 3 (· == opProgress)).isSome) = true ∧
    ((holding [cmdAt 3 (descWith [(0, opDigest)])]).ready? 3 (· == opDigest)).isSome = true ∧ base.jrn.recov = [] ∧
    (base.bufWrite false 0 (base.moduleDigest [])).isSome = true := by decide +kernel

/-! ### Witnesses: contexts, partitions and pre-emption -/

theorem wit_contexts : base.hif.inReset = none ∧ (base.ctx 7).state = .active ∧ base.ringsOfCtx 7 = [5] ∧
    (let s := { base with sch := { base.sch with ctxSel := 8, ctxs := [(8, { cfg := 0x00020001 })] } }
     (s.ctx 8).state = .free ∧ (s.part (fld (s.ctx 8).cfg 16 4)).state = .active ∧ s.ringsOfCtx 8 = []) ∧
    (let s := { base with sch := { base.sch with ctxSel := 8 } }; (s.part (fld (s.ctx 8).cfg 16 4)).state = .off) := by decide +kernel

/-- Partition 3 selected, with resources r and areas m. -/
def part3 (r : Word64) (m : Word32) (st : PartState) : State :=
  { base with sch := { base.sch with partSel := 3, parts := [(2, part2), (3, { res := r, mem := m, state := st })] } }
def clash3 (r : Word64) : Bool :=
  let s := part3 r 0 .off
  allParts.any (fun o => o != 3 && decide ((s.part o).state ≠ .off) && (s.part o).res.toNat &&& (r.toNat % 2 ^ 48) != 0)

theorem wit_enable : clash3 0x000200020008 = false ∧ clash3 0x000100020008 = true ∧ clash3 0x000200020000 = false ∧
    bitsOf 0x000200020000 0 16 = 0 ∧ bitsOf 0x000200020008 0 16 ≠ 0 ∧ bitsOf 0x000200020008 16 16 ≠ 0 ∧
    (let s := part3 0x000200020008 0x00010001 .off
     let a := areaBlocks (s.part 3)
     a.1 + a.2.1 + a.2.2 ≤ sumN ((List.range 12).map s.freeBlocks)) ∧
    (let s := part3 0x000200020008 0xFFFFFFFF .off
     let a := areaBlocks (s.part 3)
     sumN ((List.range 12).map s.freeBlocks) < a.1 + a.2.1 + a.2.2) ∧ ((part3 0 0 .active).part 3).state ≠ .off := by decide +kernel

theorem wit_partition_states : ((part3 0 0 .paused).part 3).state = .paused ∧ (base.part 2).state = .active ∧
    (base.ctxsOfPart 2).any (fun x => decide ((base.ctx x).state ≠ .active)) = false ∧
    ((withCtx (fun k => { k with state := .saved }) base).ctxsOfPart 2) = [7] ∧
    ((part3 0 0 .resetting).part (3 : BitVec 4).toNat).state = .resetting ∧ base.qm.cmds = [] ∧ ((part3 0 0 .off).part 3).state = .off := by
  decide +kernel

/-- A placement table at 0x30000 with logical tile 0 on physical tile t, group 0. -/
def tableS (t : Nat) : State := withPart (fun q => { q with placeAddr := 0x30000 }) { base with hostMem := cellsAt 0x30000 (natBytes 72 (1 + 2 ^ 16 + t * 2 ^ 512)) }

theorem wit_place :
    [34, 0].map (fun t => let s := tableS t
      decide ((s.part 2).state = .active) && s.hostOk 0x30000 72 && getLE (s.hostRead 0x30000 64) 0 2 == 1 &&
      s.placeOk 2 (s.hostRead 0x30000 72) && imagesKeep (s.part 2) (placeEntries (s.hostRead 0x30000 72) 1)) = [true, false] ∧
    ({ tableS 34 with hostBad := [(0x30000, 1)] } : State).hostOk 0x30000 72 = false ∧ (base.part (2 : BitVec 4).toNat).bw.length = 6 := by
  decide +kernel

/-- Command 3 of context 7 runs on tile 34; a control command with fetch number 4 of the same partition. -/
def runC : Cmd := { cmdAt 3 (descWith [(0, opModelStep)]) with run := .running }
def ctlC (op sub target : Nat) : Cmd := cmdAt 4 (descWith [(0, op), (6, sub), (8, target)])
def tileS (cs : List Cmd) : State := { holding cs with tiles := [(34, { running := some 3 })] }
def inState (st : CtxState) (precise : Bool) (s : State) : State := withCtx (fun k => { k with state := st, precise := precise, pauseAt := 4000000 }) s

/-- A saved image of logical tile 0, taken from tile 34. -/
def imgOf (x n : Nat) : SaveImage := { ctx := x, logical := 0, phys := 34, cmd := n, tile := {} }

theorem wit_pause :
    [0, 2].all (fun sub => decide ((holding [ctlC opPause sub 7]).ready? 4 (· == opPause) = some (ctlC opPause sub 7)) &&
      ctlPartScope (ctlC opPause sub 7).desc == false && ctlPrecise (ctlC opPause sub 7).desc == (sub == 2) && ctlTarget (ctlC opPause sub 7).desc == 7) = true ∧
    (base.ctx 7).state = .active ∧ (base.ctx 8).state ≠ .active ∧ (base.part 2).state ≠ .draining ∧
    ((holding [ctlC opPause 0 7]).start 4).ctxQuiet 7 = true ∧ ((tileS [runC, ctlC opPause 0 7]).start 4).ctxQuiet 7 = false ∧
    (tileS [runC, ctlC opPause 2 7]).ctxTiles 7 = [34] ∧ base.ctxTiles 7 = [] ∧ base.imagesLeft 2 = 16 ∧ (base.part 2).state ≠ .pausing ∧
    (inState .pausing true base).ctx 7 ≠ base.ctx 7 ∧ (ctlC opPause 0 7).run = .waiting ∧
    (let s := withPart (fun q => { q with images := List.replicate 16 (imgOf 8 9) }) (tileS [runC])
     s.imagesLeft 2 < (s.ctxTiles 7).length) := by decide +kernel

theorem wit_pause_partition :
    [1, 3].all (fun sub => ctlPartScope (ctlC opPause sub 2).desc && ctlPrecise (ctlC opPause sub 2).desc == (sub == 3) &&
      decide ((holding [ctlC opPause sub 2]).ready? 4 (· == opPause) = some (ctlC opPause sub 2))) = true ∧
    (base.part 2).state = .active ∧ (base.part 3).state ≠ .active ∧ (base.part 3).state ≠ .pausing ∧
    ((base.ctxsOfPart 2 ++ [devCtx 2]).flatMap base.ctxTiles).length ≤ base.imagesLeft 2 ∧
    ((withPart (fun q => { q with state := .pausing }) base).part 2).state = .pausing ∧
    (let s := withPart (fun q => { q with images := List.replicate 16 (imgOf 8 9) }) (tileS [runC])
     s.imagesLeft 2 < ((s.ctxsOfPart 2 ++ [devCtx 2]).flatMap s.ctxTiles).length) := by
  decide +kernel

theorem wit_tile_save :
    (let s := inState .pausing true (tileS [runC])
     (s.tile (34 : Fin 272).val).running = some 3 ∧ s.cmd? 3 = some runC ∧ (s.ctx 7).state = .pausing ∧ (s.ctx 7).precise = true ∧
     s.deferring 7 = false ∧ (s.part 2).state ≠ .draining ∧ isSearch (dOpcode runC.desc) = false ∧
     (s.bwRequest 2 [(3, tileInv 34)] [(0, tileImageBytes)]).1 = true ∧ ((shut s).bwRequest 2 [(3, tileInv 34)] [(0, tileImageBytes)]).1 = false) ∧
    ((inState .active false (tileS [runC])).ctx 7).state ≠ .pausing ∧
    (let s := inState .borrowed false (tileS [runC])
     (s.ctx 7).state = .borrowed ∧ s.awaited 7 = false ∧ (s.saveTile runC 34).ctxTiles 7 = []) ∧
    (let s := inState .borrowed false { tileS [runC] with tiles := [(34, { running := some 3 }), (35, { running := some 3 })] }
     (s.saveTile runC 34).ctxTiles 7 ≠ []) := by decide +kernel

theorem wit_resume :
    [0, 1].all (fun sub => decide ((holding [ctlC opResume sub 7]).ready? 4 (· == opResume) = some (ctlC opResume sub 7)) &&
      ctlPartScope (ctlC opResume sub 7).desc == (sub == 1)) = true ∧
    ((inState .pausing false base).ctx 7).state = .pausing ∧ ((inState .saved true base).ctx 7).state = .saved ∧
    ((withPart (fun q => { q with state := .paused }) base).part 2).state = .paused ∧
    ((withPart (fun q => { q with state := .pausing }) base).part 2).state = .pausing ∧
    (inState .saved true base).roomFor 2 7 = true ∧
    ((withPart (fun q => { q with state := .paused }) base).ctxsOfPart 2 ++ [devCtx 2]).all (base.roomFor 2) = true ∧
    (let s := withPart (fun q => { q with state := .paused, images := [imgOf 7 3] }) (tileS [runC])
     s.roomFor 2 7 = false ∧ (s.ctxsOfPart 2 ++ [devCtx 2]).all (s.roomFor 2) = false) := by decide +kernel

/-- A context that holds semaphore 1, saved from logical tile 0, and a waiter for it on tile t. -/
def heldS (st : CtxState) (marked : List Nat) (t : Nat) (full : Bool) : State :=
  inState st true (withPart (fun q => { q with
    sems := [(1, { count := 0, holds := [(7, 1)], waiters := [{ ctx := 8, cmd := 5, tile := t, amount := 1, since := 0 }], marked := marked })]
    images := (if full then List.replicate 15 (imgOf 9 9) else []) ++ [imgOf 7 3] })
    (holding [runC, { cmdAt 5 searchD with run := .running, ctx := 8 }]))

def onTile (n : Nat) (s : State) : State := { s with tiles := [(34, { running := some n })] }

theorem wit_holders :
    (let s := heldS .pausing [] 35 false
     (s.ctx 7).precise = true ∧ s.holds 7 = true ∧ s.pauseStamp 7 + 1000 * fld (s.part 2).cfg 0 16 ≤ s.hif.timer ∧ s.waiterOf 7 = none) ∧
    (let s := withCtx (fun k => { k with pauseAt := 4000001 }) (heldS .pausing [] 35 false)
     s.hif.timer < s.pauseStamp 7 + 1000 * fld (s.part 2).cfg 0 16) ∧
    [(0, false), (5, false), (5, true), (3, false)].map (fun e =>
      let s := if e.1 = 0 then heldS .saved [7] 34 e.2 else onTile e.1 (heldS .saved [7] 34 e.2)
      let used := (s.imageTiles 2 7).filterMap (fun i => (s.tile i).running)
      ((s.waitersOf 7).map SemWaiter.cmd, used, decide (((s.saveWaiter 5).ctx 7).state = .saved) && (s.saveWaiter 5).roomFor 2 7,
        decide (s.imagesLeft 2 < 1))) =
      [([5], [], true, false), ([5], [5], true, false), ([5], [5], true, true), ([5], [3], false, false)] ∧
    (let s := onTile 5 { heldS .saved [7] 34 false with qm := (holding [runC]).qm }
     (s.waitersOf 7).map SemWaiter.cmd = [5] ∧ (s.imageTiles 2 7).filterMap (fun i => (s.tile i).running) = [5] ∧ (s.saveWaiter 5).roomFor 2 7 = false) ∧
    ((heldS .saved [7] 34 true).cmd? 5).isSome = true ∧ ((heldS .active [7] 35 false).ctx 7).state ≠ .saved := by
  decide +kernel

/-- One tile's 10 ns go to context 7, or to the context whose share it runs on (R350, R362). -/
def borrowS (b : Option Nat) : State := withCtx (fun k => { k with borrower := b }) (tileS [runC])

theorem wit_engine_time : (borrowS none).pending = [] ∧ (borrowS none).clockRuns = true ∧ ((borrowS (some 8)).ctx 7).borrower.getD 7 = 8 ∧
    ((borrowS none).ctx 7).borrower.getD 7 = 7 := by decide +kernel

theorem test_engine_time :
    [none, some 8].map (fun b => match step (borrowS b) with
      | .next t => [(t.ctx 7).engine, (t.ctx 7).borrow, (t.ctx 8).engine] | _ => []) = [[10, 0, 0], [0, 10, 10]] := by decide +kernel

/-- Semaphore 1 with a count. -/
def semS (k : Nat) : State := withPart (fun q => { q with sems := [(1, { count := k })] }) (tileS [runC])

theorem wit_semaphores : (semS 5).tileCmd (34 : Fin 272).val = some runC ∧ ((semS 5).sem 2 1).waiters = [] ∧
    ((semS 5).sem 2 1).count = 5 ∧ 65535 < 5 + (0xFFFF : BitVec 16).toNat ∧ ((heldS .active [] 35 false).sem 2 1).waiters ≠ [] ∧
    (let s := (semS 5).modSem 2 1 (fun m => { m with waiters := [{ ctx := 7, cmd := 3, tile := 34, amount := 6, since := 0 }] })
     s.waitCycle 7 = false) := by decide +kernel

/-! ### Witnesses: streams and tile programs -/

/-- A stream of 32 bytes: space and address of its two sides. -/
def strD (ss sa ds da : Nat) : Desc := descWith [(0, ss * 2 ^ 62 + sa), (8, ds * 2 ^ 62 + da), (0x10, 32), (0x14, 0x0001000100010001)]
def strOf (ss sa ds da : Nat) (adm : Bool) : Stream := { id := 1, ctx := 7, cmd := 3, tile := 34, desc := strD ss sa ds da, admitted := adm, next := if adm then 1 else 0 }
def strS (x : Stream) : State := { tileS [runC] with mem := { base.mem with streams := [x] } }

theorem wit_stream_issue :
    let s := tileS [runC]
    s.mayIssue 3 (34 : Fin 272).val = some runC ∧ (s.takeTile 3 34).2 = true ∧ s.tileWaits 3 34 = false ∧ s.placement runC = [34, 35] ∧
    streamFault (strD 0 0x1000000 2 64) 2 [0, 1] = none ∧ streamFault (strD 3 0 2 0) 2 [0, 1] = some 7 ∧
    streamFault (strD 0 0 2 (2 * 2 ^ 44)) 2 [0, 1] = some 4 ∧ s.betweenGroups runC (strD 2 0 2 (2 ^ 44)) 34 = true ∧
    s.betweenGroups runC (strD 2 0 2 0) 34 = false ∧ s.waitCycle 7 = false ∧ ({ s with tiles := [(34, { running := some 9 })] } : State).takeTile 3 34 = ({ s with tiles := [(34, { running := some 9 })] }, false) := by
  decide +kernel

theorem wit_stream_admit :
    let x := { strOf 2 0 2 (2 ^ 44) false with reserve := true }
    (strS x).mem.streams.find? (fun y => y.id == 1) = some x ∧ x.admitted = false ∧
    (let mine := (strS x).mem.streams.filter (fun y => ((strS x).ctx y.ctx).part == 2 && y.reserve)
     (mine.find? (fun y => !y.admitted)).map Stream.id = some 1 ∧ mine.any (fun y => y.admitted && (strS x).buffersClash y x) = false) ∧
    (let s := strS x
     s.buffersClash { x with id := 2, admitted := true } x = true) := by decide +kernel

/-- The stream's 32 bytes go to tile 34; its source is good, bad, under rebuild, or a host range that fails. -/
theorem wit_tag_landed :
    let x := strOf 0 0x1000000 2 64 true
    let s := strS x
    s.mem.streams.find? (fun y => y.id == 1) = some x ∧ s.cmd? 3 = some runC ∧ s.streamRuns runC x = true ∧ 0 < x.next ∧ x.frontier = 0 ∧ 0 ∉ x.landed ∧ 0 < dElems x.desc ∧ 0 < dTags x.desc ∧
    ¬ 0 < (strOf 0 0x1000000 2 64 false).next ∧ x.frontier * dTags x.desc + x.landed.length ≤ x.next ∧ sumN (s.mem.streams.map Stream.out) ≤ 1024 ∧
    s.streamReach x.desc 0 0 32 = .ok ∧ ({ s with mem := { s.mem with bad := [0x1000000] } } : State).streamReach x.desc 0 0 32 = .stop ∧
    ({ s with mem := { s.mem with missing := [{ block := 8, source := true, room := false, running := true }] } } : State).streamReach x.desc 0 0 32 = .halt ∧
    (streamBw x.desc 0).all (s.bwOpen 2) = true ∧
    (streamBw x.desc 0).all ((withPart (fun q => { q with bw := List.replicate 6 { reg := 0x10000001, level := 0 } }) s).bwOpen 2) = false ∧
    (match s.streamRead runC x.desc 0 0 32 with
     | .ok bs => (match s.streamWrite runC x.desc 0 0 bs with | .ok _ => true | .error _ => false) | .error _ => false) = true ∧
    (match ({ s with hostBad := [(0, 64)] } : State).streamRead runC (strD 1 0 2 64) 0 0 32 with | .ok _ => false | .error _ => true) = true := by
  decide +kernel

/-- TAG_LANDED puts the 32 bytes at offset 64 and ends the stream. -/
theorem test_tag_landed :
    (match exec (.tagLanded 1 0 0) { strS (strOf 0 0x1000000 2 64 true) with mem := { (strS (strOf 0 0x1000000 2 64 true)).mem with dev := [(0x1000003, 9)] } } with
     | .next t => decide ((t.tile 34).scratch = [(67, 9)] ∧ t.mem.streams = []) | _ => false) = true := by decide +kernel

theorem wit_stream_resume :
    let x := { strOf 0 0x1000000 2 64 true with halted := true }
    (strS x).mem.streams.find? (fun y => y.id == 1) = some x ∧ ((strS x).cmd? x.cmd).any ((strS x).streamRuns · x) = true ∧
    (List.range (dElems x.desc - x.frontier)).any (fun i => decide ((strS x).streamReach x.desc (x.frontier + i) 0 (dElem x.desc) = .halt)) = false ∧
    (let s := { strS { x with halted := false } with hif := { base.hif with timer := 10 ^ 10 } }
     s.mem.streams.any (fun t => decide (t.admitted = true ∧ t.halted = false ∧ t.since + 1000 * max 1 (fld s.sch.wdog 0 16) ≤ s.hif.timer)) = true) := by
  decide +kernel

/-- Operands of 16 FP32 rows of one element at bytes 0 and 1024. -/
def opA : MatOperand := { base := 0, rowBytes := 4, fmt := 0 }
def opB : MatOperand := { base := 1024, rowBytes := 4, fmt := 0 }

theorem wit_tile_slots :
    let s := tileS [runC]
    let T := s.tile 34
    s.takeTile 3 (34 : Fin 272).val = (s, true) ∧ s.tileWaits 3 34 = false ∧ (T.set true).slots.length = 2 ∧ (T.set true).state ≠ .draining ∧
    shapeOk 16 16 = true ∧ slotOk .fp32 1 = true ∧ shapeOk 16 17 = false ∧ slotOk .fp64 1 = false ∧
    1046528 + 64 * 64 * accBytes .fp64 ≤ scratchBytes ∧ scratchBytes < 2096129 + 16 * 16 * accBytes .fp32 ∧
    pairAcc opA opB = .fp32 ∧ operandOk opA 16 1 = true ∧ operandOk opB 16 32 = true ∧ operandOk opA 16 0 = true ∧ operandOk opB 16 0 = true ∧ ([some 0, none] : List (Option Nat)).length = 2 := by
  decide +kernel

/-- 1.0 × 2.0 in row 0 and column 0 of one group (R254, R255). -/
theorem test_matrix_group :
    (match exec (.matrixGroup 3 34 false 0 16 16 1 true none opA opB)
        { tileS [runC] with tiles := [(34, { running := some 3, scratch := cellsAt 0 (natBytes 4 0x3F800000) ++ cellsAt 1024 (natBytes 4 0x40000000) })] } with
     | .next t => decide (lget 0 ((((t.tile 34).set false).slot 0).values) 0 = 0x40000000 ∧ (((t.tile 34).set false).slot 0).groups = 1)
     | _ => false) = true := by decide +kernel

theorem wit_drains :
    let T := (tileS [runC]).tile 34
    drainOk (drainWord 0) (T.x.slot 0).shaped = true ∧ drainOk (drainWord 0xA) (T.x.slot 0).shaped = false ∧ T.x.state ≠ .draining ∧ T.y.state ≠ .draining ∧
    ({ T with x := { T.x with state := .draining, keep := true } } : Tile).x.state = .draining := by decide +kernel

/-- 1.0 + 2.0 in lane 0 (R252). -/
theorem test_vector_add :
    (match vectorOp (.arith .add .fp32 2 0 1) (fun _ => 0) { vregs := [(0, 0x3F800000 :: List.replicate 31 0), (1, 0x40000000 :: List.replicate 31 0)] } with
     | .done x _ _ => decide (lget 0 (x.vreg 2) 0 = 0x40400000) | _ => false) = true := by decide +kernel

/-! ### Witnesses: units, power and temperature -/

theorem wit_units : (base.unit 34).state = .active ∧ (base.unit 50).state = .spare ∧
    ((base.modTest 34 (fun u => { u with state := .failed })).unit 34).state = .failed ∧
    ((List.range 17).map (fun i => 17 * (34 / 17) + i)).find? (fun t => decide ((base.unit t).state = .spare)) = some 50 ∧
    (base.segmentOn 0 0 = none ∧ scanS.segmentOn 0 0 ≠ none) ∧ (base.unit (488 + 15)).state ≠ .failed ∧
    (base.mayStall 34 = false ∧ (tileS [runC]).mayStall 34 = true) := by decide +kernel

/-- A failed tile's place goes to its cluster's spare (R457, R368). -/
theorem test_tile_fault : (match exec (.tileUnitFault 34) base with
    | .next t => decide ((t.unit 34).state = .failed ∧ (t.unit 50).state = .active ∧ (t.part 2).place = [(50, 0), (35, 1)])
    | _ => false) = true := by decide +kernel

theorem wit_tests : flag base.tst.ctl 31 = true ∧ base.atRest 34 = true ∧ (tileS [runC]).atRest 34 = false ∧ passSlices 271 = 128 ∧
    passSlices 272 = 64 ∧ passSlices 487 = 64 ∧ passSlices 488 = 32 ∧ base.testAge 34 = 0 ∧
    fld base.tst.ctl 0 16 < ({ base with hif := { base.hif with timer := 601 * 10 ^ 9 } } : State).testAge 34 ∧
    (fld (0x3D9101F7 : Word32) 16 16 = 0x3D91 ∧ fld (0x3D9101F7 : Word32) 0 9 < 504 ∧ 504 ≤ fld (0x3D9101F8 : Word32) 0 9) ∧
    ((base.modTest 503 (fun u => { u with record := true })).unit 503).record = true := by decide +kernel

theorem wit_rows : (tileS [runC]).tileCmd (34 : Fin 272).val = some runC ∧ base.tileCmd 34 = none ∧
    ((tileS [runC]).part 2).clusters.find? (fun u => decide (((tileS [runC]).unit (488 + u)).state ≠ .failed)) = some 2 ∧
    flag (0x80000000 : Word32) 31 = true ∧ base.eventAt 1 = none ∧ ((base.event 0x0070 3 0 0 0 0).eventAt 1).isSome = true := by decide +kernel

/-- Two of three scores, NaN left out (R203, R204). -/
theorem test_merge_row : (mergeRowBest false true 2 [(0x3F800000, 5), (0x7FC00000, 6), (0x40000000, 7)]).map (fun e => (e.index, e.id)) =
    [(0xFF000002, 7), (0xFF000000, 5)] := by decide +kernel

theorem wit_rails : base.pwr.rails.length = 45 ∧ base.module.rails = true ∧ off.module.rails = false ∧
    railLimit 15 < (601 : BitVec 16).toNat ∧ 10 * (539 : BitVec 16).toNat < 9 * railLimit 0 ∧ 9 * railLimit 0 ≤ 10 * (540 : BitVec 16).toNat ∧
    pwrCapEn base.pwr.ctl = true ∧ pwrCapEn 0 = false := by decide +kernel

/-- 110.0 °C on a hub die trips; 109.75 °C does not (Table 14.5). -/
theorem wit_thermal : base.module.flushing = false ∧ tripTemp (List.replicate 16 439) (List.replicate 12 0) (List.replicate 12 459) = none ∧
    tripTemp (List.replicate 16 440) [] [] = some 440 ∧ tripTemp [] [] [460] = some 460 := by decide +kernel

theorem wit_alerts : ({ base.pwr with alert := true } : Pwr).alert = true ∧ base.pwr.alert = false ∧ rampHold base.pwr.ramp = false ∧
    (base.tile 34).running = none ∧ base.pwr.parkQ = [] ∧ base.pwr.parked = [] ∧
    (base.tile 34).workSince + 1000 * rampIdle base.pwr.ramp ≤ base.hif.timer ∧ pwrThrEvt base.pwr.ctl = false := by decide +kernel

theorem wit_standby_clock : base.module.standby = true ∧ ({ base.mgt with prSec := 60 } : Mgt).prStored + 60 ≤ 60 ∧ base.mgt.prSec % 3600 = 0 ∧
    59 < base.mgt.prStored + 60 ∧ base.sec.tokenSec + 8 ≤ ({ base.mgt with prSec := 8 } : Mgt).prSec ∧ base.primrose = true ∧
    ({ base.sec with aakBusy := true } : Sec).aakBusy = true ∧ base.sec.aakBusy = false := by decide +kernel

/-! ### Witnesses: security, management and transfers -/

/-- A transport's SPDM progress, and two sessions on DOE. -/
def connS (n : Nat) : State := { base with sec := { base.sec with conns := [n, n, n], sessions := [{ id := 1, transport := 0, up := false }, { id := 2, transport := 0, up := true }] } }

theorem wit_spdm : [0, 1].map base.reaches = [true, true] ∧ base.reaches 2 = false ∧ (connS 3).conn 0 = 3 ∧ (connS 2).conn 0 < 3 ∧ (connS 1).conn 0 < 2 ∧
    (connS 0).conn 0 < 1 ∧ (connS 3).session? 0 1 false = true ∧ (connS 3).session? 0 2 true = true ∧ (connS 3).session? 0 3 true = false ∧
    (8 : BitVec 8).toNat ≤ 8 ∧ (9 : BitVec 8).toNat ≠ 0xFF := by decide +kernel

theorem wit_signatures : base.sec.exhausted = false ∧ ({ base.sec with dikNext := 65536, aakNext := 1024 } : Sec).exhausted = true ∧
    0 < base.sec.tokens ∧ ({ base.sec with tokens := 0 } : Sec).tokens = 0 ∧ (connS 3).sec.sessions.length < 4 ∧
    ({ base.sec with delayed := [(1, .challenge)] } : Sec).delayed.find? (fun d => d.1 == 1) = some (1, .challenge) := by decide +kernel

/-- Firmware staging in progress for component 0. -/
def fwS : State := { base with sec := base.sec.stage 1 false 4096 }

theorem wit_firmware : base.sec.fwuState ≠ 1 ∧ fwS.sec.fwuState = 1 ∧ base.sec.comps.length = 4 ∧ bitsOf (1 : BitVec 4).toNat 0 1 = 1 ∧
    fwS.hostOk fwS.sec.fwuBase fwS.sec.fwuTotal = true ∧ base.sec.comps.any Comp.staged = false ∧
    ({ fwS with hostBad := [(0, 1)] } : State).hostOk fwS.sec.fwuBase fwS.sec.fwuTotal = false ∧
    (lget {} ({ base.sec with comps := [{ staged := true }] } : Sec).comps 0).staged = true := by decide +kernel

/-- A valid image stages its component; one below the minimum SVN does not (Table 17.8, R480). -/
theorem test_fwu_staging : [true, false].map (fun sound =>
    match exec (.fwuStagingDone false [{ comp := 0, sound := sound, svn := 1, commit := false, root := 0, digest := 7 }]) fwS with
    | .next t => ((lget {} t.sec.comps 0).staged, t.sec.fwuState, t.sec.fwuErr) | _ => (false, 0, 0)) = [(true, 2, 0), (false, 3, 3)] := by decide +kernel

theorem wit_sideband : base.reaches (1 + bit false) = true ∧ base.reaches (1 + bit true) = false ∧
    ({ base with module := { base.module with i3cAddr := some 8 } } : State).reaches 2 = true ∧ (1 : BitVec 8).toNat ≠ 0 ∧ (0xFE : BitVec 8).toNat ≠ 0xFF := by
  decide +kernel

/-- Stream i secure; stream 2 in skid mode. -/
def ideS (i : Nat) : State := { connS 3 with sec := { (connS 3).sec with ide := setFld (setFld 0 (2 + 2 * i) 2 1) 8 2 2 } }

theorem wit_ide : [0, 1, 2].all (fun i => ideState (ideS i).sec.ide i == 1) = true ∧ fld (ideS 2).sec.ide 8 2 = 2 ∧ base.module.rails = true ∧
    ideState base.sec.ide 0 ≠ 1 ∧ (connS 3).reaches 0 = true ∧ (connS 3).session? 0 2 true = true ∧
    ({ base.sec with ideHold := true } : Sec).ideHold = true := by decide +kernel

/-- Collection snapshot 0 selected, collection 0 serving with HOST_SEQ 9. -/
def xferS (x : Xfer) : State :=
  { saved (jobS opFence [] none { collZ .ready 0 with hseq := 9 }) with jrn := { (saved base).jrn with xfer := x } }

theorem wit_transfers : base.hif.inReset = none ∧ [0x90000000, 0xA0000000, 0xB0000000].map (fun v : Word32 => (flag v 31, fld v 28 2)) = [(true, 1), (true, 2), (true, 3)] ∧
    ({ state := 1 } : Xfer).state = 1 ∧ ((xferS {}).jrn.snaps.find? (fun a => a.1 == (xferS {}).jrn.snapSel)) = some (0, snapZ) ∧ snapZ.session = false ∧
    ((xferS {}).coll 0).state = .ready ∧ (tget {} (xferS {}).jrn.images 0 : Image).markHseq ≤ ({} : Xfer).start.toNat ∧
    ({} : Xfer).start.toNat < ((xferS {}).coll 0).hseq ∧ ((xferS {}).coll 0).hseq < 10 ∧ ((xferS {}).coll 1).state = .free := by decide +kernel

/-- An export of 5 bytes with halves of 4, and an import whose header names 1,024 bytes in halves of 512. -/
def expX : Xfer := { state := 1, op := 1, image := natBytes 5 7, total := 2, half := 4, base := 0x40000 }
def impX : Xfer := { state := 1, op := 2, host := 1, half := 512, base := 0x40000 }
def impS : State := { xferS impX with hostMem := cellsAt 0x40000 (natBytes 16 (0x53575831 + 2 ^ 32 + 1024 * 2 ^ 64)) }

theorem wit_chunks :
    (let s := xferS { expX with dev := 1 }
     s.jrn.lp = 0 ∧ s.jrn.xfer.dev < s.jrn.xfer.host + 2 ∧ s.jrn.xfer.last ≤ s.jrn.h ∧ s.hostOk 0x40004 1 = true ∧ 1 + 1 = s.jrn.xfer.total ∧ s.sec.ideHold = false) ∧
    ¬ ({ expX with dev := 2 } : Xfer).dev < ({ expX with dev := 2 } : Xfer).host + 2 ∧ ({ xferS expX with hostBad := [(0x40000, 4)] } : State).hostOk 0x40000 4 = false ∧
    (let s := impS
     s.jrn.xfer.dev = 0 ∧ 0 < s.jrn.xfer.host ∧ s.hostOk 0x40000 256 = true ∧ getLE (s.hostRead 0x40000 256) 0 4 = 0x53575831 ∧
     getLE (s.hostRead 0x40000 256) 4 1 = 1 ∧ getLE (s.hostRead 0x40000 256) 6 2 < 1024 ∧ 320 ≤ getLE (s.hostRead 0x40000 256) 8 8 ∧
     s.jrn.xfer.half < getLE (s.hostRead 0x40000 256) 8 8 ∧ s.hostOk 0x40000 512 = true) ∧
    getLE ((xferS impX).hostRead 0x40000 256) 0 4 ≠ 0x53575831 ∧ ({ impX with host := 0 } : Xfer).host ≤ impX.dev := by decide +kernel

/-! ### The spec's worked examples -/

/-- Table 8.17: the FP64 value 0.1 in every narrower format. -/
theorem test_table_8_17 : [Fmt.fp32, .bf16, .fp16, .e4m3, .e5m2].map (fun f => convert .fp64 f 0x3FB999999999999A) =
    [0x3DCCCCCD, 0x3DCD, 0x2E66, 0x1D, 0x2E] := by decide +kernel

/-- Ties and limits of FP8: 17, 19, 500 and +∞ in E4M3, 60,000 and 62,000 in E5M2. -/
theorem test_fp8_limits : [17, 19, 500].map (fun n => cvt .e4m3 (.fin false n 0)) =
      [{ bits := 0x58 }, { bits := 0x5A }, { bits := 0x7E, sat := 1 }] ∧ enc .e4m3 (.inf false) = 0x7F ∧
    [60000, 62000].map (fun n => enc .e5m2 (.fin false n 0)) = [0x7B, 0x7C] := by decide +kernel

/-- Table 8.18: quotients of the SQ row, and their SQ8 and SQ4 codes; a tie in Q4B goes to the even index. -/
theorem test_table_8_18 : [(0xBFE00000, -2), (0x3FB33333, 1), (0x3F000000, 0), (0x405FFFFF, 3)].all (fun (x : Nat × Int) =>
      decide ((toInt (-127) 127 (decode .fp32 x.1)).val = x.2)) = true ∧
    [0x405FFFFF, 0xBFE00000, 0x3FB33333, 0x3F000000].map (fun x => q4bIndex (decode .fp32 x)) = [15, 0, 15, 13] ∧
    q4bIndex (.fin false 347 (-12)) = 8 := by decide +kernel

/-- Two-level scales with A_T = 1,792: S = 2⁻⁶, block scales 0x78, 0x3C and 0xC0, and their elements (R241). -/
theorem test_two_level : tensorScale .e4m3 [0x44E00000] = 0x3C800000 ∧
    [0x40600000, 0x3CA3D70A, 0x44E00000].map (fun x => blockScale .e4m3 0x3C800000 [x]) = [0x78, 0x3C, 0xC0] ∧
    [(0x78, 0x40600000), (0x78, 0x3DCCCCCD), (0x3C, 0x3CA3D70A), (0xC0, 0x44E00000)].map
      (fun (x : Nat × Nat) => (scaledElem .e4m3 (fmul .fp32 0x3C800000 (bs8F32 x.1)) x.2).bits) = [0x7E, 0x55, 0x7E, 0x7E] := by decide +kernel

/-- SE16: 100.0, 3.0, −0.7 and 0.05 take E = 127 and the mantissas 100, 3, −1 and 0 (R243). -/
theorem test_se16 : (let b := seEncode ([0x42C80000, 0x40400000, 0xBF333333, 0x3D4CCCCD] ++ List.replicate 12 0)
    (b.exp, b.mants.take 4)) = (127, [100, 3, -1, 0]) := by decide +kernel

/-- Table 8.19. -/
theorem test_requant : [37, -120, 1000].map (fun a => requant a 805306368 32 10 (-128) 127) =
    [{ val := 17, sat := 0 }, { val := -13, sat := 0 }, { val := 127, sat := 1 }] := by decide +kernel

/-- Table 9.8: the sums 2²⁴, 1, 1, 1, 1, unsplit and split at groups 4 and 3 (R255, R259, R260). -/
theorem test_split_reduction :
    let one := 0x3F800000
    let r := fun gs => (reduceGroups .fp32 gs).getD 0
    r [0x4B800000, one, one, one, one] = 0x4B800002 ∧
    combineTree .fp32 1 [some (r [0x4B800000, one, one, one]), some one] = some 0x4B800002 ∧
    combineTree .fp32 1 [some (r [0x4B800000, one, one]), some (r [one, one])] = some 0x4B800001 := by decide +kernel

/-- The cancellation example: each group is exact and rounds once, and the two cancel to +0 (R254, R256). -/
theorem test_cancellation :
    let g0 := groupSum .fp32 [.fin false (2 ^ 25) 0, .fin false 1 0, .fin false 3 (-2)]
    let g1 := groupSum .fp32 [.fin true (2 ^ 25) 0, .fin false 1 (-1)]
    (g0, g1, (reduceGroups .fp32 [g0, g1]).getD 1) = (0x4C000000, 0xCC000000, 0) ∧
    groupSum .fp32 [.fin false (2 ^ 25) 0, .fin true (2 ^ 25) 0, .fin false 1 0, .fin false 3 (-2), .fin false 1 (-1)] = 0x40100000 := by decide +kernel

/-- σ of a table whose largest entry is 5.3 is 2⁻¹², and the slot of Table 6.21 scores 27,656.78125 before σ (R178, R181). -/
theorem test_slot_score : scaleExp [0x40A9999A] = -12 ∧
    (let es := [0x3F3B22D1, 0xBE4CCCCD, 0x3F933333, 0x3D4CCCCD, 0xBF19999A, 0x3EA8F5C3, 0x40A9999A, 0xBC23D70A].map (fun v =>
      match decode .fp32 v with | .fin n m x => convert .fp16 .fp32 (enc .fp16 (.fin n m (x + 12))) | _ => 0)
     eqV (decode .fp32 (accumulate (groupsOf4 es))) (.fin false 885017 (-5)) = true) := by decide +kernel

/-- Table 6.20's filter passes 0x0000_0007_0000_1B2E and drops 0x0000_1B2E_0000_0000. -/
theorem test_filter_3 :
    let p := natBytes 48 (0x0101 + 2 ^ 128 + (1 * 2 ^ 8 + 0x20 * 2 ^ 24) * 2 ^ 256)
    filterOk 8 p = true ∧ [0x0000000700001B2E, 0x00001B2E00000000].map (fun a => evalFilter p a 0x1B2E) = [true, false] := by decide +kernel

/-- The candidates of Table 7.3. -/
def cand (id score version : Nat) (fresh : Bool) (list stack : Nat) : Cand :=
  { score := score, id := id, fresh := fresh, version := version, list := list, slot := id, stack := stack }
def table73 : List (List Cand) :=
  [[cand 0x41 0x3F400000 9 false 100 2, cand 0x17 0x3F400000 9 false 100 2, cand 0x41 0x3F500000 8 false 311 2, cand 0x09 0x80000000 8 false 311 2,
    cand 0x05 0 0 true freshList 2], [cand 0x17 0x3F600000 9 false 412 5, cand 0x33 0x7F800000 9 false 412 5]]

/-- Table 7.4's keys, and the result orders with DEDUP on (Table 7.5) and off (R206, R209, R212). -/
theorem test_ties_and_copies :
    [0x7F800000, 0x3F600000, 0x3F500000, 0x3F400000, 0x80000000, 0].map (orderKey true 32) =
      [0x007FFFFF, 0x409FFFFF, 0x40AFFFFF, 0x40BFFFFF, 0x7FFFFFFF, 0x7FFFFFFF] ∧
    [true, false].map (fun b => (bestOf true 32 b 6 ((table73.map (bestOf true 32 b 6)).flatten)).map Cand.id) =
      [[0x33, 0x17, 0x41, 0x05, 0x09], [0x33, 0x17, 0x41, 0x17, 0x41, 0x05]] := by decide +kernel

/-- The ring example: 15, 13 and 3 free CQ slots (R78). -/
theorem test_free_cq_slots :
    let r : Ring := { cfg := 0x404 }
    [r.freeSlots, { r with cqTail := 12, cqHead := 10 }.freeSlots, { r with cqTail := 12 }.freeSlots] = [15, 13, 3] := by decide +kernel

/-- Table 4.12: columns, fresh segment and home structures of the reference collection (R143). -/
theorem test_reference_space :
    let c : CollCfg := { metric := 0, codeType := 0, dim := 256, pqM := 32, attrBytes := 4, resFmt := 6, listCount := 65536, freshCap := 16777216,
                         maxEntries := 16 * 10 ^ 9, srcFmt := 1 }
    spaceRows c (16 * 10 ^ 9) = (512 * 10 ^ 9 + 64 * 10 ^ 9 + 2 * 10 ^ 9 + 740294656, 67108864 + 262144 + 4194304, (spaceRows c (16 * 10 ^ 9)).2.2) := by
  decide +kernel

/-- Table 18.3, R496 and R501: PWR_GOOD high with the rails up, THERMTRIP_N low while a trip holds the latch, address 0x58 + ADDR. -/
theorem test_sideband_outputs : base.pwrGood = some true ∧
    ({ base with module := { base.module with latch := .thermal } } : State).thermTripN = some false ∧
    ({ base with module := { base.module with straps := 5 } } : State).smbusAddr = some 0x5D ∧
    ({ base with module := { base.module with standby := false } } : State).pwrGood = none := by decide +kernel

/-- R481, R483: a staged bank that is fallen back to awaits no activation; PRIMROSE boots at COLD or WARM only where it switches. -/
theorem test_fallback_unstages :
    ((Comp.boot 0 { a := { sound := false }, b := { sound := true }, staged := true }).fallback = true ∧
      (Comp.boot 0 { a := { sound := false }, b := { sound := true }, staged := true }).staged = false) ∧
    (Comp.bootDeep 0 true { a := { sound := false }, b := { sound := true } }).fallback = false ∧
    (Comp.bootDeep 0 false { a := { sound := false }, b := { sound := true } }).fallback = true := by decide +kernel

end Sys2Proof.Tests
end

section
/-!
SUPPORT. What a reset level leaves of each block (Table 2.18), one lemma per field, and the statement of R11, R62, R68 and R69 about it.
-/

namespace Sys2Proof.Machine

/-! ### The blocks after a level -/

@[simp] theorem Hif.afterReset_inReset (h : Hif) (lv : ResetLevel) (memClr : Bool) :
    (h.afterReset lv memClr).inReset = some lv := rfl
@[simp] theorem Hif.afterReset_ready (h : Hif) (lv : ResetLevel) (memClr : Bool) : (h.afterReset lv memClr).ready = false := rfl
@[simp] theorem Hif.afterReset_lastReset (h : Hif) (lv : ResetLevel) (memClr : Bool) :
    (h.afterReset lv memClr).lastReset = levelRank lv := rfl
@[simp] theorem Hif.afterReset_errStatus (h : Hif) (lv : ResetLevel) (memClr : Bool) :
    (h.afterReset lv memClr).errStatus = 0 := rfl
@[simp] theorem Hif.afterReset_control (h : Hif) (lv : ResetLevel) (memClr : Bool) : (h.afterReset lv memClr).control = 2 := rfl
@[simp] theorem Hif.afterReset_timer (h : Hif) (lv : ResetLevel) (memClr : Bool) :
    (h.afterReset lv memClr).timer = if lv = .cold then 0 else h.timer := rfl

@[simp] theorem Mgt.afterReset_events (m : Mgt) : m.afterReset.events = m.events := rfl
@[simp] theorem Mgt.afterReset_life (m : Mgt) : m.afterReset.life = m.life := rfl
@[simp] theorem Mgt.afterReset_prSec (m : Mgt) : m.afterReset.prSec = m.prSec := rfl

@[simp] theorem Mem.afterReset_wcb (m : Mem) (lv : ResetLevel) (clear : Bool) : (m.afterReset lv clear).wcb = [] := rfl
@[simp] theorem Mem.afterReset_dev (m : Mem) (lv : ResetLevel) (clear : Bool) :
    (m.afterReset lv clear).dev = if clear then [] else m.dev := rfl

@[simp] theorem Jrn.afterReset_locks (j : Jrn) : j.afterReset.locks = [] := rfl
@[simp] theorem Jrn.afterReset_frames (j : Jrn) : j.afterReset.frames = j.frames := rfl
@[simp] theorem Jrn.afterReset_h (j : Jrn) : j.afterReset.h = j.h := rfl
@[simp] theorem Jrn.afterReset_snaps (j : Jrn) : j.afterReset.snaps = j.snaps := rfl
@[simp] theorem Jrn.afterReset_images (j : Jrn) : j.afterReset.images = j.images := rfl

/-! ### Frames that persist (R277, R282) -/

/-- A running maximum is at least what it starts from. -/
theorem le_foldl_max (l : List Nat) (b : Nat) : b ≤ l.foldl max b := by
  induction l generalizing b with
  | nil => exact Nat.le_refl b
  | cons y l ih => exact Nat.le_trans (Nat.le_max_left b y) (ih (max b y))

/-- A running maximum is at least every element it has met. -/
theorem le_foldl_max_of_mem {l : List Nat} {x : Nat} (b : Nat) (hx : x ∈ l) : x ≤ l.foldl max b := by
  induction l generalizing b with
  | nil => exact absurd hx List.not_mem_nil
  | cons y l ih =>
    rcases List.mem_cons.mp hx with rfl | hl
    · exact Nat.le_trans (Nat.le_max_right b x) (le_foldl_max l (max b x))
    · exact ih (max b y) hl

/-- Every element of a list is at most its largest. -/
theorem le_maxL_of_mem {l : List Nat} {x : Nat} (hx : x ∈ l) : x ≤ maxL l := le_foldl_max_of_mem 0 hx

@[simp] theorem Jrn.persistAll_snaps (j : Jrn) : j.persistAll.snaps = j.snaps := rfl
@[simp] theorem Jrn.persistAll_images (j : Jrn) : j.persistAll.images = j.images := rfl

theorem Jrn.persistAll_frames (j : Jrn) :
    j.persistAll.frames = j.frames.map (fun f => { f with place := .nand, persisted := true }) := rfl

theorem Jrn.persisted_of_mem_persistAll {j : Jrn} {f : Frame} (hf : f ∈ j.persistAll.frames) :
    f.persisted = true ∧ f.place = .nand := by
  rw [Jrn.persistAll_frames] at hf
  obtain ⟨g, _, rfl⟩ := List.mem_map.mp hf
  exact ⟨rfl, rfl⟩

@[simp] theorem Jrn.persistAll_frames_bytes (j : Jrn) : j.persistAll.frames.map Frame.bytes = j.frames.map Frame.bytes := by
  rw [Jrn.persistAll_frames, List.map_map]
  rfl

/-- H reaches the last sequence number of every frame that persists. -/
theorem Jrn.last_le_persistAll_h {j : Jrn} {f : Frame} (hf : f ∈ j.frames) : f.first + f.count - 1 ≤ j.persistAll.h := by
  apply le_maxL_of_mem
  rw [List.map_map]
  exact List.mem_cons_of_mem _ (List.mem_map_of_mem (f := fun f : Frame => f.first + f.count - 1) hf)

/-! ### The state after a level -/

@[simp] theorem State.applyReset_hif (s : State) (lv : ResetLevel) (memClr loss : Bool) :
    (s.applyReset lv memClr loss).hif = { s.hif.afterReset lv memClr with timerGap := !s.module.refclk } := rfl
@[simp] theorem State.applyReset_qm (s : State) (lv : ResetLevel) (memClr loss : Bool) :
    (s.applyReset lv memClr loss).qm = {} := rfl
@[simp] theorem State.applyReset_sch (s : State) (lv : ResetLevel) (memClr loss : Bool) :
    (s.applyReset lv memClr loss).sch = {} := rfl
@[simp] theorem State.applyReset_tiles (s : State) (lv : ResetLevel) (memClr loss : Bool) :
    (s.applyReset lv memClr loss).tiles = [] := rfl
@[simp] theorem State.applyReset_models (s : State) (lv : ResetLevel) (memClr loss : Bool) :
    (s.applyReset lv memClr loss).models = {} := rfl
@[simp] theorem State.applyReset_fmt (s : State) (lv : ResetLevel) (memClr loss : Bool) :
    (s.applyReset lv memClr loss).fmt = {} := rfl
@[simp] theorem State.applyReset_hostMem (s : State) (lv : ResetLevel) (memClr loss : Bool) :
    (s.applyReset lv memClr loss).hostMem = s.hostMem := rfl
@[simp] theorem State.applyReset_module (s : State) (lv : ResetLevel) (memClr loss : Bool) :
    (s.applyReset lv memClr loss).module = s.module := rfl
@[simp] theorem State.applyReset_mgt (s : State) (lv : ResetLevel) (memClr loss : Bool) :
    (s.applyReset lv memClr loss).mgt = s.mgt.afterReset := rfl
@[simp] theorem State.applyReset_alert (s : State) (lv : ResetLevel) (memClr loss : Bool) :
    (s.applyReset lv memClr loss).pwr.alert = s.pwr.alert := rfl
@[simp] theorem State.applyReset_alertFrac (s : State) (lv : ResetLevel) (memClr loss : Bool) :
    (s.applyReset lv memClr loss).pwr.alertFrac = s.pwr.alertFrac := rfl
@[simp] theorem State.applyReset_mem (s : State) (lv : ResetLevel) (memClr loss : Bool) :
    (s.applyReset lv memClr loss).mem = s.mem.afterReset lv (decide (lv = .cold) || (decide (lv = .cxl) && memClr)) := rfl
/-- The journal but for its list of collections to recover; without a loss of power every frame persists first. -/
theorem State.applyReset_jrn (s : State) (lv : ResetLevel) (memClr : Bool) :
    ∃ recov, (s.applyReset lv memClr false).jrn = { s.jrn.persistAll.afterReset with recov := recov } := ⟨_, rfl⟩

/-- R401, R68: memory contents go at COLD and at a CXL_RESET that asks for it. -/
theorem State.applyReset_dev (s : State) (lv : ResetLevel) (memClr loss : Bool) :
    (s.applyReset lv memClr loss).mem.dev = if lv = .cold ∨ (lv = .cxl ∧ memClr = true) then [] else s.mem.dev := by
  simp

/-- Settles O12: each block is its form after the level, and the journal persists every frame before it is reset. -/
theorem resetLevelLeavesTheDevice : Obligations.ResetLevelLeavesTheDevice := by
  unfold Obligations.ResetLevelLeavesTheDevice
  intro s lv memClr t
  obtain ⟨recov, hj⟩ := s.applyReset_jrn lv memClr
  have hPersisted : ∀ f ∈ t.jrn.frames, f.persisted = true ∧ f.place = .nand := by
    intro f hf
    rw [hj] at hf
    exact Jrn.persisted_of_mem_persistAll hf
  have hBytes : t.jrn.frames.map Frame.bytes = s.jrn.frames.map Frame.bytes := by simp [t, hj]
  have hLast : ∀ f ∈ s.jrn.frames, f.first + f.count - 1 ≤ t.jrn.h := by
    intro f hf
    rw [hj]
    exact Jrn.last_le_persistAll_h hf
  have hDev : t.mem.dev = if lv = .cold ∨ (lv = .cxl ∧ memClr = true) then [] else s.mem.dev := s.applyReset_dev lv memClr false
  have hFrames := And.intro hPersisted hLast
  rw [hDev, hBytes]
  simpa [t, hj] using hFrames

end Sys2Proof.Machine
end

section
/-!
SUPPORT. The canonical form of a memory lists no empty byte, and what a write leaves (log entry 5).
-/

namespace Sys2Proof.Machine

/-- A canonical memory lists no byte that an unlisted address reads as. -/
theorem ne_empty_of_wfFrom {lo : Nat} {m : List Host.Cell} {c : Host.Cell} (w : memWfFrom lo m = true) (hc : c ∈ m) :
    c.2 ≠ emptyByte := by
  induction m generalizing lo with
  | nil => exact absurd hc List.not_mem_nil
  | cons d m ih =>
    simp only [memWfFrom, Bool.and_eq_true, decide_eq_true_eq] at w
    obtain ⟨⟨_, hne⟩, hrest⟩ := w
    rcases List.mem_cons.mp hc with rfl | hm
    · exact hne
    · exact ih hrest hm

/-- Settles O24: the four laws of a write to a canonical memory. -/
theorem memoryReadsWhatWasWritten : Obligations.MemoryReadsWhatWasWritten := by
  unfold Obligations.MemoryReadsWhatWasWritten
  intro m a bs w
  have hWf := memWrite_wf m a bs w
  exact ⟨memBytes_memWrite m a bs w, fun x hx => memGet_memWrite_out m a x bs w hx, hWf, fun c hc => ne_empty_of_wfFrom hWf hc⟩

end Sys2Proof.Machine
end

section
/-!
SUPPORT. The reset state within the bounds of Safety.lean (R11, R62).
-/

namespace Sys2Proof.Machine

@[simp] theorem State.reset_hostMem : State.reset.hostMem = [] := rfl
@[simp] theorem State.reset_dev : State.reset.mem.dev = [] := rfl
@[simp] theorem State.reset_timer : State.reset.hif.timer = 0 := rfl
@[simp] theorem State.reset_events : State.reset.mgt.events = [] := rfl
@[simp] theorem State.reset_tokens : State.reset.sec.tokens = 1024 := rfl
@[simp] theorem State.reset_rings : State.reset.qm.rings = [] := rfl
@[simp] theorem State.reset_locks : State.reset.jrn.locks = [] := rfl

/-- The empty memory is canonical. -/
@[simp] theorem Memory.wf_nil : Memory.wf [] = true := rfl

/-- Settles O3: after reset every list the bounds are about is empty, HIF_TIMER is 0 and the tokens are at their bound (R477). -/
theorem resetIsWithinBounds : Obligations.ResetIsWithinBounds := by
  unfold Obligations.ResetIsWithinBounds
  simp [boundsOf]

end Sys2Proof.Machine
end

section
/-!
SUPPORT. The command a step acts on, and what a request on bandwidth regulators and the journal's shared operations leave alone.
-/

namespace Sys2Proof.Machine

/-! ### The command of a step -/

theorem State.seq_of_cmd? {s : State} {n : Nat} {c : Cmd} (h : s.cmd? n = some c) : c.seq = n := by
  simpa using List.find?_some h

/-- A command that is ready is in flight and carries an opcode that was asked for. -/
theorem State.cmd?_of_ready? {s : State} {n : Nat} {p : Nat → Bool} {c : Cmd} (h : s.ready? n p = some c) :
    s.cmd? n = some c ∧ p (dOpcode c.desc) = true := by
  unfold State.ready? at h
  split at h
  next c' hc =>
    obtain ⟨hp, hcc⟩ := Option.ite_none_right_eq_some.mp h
    obtain rfl := Option.some.inj hcc
    exact ⟨hc, (Bool.and_eq_true_iff.mp hp).1⟩
  next => cases h

theorem State.seq_of_ready? {s : State} {n : Nat} {p : Nat → Bool} {c : Cmd} (h : s.ready? n p = some c) : c.seq = n :=
  State.seq_of_cmd? (State.cmd?_of_ready? h).1

/-- The opcode of a command that is ready where one opcode was asked for. -/
theorem State.opcode_of_ready? {s : State} {n op : Nat} {c : Cmd} (h : s.ready? n (· == op) = some c) : dOpcode c.desc = op := by
  simpa using (State.cmd?_of_ready? h).2

/-- A change that keeps fetch numbers is what the command of that number then shows. -/
theorem State.cmd?_modCmd_same (s : State) (n : Nat) (f : Cmd → Cmd) (hf : ∀ c, (f c).seq = c.seq) :
    (s.modCmd n f).cmd? n = (s.cmd? n).map f := by
  simp only [State.cmd?, State.modCmd, State.mapCmds]
  induction s.qm.cmds with
  | nil => rfl
  | cons c cs ih =>
    by_cases hc : c.seq = n
    · simp [hc, hf]
    · simp [hc, ih]

/-- Every command that carries the number of a change is what the change makes of one that carried it before. -/
theorem State.exists_of_mem_modCmd {s : State} {n : Nat} {f : Cmd → Cmd} {c : Cmd}
    (hc : c ∈ (s.modCmd n f).qm.cmds) (hn : c.seq = n) : ∃ c0 ∈ s.qm.cmds, c0.seq = n ∧ c = f c0 := by
  obtain ⟨c0, h0, rfl⟩ := List.mem_map.mp hc
  by_cases h : c0.seq = n
  · exact ⟨c0, h0, h, if_pos h⟩
  · rw [if_neg h] at hn
    exact absurd hn h

/-! ### Requests on bandwidth regulators (R352) -/

/-- What neither a change of a partition nor the times of a command's waits touch, a request leaves alone. -/
theorem State.bwRequest_keeps {β : Type} (g : State → β) (hp : ∀ s p f, g (State.modPart s p f) = g s)
    (hGo : ∀ s n i t, g (State.modCmd s n (bwGo i t)) = g s) (hWait : ∀ s n i t, g (State.modCmd s n (bwWait i t)) = g s)
    (s : State) (p : Nat) (ws rs : List (Nat × Nat)) : g (s.bwRequest p ws rs).2 = g s := by
  have hCharge : ∀ (s : State) (r : Nat × Nat), g (s.bwCharge p r.1 r.2) = g s := by
    intro s r
    unfold State.bwCharge
    split
    · rfl
    · exact hp _ _ _
  unfold State.bwRequest
  split
  · calc
      _ = g (rs.foldl (fun s r => s.bwCharge p r.1 r.2) s) := foldl_keeps g _ _ _ (fun _ _ => hGo _ _ _ _)
      _ = g s := foldl_keeps g _ _ _ hCharge
  · exact foldl_keeps g _ _ _ (fun _ _ => hWait _ _ _ _)

section
variable (s : State) (p : Nat) (ws rs : List (Nat × Nat))

@[simp] theorem State.bwRequest_colls : (s.bwRequest p ws rs).2.colls = s.colls :=
  State.bwRequest_keeps State.colls (fun _ _ _ => rfl) (fun _ _ _ _ => rfl) (fun _ _ _ _ => rfl) s p ws rs
@[simp] theorem State.bwRequest_jrn : (s.bwRequest p ws rs).2.jrn = s.jrn :=
  State.bwRequest_keeps State.jrn (fun _ _ _ => rfl) (fun _ _ _ _ => rfl) (fun _ _ _ _ => rfl) s p ws rs
@[simp] theorem State.bwRequest_mem : (s.bwRequest p ws rs).2.mem = s.mem :=
  State.bwRequest_keeps State.mem (fun _ _ _ => rfl) (fun _ _ _ _ => rfl) (fun _ _ _ _ => rfl) s p ws rs
@[simp] theorem State.bwRequest_hostMem : (s.bwRequest p ws rs).2.hostMem = s.hostMem :=
  State.bwRequest_keeps State.hostMem (fun _ _ _ => rfl) (fun _ _ _ _ => rfl) (fun _ _ _ _ => rfl) s p ws rs
@[simp] theorem State.bwRequest_coll (o : Nat) : (s.bwRequest p ws rs).2.coll o = s.coll o := by
  simp [State.coll]

end

/-! ### The journal's shared operations -/

/-- The collections after one entry of their table is set. -/
theorem State.coll_of_tset {s : State} {ks : List (Nat × Coll)} {o : Nat} {k : Coll} (h : s.colls = tset ks o k) (x : Nat) :
    s.coll x = if x = o then k else tget {} ks x := by
  rw [State.coll, h]
  split
  · next hx => rw [hx, tget_tset_same]
  · next hx => exact tget_tset_ne {} ks k hx

section
variable (s : State)

/-- Reclaiming space trims checkpoints and changes no collection else (R437). -/
theorem State.reclaim_coll (o : Nat) : ∃ cs, s.reclaim.coll o = { s.coll o with checks := cs } := by
  unfold State.reclaim
  split
  · exact ⟨(s.coll o).checks, rfl⟩
  · exact ⟨(s.coll o).checks.drop ((s.coll o).checks.length - 64),
      tget_tmap ({} : Coll) s.colls o (fun _ k => { k with checks := k.checks.drop (k.checks.length - 64) }) rfl⟩

/-- Reclaiming space drops frames and what RETAIN kept, and trims checkpoints: nothing else changes. -/
theorem State.reclaim_eq :
    s.reclaim = { s with jrn := { s.jrn with frames := s.reclaim.jrn.frames, kept := s.reclaim.jrn.kept }, colls := s.reclaim.colls } := by
  unfold State.reclaim
  split <;> rfl

@[simp] theorem State.reclaim_qm : s.reclaim.qm = s.qm := by rw [State.reclaim_eq]
@[simp] theorem State.reclaim_mem : s.reclaim.mem = s.mem := by rw [State.reclaim_eq]
@[simp] theorem State.reclaim_hostMem : s.reclaim.hostMem = s.hostMem := by rw [State.reclaim_eq]
@[simp] theorem State.reclaim_jrn_images : s.reclaim.jrn.images = s.jrn.images := by rw [State.reclaim_eq]
@[simp] theorem State.reclaim_jrn_next : s.reclaim.jrn.next = s.jrn.next := by rw [State.reclaim_eq]
@[simp] theorem State.reclaim_jrn_h : s.reclaim.jrn.h = s.jrn.h := by rw [State.reclaim_eq]
@[simp] theorem State.reclaim_jrn_locks : s.reclaim.jrn.locks = s.jrn.locks := by rw [State.reclaim_eq]

end

end Sys2Proof.Machine
end

section
/-!
SUPPORT. A frame at its apply point (R276, R277), and what one record does to the live entries of a collection (Table 10.2).
-/

namespace Sys2Proof.Machine

/-! ### What a frame's writes leave alone (R384, R201) -/

section
variable {β : Type} (g : State → β)

/-- What no change of the memory's state touches, a write that passes the write-combining buffer leaves alone. -/
theorem State.wcbWrite_keeps (hg : ∀ s m, g { s with mem := m } = g s) (s : State) (a n : Nat) : g (s.wcbWrite a n) = g s := by
  unfold State.wcbWrite
  split
  · rfl
  · exact foldl_keeps g _ _ _ (fun _ _ => hg _ _)

theorem State.wcbFresh_keeps (hg : ∀ s m, g { s with mem := m } = g s) (s : State) (d : CollData) (f : Fresh) :
    g (s.wcbFresh d f) = g s := by
  simp only [State.wcbFresh, State.wcbWrite_keeps g hg]

theorem State.wcbAttrs_keeps (hg : ∀ s m, g { s with mem := m } = g s) (s : State) (old d : CollData) :
    g (s.wcbAttrs old d) = g s := by
  have hw := State.wcbWrite_keeps g hg
  unfold State.wcbAttrs
  refine (foldl_keeps g _ _ _ (fun _ _ => hw _ _ _)).trans (foldl_keeps g _ _ _ (fun _ _ => foldl_keeps g _ _ _ (fun _ _ => ?_)))
  split
  · exact (hw _ _ _).trans (hw _ _ _)
  · exact hw _ _ _

/-- What neither an event nor a change of a collection touches, the count of drift leaves alone. -/
theorem State.driftAdd_keeps (hColl : ∀ s o f, g (State.modColl s o f) = g s)
    (hEvent : ∀ s code sev kind unit d0 d1, g (State.event s code sev kind unit d0 d1) = g s) (s : State) (o elems hits : Nat) :
    g (s.driftAdd o elems hits) = g s := by
  unfold State.driftAdd
  dsimp only
  split
  · rfl
  split
  · rw [hEvent, hColl, hColl]
  · exact hColl _ _ _

end

@[simp] theorem State.driftAdd_qm (s : State) (o elems hits : Nat) : (s.driftAdd o elems hits).qm = s.qm :=
  State.driftAdd_keeps State.qm (fun _ _ _ => rfl) State.event_qm s o elems hits

@[simp] theorem State.driftAdd_hostMem (s : State) (o elems hits : Nat) : (s.driftAdd o elems hits).hostMem = s.hostMem :=
  State.driftAdd_keeps State.hostMem (fun _ _ _ => rfl) State.event_hostMem s o elems hits

@[simp] theorem State.event_coll (s : State) (code sev kind unit d0 d1 o : Nat) :
    (s.event code sev kind unit d0 d1).coll o = s.coll o := by
  simp [State.coll]

/-- A change of one collection's drift changes the drift of collections alone. -/
theorem State.modColl_drift (s : State) (o : Nat) (f : Drift → Drift) (x : Nat) :
    ∃ v, (s.modColl o (fun c => { c with drift := f c.drift })).coll x = { s.coll x with drift := v } := by
  by_cases h : x = o
  · subst h
    exact ⟨_, State.coll_modColl_same s x _⟩
  · exact ⟨(s.coll x).drift, State.coll_modColl_ne s _ h⟩

theorem State.driftAdd_coll (s : State) (o elems hits x : Nat) :
    ∃ v, (s.driftAdd o elems hits).coll x = { s.coll x with drift := v } := by
  unfold State.driftAdd
  dsimp only
  split
  · exact ⟨(s.coll x).drift, rfl⟩
  obtain ⟨v, hv⟩ := s.modColl_drift o (fun d =>
    { d with elems := (s.coll o).drift.elems + elems, hits := (s.coll o).drift.hits + hits }) x
  split
  · rw [State.event_coll]
    obtain ⟨w, hw⟩ := State.modColl_drift (s.modColl o _) o (fun d => { d with flag := true, frozen := true }) x
    exact ⟨w, hw.trans (by rw [hv])⟩
  · exact ⟨v, hv⟩

/-! ### The apply point (R276, R277) -/

/-- A frame's records applied, before the descriptor that owns the frame completes. -/
def State.applyRecords (s : State) (f : Frame) : State :=
  let k := s.coll f.coll
  let r := k.applyFrame (s.heldFresh f.coll) f
  let s1 := { s with colls := tset s.colls f.coll r.1.freshToMem }
  let mark : Frame → Frame := fun x => { x with applied := x.count, chain := r.1.g }
  let s1 := { s1 with jrn := { s1.jrn with frames := onFirst (fun (x : Frame) => x.first == f.first) mark s1.jrn.frames } }
  let new := r.1.data.fresh.filter (fun x => !k.data.fresh.any (fun y => y.index == x.index))
  let s1 := new.foldl (fun s x => s.wcbFresh r.1.data x) (s1.wcbAttrs k.data r.1.data)
  ((s1.driftAdd f.coll r.2.elems r.2.hits).fmtCount r.2.sat r.2.nan).reclaim

theorem State.applyNow_of_unowned {s : State} {f : Frame} (h : (s.applyRecords f).owner f = none) :
    s.applyNow f = s.applyRecords f := by
  unfold State.applyRecords at h
  unfold State.applyNow
  dsimp only at h ⊢
  rw [h]
  rfl

theorem State.applyNow_of_owned {s : State} {f : Frame} {c : Cmd} (h : (s.applyRecords f).owner f = some c) :
    s.applyNow f = ((s.applyRecords f).unlock c.seq).complete c ((c.muta.bind MutWork.abort).getD
      (if ((s.coll f.coll).applyFrame (s.heldFresh f.coll) f).2.absent then stOkAbsent else stOk)) f.first f.count false false := by
  unfold State.applyRecords at h
  unfold State.applyNow
  dsimp only at h ⊢
  rw [h]
  rfl

/-- What the writes of a frame, its marks in the journal and its counts leave alone. -/
theorem State.applyRecords_keeps {β : Type} (g : State → β) (hMem : ∀ s m, g { s with mem := m } = g s)
    (hSet : ∀ s k j, g { s with colls := k, jrn := j } = g s)
    (hDrift : ∀ s o e h, g (State.driftAdd s o e h) = g s) (hFmt : ∀ s x, g { s with fmt := x } = g s)
    (hReclaim : ∀ s, g (State.reclaim s) = g s) (s : State) (f : Frame) : g (s.applyRecords f) = g s := by
  unfold State.applyRecords
  dsimp only
  rw [hReclaim]
  refine (hFmt _ _).trans ((hDrift _ _ _ _).trans ?_)
  rw [foldl_keeps g _ _ _ (fun _ _ => State.wcbFresh_keeps g hMem _ _ _), State.wcbAttrs_keeps g hMem]
  exact hSet s _ _

@[simp] theorem State.applyRecords_qm (s : State) (f : Frame) : (s.applyRecords f).qm = s.qm :=
  State.applyRecords_keeps State.qm (fun _ _ => rfl) (fun _ _ _ => rfl) State.driftAdd_qm (fun _ _ => rfl)
    State.reclaim_qm s f

@[simp] theorem State.applyRecords_hostMem (s : State) (f : Frame) : (s.applyRecords f).hostMem = s.hostMem :=
  State.applyRecords_keeps State.hostMem (fun _ _ => rfl) (fun _ _ _ => rfl) State.driftAdd_hostMem
    (fun _ _ => rfl) State.reclaim_hostMem s f

/-- The collection of the frame takes what its records make of it; of every collection, drift and checkpoints may change. -/
theorem State.applyRecords_coll (s : State) (f : Frame) (x : Nat) : ∃ v cs, (s.applyRecords f).coll x =
    { (if x = f.coll then ((s.coll f.coll).applyFrame (s.heldFresh f.coll) f).1.freshToMem else s.coll x) with
      drift := v, checks := cs } := by
  unfold State.applyRecords
  dsimp only
  obtain ⟨cs, hcs⟩ := State.reclaim_coll (State.fmtCount (State.driftAdd _ _ _ _) _ _) x
  obtain ⟨v, hv⟩ := State.driftAdd_coll _ _ _ _ x
  refine ⟨v, cs, hcs.trans ?_⟩
  have hKeep : ∀ (s : State) (m : Mem), State.coll { s with mem := m } x = s.coll x := fun _ _ => rfl
  rw [State.coll, State.fmtCount_colls, ← State.coll, hv,
    foldl_keeps (State.coll · x) _ _ _ (fun _ _ => State.wcbFresh_keeps (State.coll · x) hKeep _ _ _),
    State.wcbAttrs_keeps (State.coll · x) hKeep]
  rw [State.coll_of_tset rfl x]
  rfl

/-- The fresh indices that bound queries hold depend on descriptors and queries alone. -/
theorem State.heldFresh_modCmd (s : State) (n : Nat) (f : Cmd → Cmd) (o : Nat) (hDesc : ∀ c, (f c).desc = c.desc)
    (hQuery : ∀ c, (f c).query = c.query) : (s.modCmd n f).heldFresh o = s.heldFresh o := by
  simp only [State.heldFresh, State.modCmd, State.mapCmds, List.flatMap_map]
  congr 1
  funext c
  split
  · rw [hDesc, hQuery]
  · rfl

@[simp] theorem State.bwRequest_heldFresh (s : State) (p : Nat) (ws rs : List (Nat × Nat)) (o : Nat) :
    (s.bwRequest p ws rs).2.heldFresh o = s.heldFresh o :=
  State.bwRequest_keeps (State.heldFresh · o) (fun _ _ _ => rfl)
    (fun s n _ _ => s.heldFresh_modCmd n _ o (fun _ => rfl) (fun _ => rfl))
    (fun s n _ _ => s.heldFresh_modCmd n _ o (fun _ => rfl) (fun _ => rfl)) s p ws rs

/-- The next frame of a collection to be applied is one of its frames. -/
theorem State.coll_of_nextApply {s : State} {o : Nat} {f : Frame} (h : s.nextApply o = some f) : f.coll = o := by
  unfold State.nextApply at h
  split at h
  · cases h
  · next f' hf =>
    obtain ⟨_, hff⟩ := Option.ite_none_right_eq_some.mp h
    obtain rfl := Option.some.inj hff
    have hp := List.find?_some hf
    simp only [Bool.and_eq_true, beq_iff_eq] at hp
    exact hp.1

/-- RECORD_APPLY of a frame that may be applied: it waits for its regulator, or is applied. -/
theorem recordApply_of_nextApply {s : State} {o : Nat} {f : Frame} (hk : (s.coll o).state ≠ .free) (hf : s.nextApply o = some f) :
    recordApply o s = if (s.frameRequest f [(0, f.bytes.length)]).1 then (s.frameRequest f [(0, f.bytes.length)]).2.applyNow f
      else (s.frameRequest f [(0, f.bytes.length)]).2 := by
  simp only [recordApply, if_neg hk, hf]

/-! ### Live entries under a record (Table 10.2, R126, R274) -/

/-- A change of an ID's live entries changes them in place: lists and fresh entries stay where they are. -/
theorem CollData.entries_onId (d : CollData) (i : Nat) (f : Entry → Entry) :
    (d.onId i f).entries = d.entries.map (fun e => if !e.dead && e.id == i then f e else e) := by
  simp [CollData.entries, CollData.onId, List.flatMap_map, List.map_flatMap, Function.comp_def]

/-- With its live entries ended, an ID is not live, and every other ID is as it was. -/
theorem CollData.live_onId_kill (d : CollData) (i x : Nat) :
    (d.onId i (fun e => { e with dead := true })).live x = (!(x == i) && d.live x) := by
  rw [CollData.live, CollData.entries_onId, List.any_map, CollData.live]
  induction d.entries with
  | nil => simp
  | cons e es ih =>
    rw [List.any_cons, ih, List.any_cons]
    grind

/-- A change of the live entries of an ID that ends none leaves every ID as it was. -/
theorem CollData.live_onId_keep (d : CollData) (i x : Nat) (f : Entry → Entry) (hId : ∀ e, (f e).id = e.id)
    (hDead : ∀ e, (f e).dead = e.dead) : (d.onId i f).live x = d.live x := by
  rw [CollData.live, CollData.entries_onId, List.any_map, CollData.live]
  congr 1
  funext e
  simp only [Function.comp]
  split
  · rw [hId, hDead]
  · rfl

/-- No list keeps a live entry of an ID whose live entries have ended. -/
theorem CollData.dead_of_mem_onId_kill {d : CollData} {i : Nat} {l : IList} {e : Entry}
    (hl : l ∈ (d.onId i (fun e => { e with dead := true })).lists) (he : e ∈ l.slots) (hi : e.id = i) : e.dead = true := by
  obtain ⟨l0, _, rfl⟩ := List.mem_map.mp hl
  obtain ⟨e0, _, rfl⟩ := List.mem_map.mp he
  grind

section
variable (held : List Nat) (mean j : Nat) (a : Applied) (r : List Byte)

/-- DELETE of a live ID ends its live entries. -/
theorem applyRec_delete_of_live (h : a.data.live (recId r) = true) :
    (applyRec held mean opDelete j a r).data = a.data.onId (recId r) (fun e => { e with dead := true }) := by
  simp [applyRec, h]

/-- DELETE of an absent ID changes nothing and says so. -/
theorem applyRec_delete_of_absent (h : a.data.live (recId r) = false) :
    applyRec held mean opDelete j a r = { a with absent := true } := by
  simp [applyRec, h]

/-- ATTR_SET of a live ID changes its live entries and ends none. -/
theorem applyRec_attrSet_live (h : a.data.live (recId r) = true) (x : Nat) :
    (applyRec held mean opAttrSet j a r).data.live x = a.data.live x := by
  simp only [applyRec, h, if_true, if_neg (show opAttrSet ≠ opDelete by decide)]
  exact a.data.live_onId_keep _ x _ (fun _ => rfl) (fun _ => rfl)

/-- ATTR_SET of an absent ID changes nothing and says so. -/
theorem applyRec_attrSet_of_absent (h : a.data.live (recId r) = false) :
    applyRec held mean opAttrSet j a r = { a with absent := true } := by
  simp [applyRec, h, show opAttrSet ≠ opDelete by decide]

/-- INSERT and UPSERT end the ID's live entries and append one live fresh entry of it. -/
theorem applyRec_adds {op : Nat} (h : op = opInsert ∨ op = opUpsert) :
    ∃ z : Fresh, z.entry.id = recId r ∧ z.entry.dead = false ∧
      (applyRec held mean op j a r).data.lists = (a.data.onId (recId r) (fun e => { e with dead := true })).lists ∧
      (applyRec held mean op j a r).data.fresh = (a.data.onId (recId r) (fun e => { e with dead := true })).fresh ++ [z] := by
  have hDelete : op ≠ opDelete := by rcases h with rfl | rfl <;> decide
  have hAttr : op ≠ opAttrSet := by rcases h with rfl | rfl <;> decide
  simp only [applyRec, if_neg hDelete, if_neg hAttr]
  exact ⟨_, rfl, rfl, rfl, rfl⟩

/-- After INSERT or UPSERT its ID is live, and every other ID is as it was. -/
theorem applyRec_adds_live {op : Nat} (h : op = opInsert ∨ op = opUpsert) (x : Nat) :
    (applyRec held mean op j a r).data.live x = (x == recId r || a.data.live x) := by
  obtain ⟨z, hId, hDead, hLists, hFresh⟩ := applyRec_adds held mean j a r h
  have hAdd : (applyRec held mean op j a r).data.live x =
      ((a.data.onId (recId r) (fun e => { e with dead := true })).live x || recId r == x) := by
    simp [CollData.live, CollData.entries, hLists, hFresh, hId, hDead, Bool.or_assoc]
  rw [hAdd, CollData.live_onId_kill]
  grind

end

theorem exec_recordApply (coll : BitVec 10) (s : State) : exec (.recordApply coll) s = .next (recordApply coll.toNat s) := rfl

/-- Settles O35: the writes and counts of a frame leave its content, HOST_SEQ and chain alone, and each opcode changes the live
entries of its ID alone. -/
theorem recordsApplyTogether : Obligations.RecordsApplyTogether := by
  unfold Obligations.RecordsApplyTogether
  refine ⟨?_, ?_⟩
  · intro s coll f k r g hk hf
    rw [exec_recordApply, recordApply_of_nextApply hk hf]
    have hColl : f.coll = coll.toNat := State.coll_of_nextApply hf
    have hFrame : (g.2.coll f.coll).applyFrame (g.2.heldFresh f.coll) f = r := by
      simp [g, State.frameRequest, hColl, k, r]
    refine ⟨fun hg => by rw [if_neg (ne_true_of_eq_false hg)], fun hg => ?_⟩
    rw [if_pos hg]
    have hOther : ∀ o, (g.2.coll o) = s.coll o := by simp [g, State.frameRequest]
    obtain ⟨v, cs, hMine⟩ := g.2.applyRecords_coll f coll.toNat
    rw [if_pos hColl.symm, hFrame] at hMine
    refine ⟨g.2.applyRecords f, by rw [hMine]; rfl, by rw [hMine]; rfl, by rw [hMine]; rfl, by rw [hMine]; rfl, ?_, ?_, ?_, ?_, ?_⟩
    · intro o ho
      obtain ⟨v, cs, h⟩ := g.2.applyRecords_coll f o
      rw [h, if_neg (hColl ▸ ho), hOther]
      exact ⟨rfl, rfl⟩
    · simp [g, State.frameRequest]
    · exact State.applyRecords_qm _ _
    · intro hNone
      rw [State.applyNow_of_unowned (by rw [State.owner, State.applyRecords_qm]; exact hNone)]
    · intro c hSome
      rw [State.applyNow_of_owned (c := c) (by rw [State.owner, State.applyRecords_qm]; exact hSome), hFrame]
  · intro held mean j a r d i del
    refine ⟨?_, ?_, ?_, ?_, ?_⟩
    · intro h
      simp only [del, applyRec_delete_of_live held mean j a r h, CollData.live_onId_kill]
      exact ⟨by simp [i], fun x hx => by simp [beq_false_of_ne hx, d, i]⟩
    · intro h
      rw [applyRec_delete_of_absent held mean j a r h]
      exact ⟨rfl, rfl⟩
    · exact fun h x => applyRec_attrSet_live held mean j a r h x
    · intro h
      rw [applyRec_attrSet_of_absent held mean j a r h]
    · intro op hop t
      obtain ⟨z, _, _, hLists, hFresh⟩ := applyRec_adds held mean j a r hop
      refine ⟨by simp [t, applyRec_adds_live held mean j a r hop, i], fun x hx => ?_, ?_, fun l hl e he hi => ?_⟩
      · simp only [t, applyRec_adds_live held mean j a r hop, d]
        rw [beq_false_of_ne hx, Bool.false_or]
      · simp [t, hFresh, d, CollData.onId]
      · exact CollData.dead_of_mem_onId_kill (hLists ▸ hl) he hi

end Sys2Proof.Machine
end

section
/-!
SUPPORT. An image that commits (R299), and BUILD, BUILD_DONE and RESTORE_DONE case by case (R117, R118, R132, R306).
-/

namespace Sys2Proof.Machine

/-! ### Committing an image (R299) -/

section
variable (s : State) (o : Nat) (i : Image)

theorem State.commitImage_coll (x : Nat) : ∃ cs, (s.commitImage o i).coll x = { s.coll x with checks := cs } :=
  State.reclaim_coll _ x

/-- A collection set together with its image. -/
theorem State.commitImage_coll_of_tset {s : State} {ks : List (Nat × Coll)} {o : Nat} {k : Coll} (h : s.colls = tset ks o k)
    (i : Image) (x : Nat) : ∃ cs, (s.commitImage o i).coll x = { (if x = o then k else tget {} ks x) with checks := cs } := by
  obtain ⟨cs, hk⟩ := s.commitImage_coll o i x
  exact ⟨cs, State.coll_of_tset h x ▸ hk⟩

@[simp] theorem State.commitImage_jrn_images : (s.commitImage o i).jrn.images = tset s.jrn.images o i :=
  State.reclaim_jrn_images _
@[simp] theorem State.commitImage_jrn_next : (s.commitImage o i).jrn.next = s.jrn.next := State.reclaim_jrn_next _
@[simp] theorem State.commitImage_jrn_h : (s.commitImage o i).jrn.h = s.jrn.h := State.reclaim_jrn_h _
@[simp] theorem State.commitImage_jrn_locks : (s.commitImage o i).jrn.locks = s.jrn.locks := State.reclaim_jrn_locks _
@[simp] theorem State.commitImage_qm : (s.commitImage o i).qm = s.qm := State.reclaim_qm _
@[simp] theorem State.commitImage_mem : (s.commitImage o i).mem = s.mem := State.reclaim_mem _
@[simp] theorem State.commitImage_hostMem : (s.commitImage o i).hostMem = s.hostMem := State.reclaim_hostMem _

end

/-! ### BUILD (R117, R118) -/

section
variable {s : State} {n : Nat} {c : Cmd} (hr : s.ready? n (· == opBuild) = some c) (hj : c.job = none)
include hr hj

/-- A number that awaits recovery or maintenance refuses BUILD (R302, R311). -/
theorem build_of_awaits (ha : s.awaits (dObject c.desc) = true) : build n s = s.refuse c stBusy := by
  simp [build, hr, hj, ha]

/-- No room, with or without the replicas (R117, R154). -/
theorem build_of_noRoom (ha : s.awaits (dObject c.desc) = false)
    (hFit : s.buildFits (cfgOf c.block) (cfgCount c.block * (cfgOf c.block).spillMax) = false)
    (hBare : s.dropReplicas.buildFits (cfgOf c.block) (cfgCount c.block * (cfgOf c.block).spillMax) = false) :
    build n s = s.refuse c stNoSpace := by
  simp [build, hr, hj, ha, hFit, hBare]

section
variable (ha : s.awaits (dObject c.desc) = false)
  (hFit : s.buildFits (cfgOf c.block) (cfgCount c.block * (cfgOf c.block).spillMax) = true ∨
    s.dropReplicas.buildFits (cfgOf c.block) (cfgCount c.block * (cfgOf c.block).spillMax) = true)
include ha hFit

/-- Source records that cannot be read. -/
theorem build_of_readError {st : Nat} (hRead : s.readRecords (dDevAddr c.desc) (cfgSource c.block) (cfgStride c.block)
      (contentBytes (cfgOf c.block)) (if cfgSource c.block = 0 then 0 else cfgCount c.block) = .error st) :
    build n s = (s.recordsMet (dDevAddr c.desc) (cfgSource c.block) (cfgStride c.block) (contentBytes (cfgOf c.block))
      (if cfgSource c.block = 0 then 0 else cfgCount c.block)).refuse c st := by
  simp only [build, hr, hj, ha, hRead]
  rw [if_neg (by simp), if_neg (by simp), if_neg (by simpa [Decidable.imp_iff_not_or] using hFit)]

/-- Source records that are read: they are all good, the number is FREE and the regulators are open, or BUILD does not begin. -/
theorem build_of_read {rs : List (List Byte)} (hRead : s.readRecords (dDevAddr c.desc) (cfgSource c.block) (cfgStride c.block)
      (contentBytes (cfgOf c.block)) (if cfgSource c.block = 0 then 0 else cfgCount c.block) = .ok rs) :
    build n s =
      if rs.any (fun r => recId r == padId || (recEls (cfgOf c.block) r).any (elemBad (cfgOf c.block))) then s.refuse c stBadContent
      else if (s.coll (dObject c.desc)).state ≠ .free then s.refuse c stBusy
      else if (s.bwRequest c.part [(n, wholeInv)] (listBulk (cfgOf c.block) (cfgCount c.block) 1)).1 then
        (s.bwRequest c.part [(n, wholeInv)] (listBulk (cfgOf c.block) (cfgCount c.block) 1)).2.buildRun c rs
      else (s.bwRequest c.part [(n, wholeInv)] (listBulk (cfgOf c.block) (cfgCount c.block) 1)).2 := by
  simp only [build, hr, hj, ha, hRead, State.seq_of_ready? hr]
  rw [if_neg (by simp), if_neg (by simp), if_neg (by simpa [Decidable.imp_iff_not_or] using hFit)]

end

end

/-! ### BUILD_DONE (R132, R299, R312) -/

/-- The content of a BUILD published: the collection READY, its image of epoch 1 current. -/
def State.publishBuild (s : State) (c : Cmd) (j : Job) (d : CollData) : State :=
  let k : Coll := { state := .ready, owner := c.part, data := d, phys := d, g := j.g, checks := j.checks, drift := j.drift }
  { s.newImage.2 with colls := tset s.colls (dObject c.desc) k }.commitImage (dObject c.desc) (k.image s.newImage.1)

section
variable {s : State} {n : Nat} {c : Cmd} {j : Job} {d : CollData} (hr : s.ready? n (· == opBuild) = some c) (hj : c.job = some j)
  (hd : j.result = some d)
include hr hj hd

theorem buildDone_of_asleep (hlp : s.jrn.lp ≠ 0) : buildDone n s = s.wakeStore := by
  simp [buildDone, hr, hj, hd, hlp]

theorem buildDone_of_awake (hlp : s.jrn.lp = 0) :
    buildDone n s = if (s.bwRequest c.part [(n, wholeInv)] [(5, imageBytes d)]).1 then
      ((s.bwRequest c.part [(n, wholeInv)] [(5, imageBytes d)]).2.publishBuild c j d).doneUnits n 1
      else (s.bwRequest c.part [(n, wholeInv)] [(5, imageBytes d)]).2 := by
  simp only [buildDone, hr, hj, hd, hlp, Option.bind_some]
  cases (s.bwRequest c.part [(n, wholeInv)] [(5, imageBytes d)]).1 <;> rfl

end

/-! ### RESTORE_DONE (R280, R284, R306) -/

/-- A restored content published: the marker frame at the next JSEQ, which H reaches, and the collection READY. -/
def State.publishRestore (s : State) (c : Cmd) (x : Snapshot) (d : CollData) : State :=
  let r := s.jrn.next
  let i := x.image
  let f : Frame := { coll := dObject c.desc, op := opRestore, first := r, count := 1, hseq := i.hseq, place := .nand, persisted := true,
                     applied := 1 }
  let k : Coll := { state := .ready, owner := c.part, data := d, phys := d, nextFresh := i.nextFresh, applied := r, hseq := i.hseq,
                    g := i.g, checks := i.checks.filter (fun q => decide (q.epoch ≤ x.epoch)), drift := i.drift }
  let s := { s with colls := tset s.colls (dObject c.desc) k, jrn := { s.jrn with next := r + 1, h := r, frames := s.jrn.frames ++ [f] } }
  s.commitImage (dObject c.desc) { i with after := r, owner := c.part, data := d, checks := k.checks, events := [] }

section
variable {s : State} {n : Nat} {c : Cmd} {j : Job} {d : CollData} (hr : s.ready? n (· == opRestore) = some c)
  (hj : c.job = some j) (hd : j.result = some d)
include hr hj hd

theorem restoreDone_of_readOnly (ho : s.jrn.readOnly = true) : restoreDone n s = s.abortCmd c stJrnFail false := by
  simp [restoreDone, hr, hj, hd, ho]

theorem restoreDone_of_asleep (ho : s.jrn.readOnly = false) (hlp : s.jrn.lp ≠ 0) : restoreDone n s = s.wakeStore := by
  simp [restoreDone, hr, hj, hd, ho, hlp]

theorem restoreDone_of_unpersisted (ho : s.jrn.readOnly = false) (hlp : s.jrn.lp = 0)
    (hf : ∃ f ∈ s.jrn.frames, f.persisted = false) : restoreDone n s = s := by
  simp [restoreDone, hr, hj, hd, ho, hlp, hf]

theorem restoreDone_of_persisted (ho : s.jrn.readOnly = false) (hlp : s.jrn.lp = 0)
    (hf : ∀ f ∈ s.jrn.frames, f.persisted = true) :
    restoreDone n s =
      if (s.bwRequest c.part [(n, wholeInv)] (listBulk d.cfg (sumN (d.lists.map (fun l => l.slots.length))) 1)).1 then
        ((s.bwRequest c.part [(n, wholeInv)] (listBulk d.cfg (sumN (d.lists.map (fun l => l.slots.length))) 1)).2.publishRestore c
          (tget {} s.jrn.snaps j.snap) d).doneUnits n (tget ({} : Snapshot) s.jrn.snaps j.snap).epoch
      else (s.bwRequest c.part [(n, wholeInv)] (listBulk d.cfg (sumN (d.lists.map (fun l => l.slots.length))) 1)).2 := by
  have hAny : s.jrn.frames.any (fun f => !f.persisted) = false := by simpa using hf
  simp only [restoreDone, hr, hj, hd, ho, hlp, hAny, Option.bind_some, State.publishRestore, State.bwRequest_jrn]
  cases (s.bwRequest c.part [(n, wholeInv)] (listBulk d.cfg (sumN (d.lists.map (fun l => l.slots.length))) 1)).1 <;> rfl

end

end Sys2Proof.Machine
end

section
/-!
SUPPORT. What BUILD_DONE and RESTORE_DONE publish (R132, R299, R306), and the content that a BUILD makes (R118).
-/

namespace Sys2Proof.Machine

section
variable (s : State) (c : Cmd) (j : Job) (d : CollData)

/-- The collection that a BUILD publishes; every other stays. -/
theorem State.publishBuild_coll (x : Nat) : ∃ cs, (s.publishBuild c j d).coll x = { (if x = dObject c.desc then
    { state := .ready, owner := c.part, data := d, phys := d, g := j.g, drift := j.drift } else s.coll x) with checks := cs } := by
  obtain ⟨cs, h⟩ := State.commitImage_coll_of_tset (s := { s.newImage.2 with colls := tset s.colls (dObject c.desc) _ }) rfl _ x
  exact ⟨cs, h.trans (by split <;> rfl)⟩

/-- The image of epoch 1 (R299). -/
theorem State.publishBuild_image :
    let i : Image := tget {} (s.publishBuild c j d).jrn.images (dObject c.desc)
    i.data = d ∧ i.mark = 0 ∧ i.epoch = d.epoch ∧ i.owner = c.part ∧ i.parts = imageParts d s.jrn.nextImg (fun _ => true) [] := by
  unfold State.publishBuild
  rw [State.commitImage_jrn_images, tget_tset_same]
  exact ⟨rfl, rfl, rfl, rfl, rfl⟩

theorem State.publishBuild_image_ne {o : Nat} (h : o ≠ dObject c.desc) :
    tget ({} : Image) (s.publishBuild c j d).jrn.images o = tget {} s.jrn.images o := by
  unfold State.publishBuild
  rw [State.commitImage_jrn_images, tget_tset_ne _ _ _ h]
  rfl

@[simp] theorem State.publishBuild_qm : (s.publishBuild c j d).qm = s.qm := State.commitImage_qm _ _ _
@[simp] theorem State.publishBuild_mem : (s.publishBuild c j d).mem = s.mem := State.commitImage_mem _ _ _
@[simp] theorem State.publishBuild_hostMem : (s.publishBuild c j d).hostMem = s.hostMem := State.commitImage_hostMem _ _ _

end

section
variable (s : State) (c : Cmd) (x : Snapshot) (d : CollData)

/-- The collection that a RESTORE publishes; every other stays. -/
theorem State.publishRestore_coll (o : Nat) : ∃ cs, (s.publishRestore c x d).coll o = { (if o = dObject c.desc then
    { state := .ready, owner := c.part, data := d, phys := d, nextFresh := x.image.nextFresh, applied := s.jrn.next,
      hseq := x.image.hseq, g := x.image.g, drift := x.image.drift } else s.coll o) with checks := cs } := by
  obtain ⟨cs, h⟩ := State.commitImage_coll_of_tset (s := { s with colls := tset s.colls (dObject c.desc) _, jrn := _ }) rfl _ o
  exact ⟨cs, h.trans (by split <;> rfl)⟩

@[simp] theorem State.publishRestore_next : (s.publishRestore c x d).jrn.next = s.jrn.next + 1 := State.commitImage_jrn_next _ _ _
@[simp] theorem State.publishRestore_h : (s.publishRestore c x d).jrn.h = s.jrn.next := State.commitImage_jrn_h _ _ _
@[simp] theorem State.publishRestore_qm : (s.publishRestore c x d).qm = s.qm := State.commitImage_qm _ _ _
@[simp] theorem State.publishRestore_mem : (s.publishRestore c x d).mem = s.mem := State.commitImage_mem _ _ _
@[simp] theorem State.publishRestore_hostMem : (s.publishRestore c x d).hostMem = s.hostMem := State.commitImage_hostMem _ _ _

end

theorem State.cmd?_modJob (s : State) (n : Nat) (f : Job → Job) :
    (s.modJob n f).cmd? n = (s.cmd? n).map (fun c => { c with job := c.job.map f }) := s.cmd?_modCmd_same n _ (fun _ => rfl)

/-- A command that a change starts with a job is running, with that job. -/
theorem State.running_of_started {s : State} {n units : Nat} {j : Job} {c : Cmd}
    (h : (s.modCmd n (fun c => { c with run := .running, spec0 := units, job := some j })).cmd? n = some c) :
    c.run = .running ∧ c.job = some j := by
  rw [State.cmd?_modCmd_same s n (fun c => { c with run := .running, spec0 := units, job := some j }) (fun _ => rfl)] at h
  obtain ⟨c0, _, rfl⟩ := Option.map_eq_some_iff.mp h
  exact ⟨rfl, rfl⟩

/-- The command that a BUILD leaves once its content is made: every unit done, and the content held (Table 3.20). -/
theorem State.cmd?_of_made {s : State} {n units : Nat} {e : Cmd} {j : Job} (f : Job → Job) (he : s.cmd? n = some e)
    (hj : e.job = some j) : ((s.modCmd n (fun c => { c with spec0 := units })).modJob n f).cmd? n =
      some { e with spec0 := units, job := some (f j) } := by
  rw [State.cmd?_modJob, State.cmd?_modCmd_same s n (fun c => { c with spec0 := units }) (fun _ => rfl), he]
  simp [hj]

theorem exec_build (n : Nat) (s : State) : exec (.build n) s = .next (build n s) := rfl
theorem exec_buildDone (n : Nat) (s : State) : exec (.buildDone n) s = .next (buildDone n s) := rfl
theorem exec_restoreDone (n : Nat) (s : State) : exec (.restoreDone n) s = .next (restoreDone n s) := rfl

/-- Settles O38: BUILD case by case, with the content that `buildRun` makes, and what BUILD_DONE and RESTORE_DONE publish. -/
theorem collectionsAreBuiltAndPublished : Obligations.CollectionsAreBuiltAndPublished := by
  unfold Obligations.CollectionsAreBuiltAndPublished
  refine ⟨?_, ?_, ?_⟩
  · intro s n c hr hj b cfg o dev count fits read bad g
    refine ⟨fun ha => by rw [exec_build, build_of_awaits hr hj ha], fun ha =>
      ⟨fun h1 h2 => by rw [exec_build, build_of_noRoom hr hj ha h1 h2], fun hFit =>
      ⟨fun st hRead => by rw [exec_build, build_of_readError hr hj ha hFit hRead], fun rs hRead => ?_⟩⟩⟩
    rw [exec_build, build_of_read hr hj ha hFit hRead]
    refine ⟨fun hBad => by rw [if_pos hBad], fun hBad hk => ?_, fun hBad hk hg => ?_, fun hBad hk hg => ?_⟩
    · rw [if_neg (ne_true_of_eq_false hBad), if_pos hk]
    · rw [if_neg (ne_true_of_eq_false hBad), if_neg (not_not_intro hk), if_neg (ne_true_of_eq_false hg)]
    · rw [if_neg (ne_true_of_eq_false hBad), if_neg (not_not_intro hk), if_pos hg]
      intro s1 cent cb rsc hCent hCb hRsc pr as d0 e want hLimits d s2 hLay hRoom hQm hCmd
      have hRun : g.2.buildRun c rs = (s2.modCmd n (fun c => { c with spec0 := unitsSpec (cfgCount b) (cfgCount b) })).modJob n
          (fun j => { j with result := some d, g := buildChain cfg (cfgCount b) rs,
                             checks := [{ epoch := 1, jseq := 0, g := buildChain cfg (cfgCount b) rs }],
                             drift := { basePpm := e.base, mean := e.mean } }) := by
        unfold State.buildRun
        rw [State.seq_of_ready? hr]
        simp only [s1, b, cfg, o, dev] at hCent hCb hRsc
        dsimp only
        rw [hCent, hCb, hRsc]
        dsimp only
        rw [if_neg (ne_true_of_eq_false hLimits)]
        simp only [pr, as, d0, e, want, s1, b, cfg, o] at hLay
        rw [hLay]
        dsimp only
        rw [if_neg (Nat.not_lt.mpr hRoom)]
      obtain ⟨c1, hc1⟩ := Option.ne_none_iff_exists'.mp hCmd
      obtain ⟨hRunning, hJob⟩ := State.running_of_started hc1
      have hc2 : s2.cmd? n = some c1 := by
        rw [State.cmd?, hQm]
        exact hc1
      rw [hRun]
      exact ⟨_, _, rfl, State.cmd?_of_made _ hc2 hJob, rfl, hRunning, rfl, fun _ => rfl, rfl⟩
  · intro s n c j d hr hj hd o g
    refine ⟨fun hlp => by rw [exec_buildDone, buildDone_of_asleep hr hj hd hlp], fun hlp hg => ?_, fun hlp hg => ?_⟩
    · rw [exec_buildDone, buildDone_of_awake hr hj hd hlp, if_neg (ne_true_of_eq_false hg)]
    · rw [exec_buildDone, buildDone_of_awake hr hj hd hlp, if_pos hg]
      obtain ⟨cs, hk⟩ := g.2.publishBuild_coll c j d o
      rw [if_pos rfl] at hk
      refine ⟨g.2.publishBuild c j d, rfl, by rw [hk], by rw [hk], by rw [hk], by rw [hk], by rw [hk], fun p hp => ?_, ?_,
        fun p hp => ?_, ?_, ?_, ?_⟩
      · obtain ⟨cs, h⟩ := g.2.publishBuild_coll c j d p
        rw [h, if_neg hp]
        simp [g]
      · have h := g.2.publishBuild_image c j d
        rwa [show g.2.jrn = s.jrn from State.bwRequest_jrn _ _ _ _] at h
      · rw [State.publishBuild_image_ne _ _ _ _ hp]
        simp [g]
      · exact State.publishBuild_qm _ _ _ _
      · simp [g]
      · simp [g]
  · intro s n c j d hr hj hd g
    refine ⟨fun ho => ?_, fun ho hlp => ?_, fun ho hlp hf => ?_, fun ho hlp hf => ?_⟩
    · rw [exec_restoreDone, restoreDone_of_readOnly hr hj hd ho]
    · rw [exec_restoreDone, restoreDone_of_asleep hr hj hd ho hlp]
    · rw [exec_restoreDone, restoreDone_of_unpersisted hr hj hd ho hlp hf]
    rw [exec_restoreDone, restoreDone_of_persisted hr hj hd ho hlp hf]
    refine ⟨fun hg => by rw [if_neg (ne_true_of_eq_false hg)], fun hg => ?_⟩
    rw [if_pos hg]
    intro x
    obtain ⟨cs, hk⟩ := g.2.publishRestore_coll c x d (dObject c.desc)
    rw [if_pos rfl] at hk
    refine ⟨g.2.publishRestore c x d, rfl, by rw [hk], by rw [hk], by rw [hk], by rw [hk], by rw [hk], ?_, ?_,
      fun o ho => ?_, ?_, ?_, ?_⟩
    · simp [g]
    · simp [g]
    · obtain ⟨cs, h⟩ := g.2.publishRestore_coll c x d o
      rw [h, if_neg ho]
      simp [g]
    · exact State.publishRestore_qm _ _ _ _
    · simp [g]
    · simp [g]

end Sys2Proof.Machine
end

section
/-!
SUPPORT. COMPACT, TRAIN and COMPACT_PUBLISH case by case (R292, R293, R295, R296): what a rewrite that binds, commits its image or
publishes its epoch leaves.
-/

namespace Sys2Proof.Machine

/-! ### A rewrite that binds (R293 steps 1 to 3) -/

section
variable (s : State) (c : Cmd) (ls : List Lock) (total : Nat) (d : CollData) (gone : List Nat) (drift : Drift) (sample : List Byte)

/-- The collection is EXCLUSIVE with its content as it was. -/
theorem State.startRewrite_coll : (s.startRewrite c ls total d gone drift sample).coll (dObject c.desc) =
    { s.coll (dObject c.desc) with state := .exclusive, busyOp := dOpcode c.desc } :=
  State.coll_modColl_same ((s.lock ls).modCmd c.seq (lockGot s.hif.timer)) (dObject c.desc)
    (fun k => { k with state := .exclusive, busyOp := dOpcode c.desc })

/-- The command holds the content it will publish, with no unit done. -/
theorem State.startRewrite_cmd {e : Cmd} (he : e ∈ (s.startRewrite c ls total d gone drift sample).qm.cmds) (hn : e.seq = c.seq) :
    e.job.bind Job.result = some d ∧ e.run = .running ∧ e.spec0 = unitsSpec 0 total := by
  obtain ⟨e0, _, _, rfl⟩ := State.exists_of_mem_modCmd he hn
  exact ⟨rfl, rfl, rfl⟩

/-- Nothing but the commands in flight, the collections and the lock table changes. -/
theorem State.startRewrite_frame : let t := s.startRewrite c ls total d gone drift sample
    t = { s with qm := { s.qm with cmds := t.qm.cmds }, colls := t.colls,
                 jrn := { s.jrn with locks := t.jrn.locks, peak := t.jrn.peak } } := rfl

end

/-! ### COMPACT (R292, R293) -/

/-- The first and last list of a COMPACT of a collection. -/
def Cmd.compactSpan (c : Cmd) (k : Coll) : Nat × Nat :=
  compactRange k.data.lists.length (dfld c.desc 0x08 0 32) (dfld c.desc 0x0C 0 32)

/-- The locks of a COMPACT: its range of lists, and the fresh segment (R293 step 1). -/
def Cmd.compactLocks (c : Cmd) (k : Coll) : List Lock :=
  [{ coll := dObject c.desc, list := true, lo := (c.compactSpan k).1, hi := (c.compactSpan k).2, excl := false, cmd := c.seq },
   { coll := dObject c.desc, list := true, lo := freshList, hi := freshList, excl := false, cmd := c.seq }]

/-- The lines of the structures that a COMPACT reads and that cannot be served. -/
def State.compactBad (s : State) (c : Cmd) : List Nat :=
  let k := s.coll (dObject c.desc)
  s.rewriteLinesBad (dObject c.desc) k.data
    (List.range' (c.compactSpan k).1 ((c.compactSpan k).2 + 1 - (c.compactSpan k).1)) (!k.data.fresh.isEmpty)

/-- What a COMPACT does to the state it binds. -/
def State.compactPlanOf (s : State) (c : Cmd) : CompactPlan :=
  s.compactPlan (s.coll (dObject c.desc)) (c.compactSpan (s.coll (dObject c.desc))).1 (c.compactSpan (s.coll (dObject c.desc))).2

section
variable {s : State} {n : Nat} {c : Cmd} (hr : s.ready? n (· == opCompact) = some c)
include hr

theorem compact_of_job {j : Job} (hj : c.job = some j) : compact n s = s.rewriteOn c := by
  simp [compact, hr, hj]

section
variable (hj : c.job = none)
include hj

theorem compact_of_unbound (hb : s.rewriteBinds c = false) : compact n s = s := by
  simp [compact, hr, hj, hb]

variable (hb : s.rewriteBinds c = true)
include hb

theorem compact_of_free (hk : (s.coll (dObject c.desc)).state = .free) : compact n s = s.refuse c stNoObject := by
  simp [compact, hr, hj, hb, hk]

theorem compact_of_busy (hf : (s.coll (dObject c.desc)).state ≠ .free) (hk : (s.coll (dObject c.desc)).state ≠ .ready) :
    compact n s = s.refuse c stBusy := by
  simp [compact, hr, hj, hb, hf, hk]

variable (hk : (s.coll (dObject c.desc)).state = .ready)
include hk

/-- A COMPACT that may bind and whose collection is READY: it waits for its locks, or goes on to its checks. -/
theorem compact_of_locked (hl : s.lockFree c (c.compactLocks (s.coll (dObject c.desc))) = false) :
    compact n s = s.lockWait c (c.compactLocks (s.coll (dObject c.desc))) := by
  obtain rfl := State.seq_of_ready? hr
  simp only [Cmd.compactLocks, Cmd.compactSpan] at hl ⊢
  simp [compact, hr, hj, hb, hk, hl]

variable (hl : s.lockFree c (c.compactLocks (s.coll (dObject c.desc))) = true)
include hl

theorem compact_of_lastEpoch (he : (s.coll (dObject c.desc)).data.epoch = 0xFFFFFFFF) : compact n s = s.refuse c stNoSpace := by
  obtain rfl := State.seq_of_ready? hr
  simp only [Cmd.compactLocks, Cmd.compactSpan] at hl
  simp [compact, hr, hj, hb, hk, hl, he]

variable (he : (s.coll (dObject c.desc)).data.epoch ≠ 0xFFFFFFFF)
include he

theorem compact_of_badLine (hBad : s.compactBad c ≠ []) :
    compact n s = (s.meetRead (s.compactBad c)).refuse c stUncorrectable := by
  obtain rfl := State.seq_of_ready? hr
  simp only [Cmd.compactLocks, Cmd.compactSpan] at hl
  simp only [State.compactBad, Cmd.compactSpan] at hBad ⊢
  simp [compact, hr, hj, hb, hk, hl, he, hBad]

variable (hBad : s.compactBad c = [])
include hBad

theorem compact_of_unmade (hMade : s.orDropReplicas (fun u => u.compactRun (u.coll (dObject c.desc)) (s.compactPlanOf c)) = none) :
    compact n s = s.refuse c stNoSpace := by
  obtain rfl := State.seq_of_ready? hr
  simp only [Cmd.compactLocks, Cmd.compactSpan] at hl
  simp only [State.compactBad, Cmd.compactSpan] at hBad
  simp only [State.compactPlanOf, Cmd.compactSpan] at hMade
  simp [compact, hr, hj, hb, hk, hl, he, hBad, hMade]

theorem compact_of_made {d : CollData} {s1 : State}
    (hMade : s.orDropReplicas (fun u => u.compactRun (u.coll (dObject c.desc)) (s.compactPlanOf c)) = some (d, s1))
    (hRoom : s1.jrn.newBytes (imageParts d s1.jrn.nextImg (s.compactPlanOf c).lists.contains
      (tget {} s.jrn.images (dObject c.desc) : Image).parts) ≤ s1.jrn.freeBytes) :
    compact n s = s1.startRewrite c (c.compactLocks (s.coll (dObject c.desc))) (s.compactPlanOf c).lists.length d
      ((s.compactPlanOf c).moves.map (fun m => m.1.index) ++ (s.compactPlanOf c).drops) (s.coll (dObject c.desc)).drift [] := by
  obtain rfl := State.seq_of_ready? hr
  simp only [Cmd.compactLocks, Cmd.compactSpan] at hl ⊢
  simp only [State.compactBad, Cmd.compactSpan] at hBad
  simp only [State.compactPlanOf, Cmd.compactSpan] at hMade hRoom ⊢
  simp [compact, hr, hj, hb, hk, hl, he, hBad, hMade, Nat.not_lt.mpr hRoom]

end

end

/-! ### TRAIN (R295, R296) -/

/-- The lock of a TRAIN: every list and the fresh segment. -/
def Cmd.trainLocks (c : Cmd) : List Lock :=
  [{ coll := dObject c.desc, list := true, lo := 0, hi := freshList, excl := false, cmd := c.seq }]

/-- The parameters a TRAIN of a content computes from sample vectors, and its conversion counts. -/
def Cmd.trainedParams (c : Cmd) (d : CollData) (xs : List (List Nat)) : CollData × Nat × Nat :=
  trainParams d xs (bitsOf (dSubop c.desc) 1 1 == 1) (bitsOf (dSubop c.desc) 0 1 == 1) (dfld c.desc 0x14 0 32) (dfld c.desc 0x18 0 32)

/-- The content that a TRAIN encodes its vectors with. -/
def Cmd.trainedContent (c : Cmd) (d : CollData) (xs : List (List Nat)) : CollData :=
  withResScale { (c.trainedParams d xs).1 with epoch := d.epoch + 1 } (assignAll (c.trainedParams d xs).1 (liveVecs d))

section
variable {s : State} {n : Nat} {c : Cmd} (hr : s.ready? n (· == opTrain) = some c)
include hr

theorem train_of_job {j : Job} (hj : c.job = some j) : train n s = s.rewriteOn c := by
  simp [train, hr, hj]

section
variable (hj : c.job = none)
include hj

theorem train_of_unbound (hb : s.rewriteBinds c = false) : train n s = s := by
  simp [train, hr, hj, hb]

variable (hb : s.rewriteBinds c = true)
include hb

theorem train_of_free (hk : (s.coll (dObject c.desc)).state = .free) : train n s = s.refuse c stNoObject := by
  simp [train, hr, hj, hb, hk]

theorem train_of_busy (hf : (s.coll (dObject c.desc)).state ≠ .free) (hk : (s.coll (dObject c.desc)).state ≠ .ready) :
    train n s = s.refuse c stBusy := by
  simp [train, hr, hj, hb, hf, hk]

variable (hk : (s.coll (dObject c.desc)).state = .ready)
include hk

theorem train_of_locked (hl : s.lockFree c c.trainLocks = false) : train n s = s.lockWait c c.trainLocks := by
  obtain rfl := State.seq_of_ready? hr
  simp only [Cmd.trainLocks] at hl ⊢
  simp [train, hr, hj, hb, hk, hl]

theorem train_of_made {xs : List (List Nat) × List Byte} {r : CollData × Nat × Nat} {s1 : State}
    (hl : s.lockFree c c.trainLocks = true) (he : (s.coll (dObject c.desc)).data.epoch ≠ 0xFFFFFFFF)
    (hBad : s.rewriteLinesBad (dObject c.desc) (s.coll (dObject c.desc)).data
      (List.range (s.coll (dObject c.desc)).data.lists.length) true = [])
    (hSample : s.trainSample c (s.coll (dObject c.desc)).data = .ok xs)
    (hMade : (s.fmtCount (c.trainedParams (s.coll (dObject c.desc)).data xs.1).2.1
        (c.trainedParams (s.coll (dObject c.desc)).data xs.1).2.2).orDropReplicas
      (fun s' => s'.trainRun (c.trainedContent (s.coll (dObject c.desc)).data xs.1) (liveVecs (s.coll (dObject c.desc)).data)) =
        some (r, s1))
    (hRoom : imageBytes r.1 ≤ s1.jrn.freeBytes) :
    train n s = s1.startRewrite c c.trainLocks
      (trainUnits (dSubop c.desc) (dfld c.desc 0x14 0 32) (liveEntries (s.coll (dObject c.desc)).data).length) r.1
      ((s.coll (dObject c.desc)).data.fresh.map Fresh.index) { basePpm := r.2.1, mean := r.2.2 } xs.2 := by
  obtain rfl := State.seq_of_ready? hr
  simp only [Cmd.trainLocks] at hl ⊢
  simp only [Cmd.trainedContent, Cmd.trainedParams] at hMade
  simp [train, hr, hj, hb, hk, hl, he, hBad, hSample, hMade, Nat.not_lt.mpr hRoom]

end

end

/-! ### Units and step 4 (R293, R298, R299) -/

/-- A rewrite with units left takes one, once its regulators are open. -/
theorem State.rewriteOn_of_units {s : State} {c : Cmd} (h : c.unitsDone = false) :
    s.rewriteOn c =
      s.unitGo c (listBulk (s.coll (dObject c.desc)).data.cfg c.rewriteEntries (c.spec0 / 2 ^ 32)) := by
  simp [State.rewriteOn, h]

theorem State.rewriteOn_of_unitsDone {s : State} {c : Cmd} (h : c.unitsDone = true) : s.rewriteOn c = s.rewriteCommit c := by
  simp [State.rewriteOn, h]

/-- The request of an image's parts changes what requests change. -/
theorem State.rewriteImage_keeps {β : Type} (g : State → β) (s : State) (c : Cmd)
    (hg : ∀ ws rs, g (s.bwRequest c.part ws rs).2 = g s) : g (s.rewriteImage c).2 = g s := by
  unfold State.rewriteImage
  split
  · exact hg _ _
  · rfl

theorem State.rewriteImage_jrn (s : State) (c : Cmd) : (s.rewriteImage c).2.jrn = s.jrn :=
  State.rewriteImage_keeps State.jrn s c (State.bwRequest_jrn s c.part)
theorem State.rewriteImage_coll (s : State) (c : Cmd) (o : Nat) : (s.rewriteImage c).2.coll o = s.coll o :=
  State.rewriteImage_keeps (State.coll · o) s c (fun ws rs => State.bwRequest_coll s c.part ws rs o)
theorem State.rewriteImage_mem (s : State) (c : Cmd) : (s.rewriteImage c).2.mem = s.mem :=
  State.rewriteImage_keeps State.mem s c (State.bwRequest_mem s c.part)
theorem State.rewriteImage_hostMem (s : State) (c : Cmd) : (s.rewriteImage c).2.hostMem = s.hostMem :=
  State.rewriteImage_keeps State.hostMem s c (State.bwRequest_hostMem s c.part)

/-- The image of a rewrite with content r, with number i, of the collection that k is (R299). -/
def rewriteImg (c : Cmd) (k : Coll) (old : Image) (j : Job) (r : CollData) (i : Nat) : Image :=
  let d := { r with filters := k.data.filters, filterRuns := k.data.filterRuns }
  { epoch := r.epoch, mark := j.mark, markHseq := j.hseq, after := j.mark, owner := k.owner, data := d,
    nextFresh := j.nextFresh, hseq := j.hseq, g := j.g, checks := j.checks, drift := j.drift.afterReset,
    events := old.events.drop j.events, pub := some (publishEvent c j r.epoch),
    parts := imageParts d i (fun l => decide ((r.lists.getD l {}).epoch = r.epoch)) old.parts }

/-- Step 4 of R293 done: the image is current, and the command is at its last step. -/
def State.imageCommitted (s : State) (c : Cmd) (i : Image) : State :=
  ((s.newImage.2.commitImage (dObject c.desc) i).modJob c.seq (fun j => { j with committed := true })).modCmd c.seq (fun c =>
    let t := c.spec0 / 2 ^ 32
    { c with run := .last, spec0 := unitsSpec t t })

section
variable {s : State} {c : Cmd} {j : Job} {r : CollData} (hj : c.job = some j) (hr : j.result = some r)
include hj hr

/-- A rewrite whose image is committed waits for its publish. -/
theorem State.rewriteCommit_of_committed (h : j.committed = true) : s.rewriteCommit c = s := by
  simp [State.rewriteCommit, hj, hr, h]

variable (h : j.committed = false)
include h

theorem State.rewriteCommit_of_asleep (hlp : s.jrn.lp ≠ 0) : s.rewriteCommit c = s.wakeStore := by
  simp [State.rewriteCommit, hj, hr, h, hlp]

variable (hlp : s.jrn.lp = 0)
include hlp

theorem State.rewriteCommit_of_closed (hg : (s.rewriteImage c).1 = false) : s.rewriteCommit c = (s.rewriteImage c).2 := by
  simp [State.rewriteCommit, hj, hr, h, hlp, hg]

theorem State.rewriteCommit_of_open (hg : (s.rewriteImage c).1 = true) :
    s.rewriteCommit c = (s.rewriteImage c).2.imageCommitted c (rewriteImg c (s.coll (dObject c.desc))
      (tget {} (s.rewriteImage c).2.jrn.images (dObject c.desc)) j r (s.rewriteImage c).2.jrn.nextImg) := by
  simp only [State.rewriteCommit, hj, hr, h, hlp, hg, Option.bind_some]
  rfl

end

section
variable (s : State) (c : Cmd) (i : Image)

theorem State.imageCommitted_coll (x : Nat) : ∃ cs, (s.imageCommitted c i).coll x = { s.coll x with checks := cs } :=
  State.commitImage_coll s.newImage.2 (dObject c.desc) i x

theorem State.imageCommitted_images : (s.imageCommitted c i).jrn.images = tset s.jrn.images (dObject c.desc) i :=
  State.commitImage_jrn_images s.newImage.2 (dObject c.desc) i

theorem State.imageCommitted_locks : (s.imageCommitted c i).jrn.locks = s.jrn.locks :=
  State.commitImage_jrn_locks s.newImage.2 (dObject c.desc) i

theorem State.imageCommitted_mem : (s.imageCommitted c i).mem = s.mem := State.commitImage_mem s.newImage.2 (dObject c.desc) i

theorem State.imageCommitted_hostMem : (s.imageCommitted c i).hostMem = s.hostMem :=
  State.commitImage_hostMem s.newImage.2 (dObject c.desc) i

theorem State.imageCommitted_cmd {e : Cmd} (he : e ∈ (s.imageCommitted c i).qm.cmds) (hn : e.seq = c.seq) : e.run = .last := by
  obtain ⟨e0, _, _, rfl⟩ := State.exists_of_mem_modCmd he hn
  rfl

end

/-! ### Publish (R293 steps 5 to 7) -/

section
variable {s : State} {n : Nat} {c : Cmd} {j : Job} {bound result : CollData}
  (hr : s.ready? n (fun op => op == opCompact || op == opTrain) = some c) (hj : c.job = some j) (hb : j.bound = some bound)
  (hres : j.result = some result) (hc : j.committed = true)
include hr hj hb hres hc

/-- Another command holds a conflicting lock: the raise waits. -/
theorem compactPublish_of_held (hl : s.jrn.locks.any (fun h => h.cmd != n &&
      ((s.jrn.locks.filter (fun l => l.cmd == n)).map (fun l => { l with excl := true })).any (fun l => l.conflicts h)) = true) :
    compactPublish n s = (s.modJob n (fun j => { j with raise := true })).modCmd n
      (fun c => { c with lockFrom := some (c.lockFrom.getD s.hif.timer) }) := by
  simp only [compactPublish, hr, State.rewriteCommit_of_committed hj hres hc, (State.cmd?_of_ready? hr).1, hj, hb, hres, hc,
    Option.bind_some, hl]
  rfl

/-- No lock is in the way, and no fresh entry is left for a TRAIN to move: epoch E + 1 is published. -/
theorem compactPublish_of_clear (hl : s.jrn.locks.any (fun h => h.cmd != n &&
      ((s.jrn.locks.filter (fun l => l.cmd == n)).map (fun l => { l with excl := true })).any (fun l => l.conflicts h)) = false)
    (hLate : dOpcode c.desc = opCompact ∨ (published bound (s.coll (dObject c.desc)).data result j.moved).fresh = []) :
    ∃ dr isTrain, compactPublish n s = ((((s.modCmd n (lockGot s.hif.timer)).publish (dObject c.desc)
      (published bound (s.coll (dObject c.desc)).data result j.moved)
      (publishEvent c j (published bound (s.coll (dObject c.desc)).data result j.moved).epoch) dr isTrain).unlock n).doneUnits n
      (published bound (s.coll (dObject c.desc)).data result j.moved).epoch) := by
  have hMove : (if decide (dOpcode c.desc = opTrain) = true then
      s.orDropReplicas (fun u => u.trainLate n (published bound (s.coll (dObject c.desc)).data result j.moved))
      else some (published bound (s.coll (dObject c.desc)).data result j.moved, s)) =
      some (published bound (s.coll (dObject c.desc)).data result j.moved, s) := by
    rcases hLate with hOp | hFresh
    · rw [hOp]
      rfl
    · simp [State.orDropReplicas, State.trainLate, hFresh]
  simp only [compactPublish, hr, State.rewriteCommit_of_committed hj hres hc, (State.cmd?_of_ready? hr).1, hj, hb, hres, hc,
    Option.bind_some, hl, hMove]
  exact ⟨_, _, rfl⟩

end

end Sys2Proof.Machine
end

section
/-!
SUPPORT. The epoch that COMPACT_PUBLISH publishes, and the statement about COMPACT, TRAIN and COMPACT_PUBLISH (R293).
-/

namespace Sys2Proof.Machine

section
variable (s : State) (o : Nat) (d : CollData) (ev : List Byte) (dr : Drift) (isTrain : Bool)

/-- The collection is READY with the published content, and its chain has absorbed the event. -/
theorem State.publish_coll_same : ((s.publish o d ev dr isTrain).coll o).state = .ready ∧
    ((s.publish o d ev dr isTrain).coll o).data = d ∧
    ((s.publish o d ev dr isTrain).coll o).phys = publishedMem (s.coll o).phys d ∧
    ((s.publish o d ev dr isTrain).coll o).g = absorb (s.coll o).g ev := by
  rw [State.coll_of_tset (s := s.publish o d ev dr isTrain) rfl o, if_pos rfl]
  exact ⟨rfl, rfl, rfl, rfl⟩

theorem State.publish_coll_ne {x : Nat} (h : x ≠ o) : (s.publish o d ev dr isTrain).coll x = s.coll x := by
  rw [State.coll_of_tset (s := s.publish o d ev dr isTrain) rfl x, if_neg h]
  rfl

/-- The image that step 4 committed keeps its content, and has no event left to publish. -/
theorem State.publish_image : (tget {} (s.publish o d ev dr isTrain).jrn.images o : Image).pub = none ∧
    (tget {} (s.publish o d ev dr isTrain).jrn.images o : Image).data = (tget {} s.jrn.images o : Image).data := by
  unfold State.publish
  dsimp only
  rw [tget_tset_same]
  exact ⟨rfl, rfl⟩

end

/-- The locks that stay when a command's locks end are those of other commands. -/
theorem State.mem_unlock_locks (s : State) (n : Nat) (l : Lock) : l ∈ (s.unlock n).jrn.locks ↔ l ∈ s.jrn.locks ∧ l.cmd ≠ n := by
  simp [State.unlock]

theorem exec_compact (n : Nat) (s : State) : exec (.compact n) s = .next (compact n s) := rfl
theorem exec_train (n : Nat) (s : State) : exec (.train n) s = .next (train n s) := rfl
theorem exec_compactPublish (n : Nat) (s : State) : exec (.compactPublish n) s = .next (compactPublish n s) := rfl

/-- A COMPACT or TRAIN that has bound goes on with its units or with step 4. -/
theorem exec_rewrite_of_job {s : State} {n : Nat} {c : Cmd} {j : Job} {i : Sys2Proof.Instr}
    (hi : (i = .compact n ∧ s.ready? n (· == opCompact) = some c) ∨ (i = .train n ∧ s.ready? n (· == opTrain) = some c))
    (hj : c.job = some j) : exec i s = .next (s.rewriteOn c) ∧ c.seq = n := by
  rcases hi with ⟨rfl, hr⟩ | ⟨rfl, hr⟩
  · exact ⟨by rw [exec_compact, compact_of_job hr hj], State.seq_of_ready? hr⟩
  · exact ⟨by rw [exec_train, train_of_job hr hj], State.seq_of_ready? hr⟩

/-- Settles O39: a rewrite binds, commits its image, and publishes its epoch, case by case. -/
theorem rewritesPublishTheirEpoch : Obligations.RewritesPublishTheirEpoch := by
  unfold Obligations.RewritesPublishTheirEpoch
  refine ⟨⟨?_, ?_, ?_⟩, ?_⟩
  · intro s n c hr hj o k r ls
    obtain rfl := State.seq_of_ready? hr
    refine ⟨fun hb => ?_, fun hb hk => ?_, fun hb hf hk => ?_, fun hb hk => ⟨fun hl => ?_, fun hl he => ?_, fun hl he => ?_⟩⟩
    · rw [exec_compact, compact_of_unbound hr hj hb]
    · rw [exec_compact, compact_of_free hr hj hb hk]
    · rw [exec_compact, compact_of_busy hr hj hb hf hk]
    · rw [exec_compact, compact_of_locked hr hj hb hk hl]
      rfl
    · rw [exec_compact, compact_of_lastEpoch hr hj hb hk hl he]
    · intro p bad made
      refine ⟨fun hBad => ?_, fun hBad hMade => ?_, fun d s1 hBad hMade hRoom => ?_⟩
      · rw [exec_compact, compact_of_badLine hr hj hb hk hl he hBad]
        rfl
      · rw [exec_compact, compact_of_unmade hr hj hb hk hl he hBad hMade]
      · rw [exec_compact, compact_of_made hr hj hb hk hl he hBad hMade hRoom]
        refine ⟨_, rfl, ?_, ?_, ?_, rfl, fun e he hn => State.startRewrite_cmd _ _ _ _ _ _ _ _ he hn,
          State.startRewrite_frame _ _ _ _ _ _ _ _⟩
        · rw [State.startRewrite_coll]
        · rw [State.startRewrite_coll]
          exact State.opcode_of_ready? hr
        · rw [State.startRewrite_coll]
  · intro s n c hr hj o k ls
    obtain rfl := State.seq_of_ready? hr
    refine ⟨fun hb => ?_, fun hb hk => ?_, fun hb hf hk => ?_, fun hb hk hl => ?_, ?_⟩
    · rw [exec_train, train_of_unbound hr hj hb]
    · rw [exec_train, train_of_free hr hj hb hk]
    · rw [exec_train, train_of_busy hr hj hb hf hk]
    · rw [exec_train, train_of_locked hr hj hb hk hl]
      rfl
    · intro x hb hk hl he hBad hSample t0 d0 r s1 hMade hRoom
      rw [exec_train, train_of_made hr hj hb hk hl he hBad hSample hMade hRoom]
      refine ⟨_, rfl, ?_, ?_, ?_, rfl, fun e he hn => State.startRewrite_cmd _ _ _ _ _ _ _ _ he hn,
        State.startRewrite_frame _ _ _ _ _ _ _ _⟩
      · rw [State.startRewrite_coll]
      · rw [State.startRewrite_coll]
        exact State.opcode_of_ready? hr
      · rw [State.startRewrite_coll]
  · intro s n c j r i hi hj hr o g
    obtain ⟨hStep, rfl⟩ := exec_rewrite_of_job hi hj
    rw [hStep]
    refine ⟨fun hu => ?_, fun hu hc => ?_, fun hu hc hlp => ?_, fun hu hc hlp => ⟨fun hg => ?_, fun hg => ?_⟩⟩
    · rw [State.rewriteOn_of_units hu]
      rfl
    · rw [State.rewriteOn_of_unitsDone hu, State.rewriteCommit_of_committed hj hr hc]
    · rw [State.rewriteOn_of_unitsDone hu, State.rewriteCommit_of_asleep hj hr hc hlp]
    · rw [State.rewriteOn_of_unitsDone hu, State.rewriteCommit_of_closed hj hr hc hlp hg]
    · rw [State.rewriteOn_of_unitsDone hu, State.rewriteCommit_of_open hj hr hc hlp hg]
      refine ⟨_, rfl, fun x => ?_, ?_, fun x hx => ?_, fun e he hn => State.imageCommitted_cmd _ _ _ he hn, ?_, ?_, ?_⟩
      · obtain ⟨cs, h⟩ := (s.rewriteImage c).2.imageCommitted_coll c (rewriteImg c (s.coll (dObject c.desc))
          (tget {} (s.rewriteImage c).2.jrn.images (dObject c.desc)) j r (s.rewriteImage c).2.jrn.nextImg) x
        rw [h, State.rewriteImage_coll]
        exact ⟨rfl, rfl⟩
      · rw [State.imageCommitted_images, tget_tset_same]
        exact ⟨rfl, rfl, rfl, rfl, rfl⟩
      · rw [State.imageCommitted_images, tget_tset_ne _ _ _ hx, State.rewriteImage_jrn]
      · rw [State.imageCommitted_locks, State.rewriteImage_jrn]
      · rw [State.imageCommitted_mem, State.rewriteImage_mem]
      · rw [State.imageCommitted_hostMem, State.rewriteImage_hostMem]
  · intro s n c j bound result hr hj hb hres hc o k pub mine held
    refine ⟨fun hl => by rw [exec_compactPublish, compactPublish_of_held hr hj hb hres hc hl], fun hl hLate => ?_⟩
    obtain ⟨dr, isTrain, hPub⟩ := compactPublish_of_clear hr hj hb hres hc hl hLate
    rw [exec_compactPublish, hPub]
    obtain ⟨hState, hData, hPhys, hG⟩ :=
      (s.modCmd n (lockGot s.hif.timer)).publish_coll_same o pub (publishEvent c j pub.epoch) dr isTrain
    obtain ⟨hEvent, hImage⟩ := (s.modCmd n (lockGot s.hif.timer)).publish_image o pub (publishEvent c j pub.epoch) dr isTrain
    refine ⟨_, rfl, hState, hData, hPhys, hG, hEvent, hImage, fun l hl => ?_, fun l hl hn => ?_, fun x hx => ?_, rfl, rfl, rfl⟩
    · exact ((State.mem_unlock_locks _ _ _).mp hl).2
    · exact (State.mem_unlock_locks _ _ _).mpr ⟨hl, hn⟩
    · exact congrArg Coll.data ((s.modCmd n (lockGot s.hif.timer)).publish_coll_ne o pub (publishEvent c j pub.epoch) dr isTrain hx)

end Sys2Proof.Machine
end

section
/-!
SUPPORT. The commands and queries a search step changes, and the shared operations on scan passes (R174, R191, R350).
-/

namespace Sys2Proof.Machine

/-! ### Elements of a list that an update changes -/

theorem getElem?_lmod {α : Type} (l : List α) (i : Nat) (f : α → α) : (lmod l i f)[i]? = l[i]?.map f := by
  induction l generalizing i with
  | nil => rfl
  | cons x t ih => cases i with
    | zero => rfl
    | succ i => simpa [lmod] using ih i

theorem lget_lmod_same {α : Type} (d : α) {l : List α} {i : Nat} (f : α → α) (h : i < l.length) :
    lget d (lmod l i f) i = f (lget d l i) := by
  simp [lget, List.getD_eq_getElem?_getD, getElem?_lmod, List.getElem?_eq_getElem h]

/-! ### The command and the query that an update changes -/

section
variable (s : State)

/-- A change of every command that keeps fetch numbers is what the command of a number then shows. -/
theorem State.cmd?_mapCmds (n : Nat) {f : Cmd → Cmd} (hf : ∀ c, (f c).seq = c.seq) :
    (s.mapCmds f).cmd? n = (s.cmd? n).map f := by
  have hSeq : (fun c : Cmd => c.seq == n) ∘ f = fun c => c.seq == n := funext (fun c => congrArg (· == n) (hf c))
  exact List.find?_map.trans (congrArg (fun p => (s.qm.cmds.find? p).map f) hSeq)

/-- A command's view that a change of commands keeps. -/
theorem State.cmd?_map_modCmd {β : Type} (view : Cmd → β) (m n : Nat) {f : Cmd → Cmd} (hf : ∀ c, (f c).seq = c.seq)
    (hv : ∀ c, view (f c) = view c) : ((s.modCmd n f).cmd? m).map view = (s.cmd? m).map view := by
  rw [State.modCmd, State.cmd?_mapCmds s m (fun c => by split <;> simp [hf]), Option.map_map]
  congr 1
  funext c
  by_cases h : c.seq = n <;> simp [h, hv]

/-- A query slot serves the query of its number in its command, over the content that the command is bound to. -/
theorem State.servedOf_eq_some {v : Served} {c : Cmd} {w : QueryWork} {q : QState} {d : CollData} :
    s.servedOf v = some (c, w, q, d) ↔
      s.cmd? v.cmd = some c ∧ c.query.getD {} = w ∧ w.qs[v.q]? = some q ∧ w.bound = some d := by
  unfold State.servedOf
  cases s.cmd? v.cmd with
  | none => simp
  | some e =>
    cases hq : (e.query.getD {}).qs[v.q]? <;> cases hb : (e.query.getD {}).bound <;> grind

/-- The query that a change of it leaves, over the same content. -/
theorem State.servedOf_modQuery {v : Served} {c : Cmd} {w : QueryWork} {q : QState} {d : CollData}
    (h : s.servedOf v = some (c, w, q, d)) (f : QState → QState) :
    (s.modQuery v.cmd v.q f).servedOf v =
      some ({ c with query := some { w with qs := lmod w.qs v.q f } }, { w with qs := lmod w.qs v.q f }, f q, d) := by
  obtain ⟨hc, rfl, hq, hd⟩ := (State.servedOf_eq_some s).mp h
  refine (State.servedOf_eq_some _).mpr ⟨?_, rfl, by simp [getElem?_lmod, hq], hd⟩
  rw [State.modQuery, State.cmd?_modCmd_same s v.cmd (fun c => { c with query := c.query.map (fun w => { w with qs := lmod w.qs v.q f }) })
    (fun _ => rfl), hc]
  cases hw : c.query with
  | none => simp [hw] at hq
  | some k => simp [hw]

end

/-! ### Segments that take engines (R174) -/

/-- A segment but for its engine. -/
def Pass.unassigned (a : Pass) : Pass := { a with engine := none }

/-- What no change of the segments touches, segments that take engines leave alone. -/
theorem State.assignEngines_keeps {β : Type} (g : State → β)
    (hPasses : ∀ s ps, g { s with scan := { s.scan with passes := ps } } = g s) (s : State) : g s.assignEngines = g s := by
  refine foldl_keeps g _ _ _ (fun s a => ?_)
  split
  · rfl
  · exact hPasses _ _

/-- The segments stay but for their engines. -/
theorem State.assignEngines_passes (s : State) :
    s.assignEngines.scan.passes.map Pass.unassigned = s.scan.passes.map Pass.unassigned := by
  refine foldl_keeps (fun s : State => s.scan.passes.map Pass.unassigned) _ _ s (fun s a => ?_)
  split
  · rfl
  next e _ =>
    have hPut (y : Pass) : (if y.id = a.id then { y with engine := some e } else y).unassigned = y.unassigned := by
      split <;> rfl
    simp [Function.comp_def, hPut]

theorem State.mem_assignEngines {s : State} {a : Pass} (h : a ∈ s.scan.passes) :
    ∃ b ∈ s.assignEngines.scan.passes, b.unassigned = a.unassigned := by
  have hMem := List.mem_map_of_mem (f := Pass.unassigned) h
  rw [← s.assignEngines_passes] at hMem
  exact List.mem_map.mp hMem

theorem State.of_mem_assignEngines {s : State} {b : Pass} (h : b ∈ s.assignEngines.scan.passes) :
    ∃ a ∈ s.scan.passes, a.unassigned = b.unassigned := by
  have hMem := List.mem_map_of_mem (f := Pass.unassigned) h
  rw [s.assignEngines_passes] at hMem
  exact List.mem_map.mp hMem

/-! ### Segments that end (R191, R350) -/

section
variable {β : Type} (g : State → β)

/-- What no change of a context touches, a segment's charge leaves alone. -/
theorem State.chargeSegment_keeps (hCtx : ∀ s x f, g (State.modCtx s x f) = g s) (s : State) (a : Pass) :
    g (s.chargeSegment a) = g s := by
  refine foldl_keeps g _ _ _ (fun s v => ?_)
  split
  · unfold State.chargeEngine
    split
    · rw [hCtx, hCtx]
    · exact hCtx _ _ _
  · rfl

/-- What neither a segment's charge, nor a change of the segments, nor the end of a pass touches, queries that leave their segments
leave alone. -/
theorem State.leavePasses_keeps (hCharge : ∀ s a, g (State.chargeSegment s a) = g s)
    (hPasses : ∀ s ps, g { s with scan := { s.scan with passes := ps } } = g s)
    (hEnd : ∀ s pass st, g (State.passEnd s pass st) = g s) (s : State) (gone : Pass → Served → Bool) :
    g (s.leavePasses gone) = g s :=
  (foldl_keeps g _ _ _ (fun _ _ => hEnd _ _ _)).trans ((hPasses _ _).trans (foldl_keeps g _ _ _ hCharge))

end

/-- A segment whose queries have all left is abandoned. -/
theorem State.serves_of_mem_leavePasses {s : State} {gone : Pass → Served → Bool} {a : Pass}
    (h : a ∈ (s.leavePasses gone).scan.passes) : a.served.any (fun v => !v.left) = true := by
  have hScan := foldl_keeps State.scan (fun s (a : Pass) => s.passEnd a.pass a.stack)
  unfold State.leavePasses at h
  simp only [hScan _ _ (fun _ _ => rfl)] at h
  exact (List.mem_filter.mp h).2

end Sys2Proof.Machine
end

section
/-!
SUPPORT. Passes that start (R152, R174, R289).
-/

namespace Sys2Proof.Machine

/-- What no change of the commands in flight touches, noting the waits for a version leaves alone. -/
theorem State.noteVersionWait_keeps {β : Type} (g : State → β) (hCmds : ∀ s f, g (State.mapCmds s f) = g s) (s : State) (st : Nat)
    (w : Scanned) (ws : List Waiting) : g (s.noteVersionWait st w ws) = g s :=
  foldl_keeps g _ _ _ (fun _ _ => hCmds _ _)

/-- What no change of the commands in flight touches, a query that joins a pass leaves alone. -/
theorem State.joinPass_keeps {β : Type} (g : State → β) (hCmds : ∀ s f, g (State.mapCmds s f) = g s) (s : State) (pass st : Nat)
    (w : Scanned) (x : Waiting) : g (s.joinPass pass st w x) = g s := by
  unfold State.joinPass
  refine (hCmds _ _).trans ((hCmds _ _).trans ?_)
  split
  · exact hCmds _ _
  · rfl

/-- A query slot serves the query of its probe. -/
theorem State.querySlot_query (s : State) (st : Nat) (w : Scanned) (at' : Nat) (x : Waiting) :
    ((s.querySlot st w at' x).cmd, (s.querySlot st w at' x).q) = (x.cmd, x.q) := by
  unfold State.querySlot
  dsimp only
  split <;> rfl

/-- Segment i of a pass over w on a stack for the given probes. -/
def State.passSegment (s : State) (id p o st : Nat) (w : Scanned) (ws : List Waiting) (d : CollData) (i : Nat) : Pass :=
  { id := id + i, pass := id, part := p, coll := o, what := w, stack := st, engine := none, first := i * segmentSlots,
    count := min segmentSlots (scanSpan d w - i * segmentSlots), cursor := i * segmentSlots, upto := i * segmentSlots,
    served := ws.map (s.querySlot st w (i * segmentSlots)) }

/-- The probes have joined the pass that starts. -/
def State.passJoined (s : State) (st : Nat) (w : Scanned) (ws : List Waiting) : State :=
  ws.foldl (fun t x => t.joinPass s.scan.nextPass st w x) s

/-- The segments of the pass that starts wait for engines. -/
def State.passAdded (s : State) (p o st : Nat) (w : Scanned) (ws : List Waiting) (d : CollData) : State :=
  let t := s.passJoined st w ws
  let n := max 1 (cdiv (scanSpan d w) segmentSlots)
  { t with scan := { t.scan with nextPass := s.scan.nextPass + n,
                                 passes := t.scan.passes ++ (List.range n).map (t.passSegment s.scan.nextPass p o st w ws d) } }

section
variable (s : State) (p o st : Nat) (w : Scanned) (ws : List Waiting) (d : CollData)

theorem State.startPass_eq : s.startPass p o st w ws d = (s.passAdded p o st w ws d).assignEngines := rfl

/-- The first segment of the pass has its number and serves every probe. -/
theorem State.startPass_first : ∃ a ∈ (s.startPass p o st w ws d).scan.passes, a.id = s.scan.nextPass ∧ a.part = p ∧ a.coll = o ∧
    a.what = w ∧ a.stack = st ∧ a.first = 0 ∧ a.served.map (fun v => (v.cmd, v.q)) = ws.map (fun x => (x.cmd, x.q)) := by
  have hFirst : (s.passJoined st w ws).passSegment s.scan.nextPass p o st w ws d 0 ∈ (s.passAdded p o st w ws d).scan.passes :=
    List.mem_append_right _ (List.mem_map_of_mem (List.mem_range.mpr (by omega)))
  obtain ⟨b, hb, hEq⟩ := State.mem_assignEngines hFirst
  rw [State.startPass_eq]
  refine ⟨b, hb, congrArg Pass.id hEq, congrArg Pass.part hEq, congrArg Pass.coll hEq, congrArg Pass.what hEq, congrArg Pass.stack hEq,
    (congrArg Pass.first hEq).trans (Nat.zero_mul _), ?_⟩
  have hServed : b.served = ws.map ((s.passJoined st w ws).querySlot st w (0 * segmentSlots)) := congrArg Pass.served hEq
  simp [hServed, State.querySlot_query]

/-- A pass that starts takes as many numbers as it has segments. -/
theorem State.startPass_nextPass : (s.startPass p o st w ws d).scan.nextPass =
    s.scan.nextPass + max 1 (cdiv (scanSpan d w) segmentSlots) :=
  State.assignEngines_keeps (fun s => s.scan.nextPass) (fun _ _ => rfl) _

end

/-! ### SCAN_PASS_START and GATHER_LIMIT -/

/-- The state but for what starting passes changes: the commands in flight, the segments and the next number of one. -/
def State.besidePasses (s : State) : State :=
  { s with qm := { s.qm with cmds := [] }, scan := { s.scan with passes := [], nextPass := 0 } }

/-- Two states that agree beside passes differ in the commands in flight, the segments and the next number of one alone. -/
theorem State.eq_of_besidePasses {s t : State} (h : t.besidePasses = s.besidePasses) :
    t = { s with qm := { s.qm with cmds := t.qm.cmds }, scan := { s.scan with passes := t.scan.passes, nextPass := t.scan.nextPass } } :=
  congrArg (fun x : State => { x with qm := { x.qm with cmds := t.qm.cmds },
                                      scan := { x.scan with passes := t.scan.passes, nextPass := t.scan.nextPass } }) h

/-- The probes that wait once waiting segments have taken engines. -/
def State.probesWaiting (s : State) (p o st : Nat) (w : Scanned) : List Waiting := s.assignEngines.waitingProbes p o st w

/-- Waiting segments have taken engines, and due probes have noted since when they wait for their version. -/
def State.probesNoted (s : State) (p o st : Nat) (w : Scanned) : State :=
  s.assignEngines.noteVersionWait st w (s.probesWaiting p o st w)

/-- A probe is due, and the version that its pass reads is in memory. -/
def State.passDue (s : State) (ws : List Waiting) (w : Scanned) (limitOnly : Bool) (h : Waiting) : Bool :=
  h.mem && (decide (h.limit ≤ s.hif.timer) || (!limitOnly && decide (qmax h.d.cfg ≤ (sharePass ws w h).length)))

section
variable (s : State) (p o st : Nat) (w : Scanned)

/-- What neither a change of the commands in flight nor one of the segments touches stays while probes wait. -/
theorem State.probesNoted_keeps {β : Type} (g : State → β) (hCmds : ∀ s f, g (State.mapCmds s f) = g s)
    (hPasses : ∀ s ps, g { s with scan := { s.scan with passes := ps } } = g s) : g (s.probesNoted p o st w) = g s :=
  (State.noteVersionWait_keeps g hCmds _ st w _).trans (State.assignEngines_keeps g hPasses s)

theorem State.startPass_besidePasses (ws : List Waiting) (d : CollData) :
    (s.startPass p o st w ws d).besidePasses = s.besidePasses :=
  (State.assignEngines_keeps State.besidePasses (fun _ _ => rfl) _).trans
    (foldl_keeps State.besidePasses _ _ _ (fun _ _ => State.joinPass_keeps State.besidePasses (fun _ _ => rfl) _ _ _ _ _))

/-- Whether a probe is due does not change while the probes note their waits. -/
theorem State.probesNoted_passDue (ws : List Waiting) (l : Bool) (h : Waiting) :
    (s.probesNoted p o st w).passDue ws w l h = s.passDue ws w l h := by
  have hTimer : (s.probesNoted p o st w).hif = s.hif := s.probesNoted_keeps p o st w State.hif (fun _ _ => rfl) (fun _ _ => rfl)
  simp only [State.passDue, hTimer]

end

section
variable {s : State} {p o st : Nat} {w : Scanned} {l : Bool}

/-- With no probe due, no free engine or the stack out of service, no pass starts (R152, R174, R176). -/
theorem passStart_of_idle (h : (s.probesWaiting p o st w).find? (s.passDue (s.probesWaiting p o st w) w l) = none ∨
    (s.probesNoted p o st w).freeEngine p st = none ∨ (s.probesNoted p o st w).stackOutFor p st = true) :
    passStart p o st w l s = s.probesNoted p o st w := by
  rw [← funext (s.probesNoted_passDue p o st w _ l)] at h
  unfold passStart
  dsimp only
  split
  next hDue hFree =>
    split
    · rfl
    next hOut =>
      rcases h with h | h | h
      · exact absurd (hDue.symm.trans h) (by simp)
      · exact absurd (hFree.symm.trans h) (by simp)
      · exact absurd h hOut
  · rfl

/-- With a probe due, an engine free and the stack in service, one pass starts for the probes that share it (R152). -/
theorem passStart_of_due {h : Waiting} {e : Nat}
    (hDue : (s.probesWaiting p o st w).find? (s.passDue (s.probesWaiting p o st w) w l) = some h)
    (hFree : (s.probesNoted p o st w).freeEngine p st = some e) (hOut : (s.probesNoted p o st w).stackOutFor p st = false) :
    passStart p o st w l s =
      (s.probesNoted p o st w).startPass p o st w (sharePass (s.probesWaiting p o st w) w h) h.d := by
  rw [← funext (s.probesNoted_passDue p o st w _ l)] at hDue
  unfold passStart
  dsimp only
  split
  next hDue' _ =>
    obtain rfl := Option.some.inj (hDue'.symm.trans hDue)
    exact if_neg (ne_true_of_eq_false hOut)
  next hNone => exact absurd hFree (hNone _ _ hDue)

end

/-- The probes that share a pass are of one version, which is in memory (R152). -/
theorem of_mem_sharePass {ws : List Waiting} {w : Scanned} {h0 h : Waiting} (hMem : h ∈ sharePass ws w h0) :
    h.mem = true ∧ sameVersion h.d h0.d w = true :=
  Bool.and_eq_true_iff.mp (List.mem_filter.mp (List.mem_of_mem_take hMem)).2

/-- Both instructions start passes; GATHER_LIMIT does at the gather limit alone. -/
theorem exec_passStart (part : BitVec 4) (coll : BitVec 10) (list : Option (BitVec 16)) (stack : Fin 12) (limit : Bool) (s : State) :
    exec (if limit then .gatherLimit part coll list stack else .scanPassStart part coll list stack) s =
      .next (passStart part.toNat coll.toNat stack.val (scannedOf list stack.val) limit s) := by
  cases limit <;> rfl

/-- Settles O30: no pass starts or one does, and the probes that share it are of one version. -/
theorem scanPassesStart : Obligations.ScanPassesStart := by
  unfold Obligations.ScanPassesStart
  intro s part coll list stack limit i w s0 ws s1 due
  have hExec : exec i s = .next (passStart part.toNat coll.toNat stack.val w limit s) := exec_passStart part coll list stack limit s
  refine ⟨fun hIdle => hExec.trans (congrArg _ (passStart_of_idle hIdle)), fun h0 h => of_mem_sharePass, fun h e hDue hFree hOut => ?_⟩
  have hNext : s1.scan.nextPass = s.scan.nextPass :=
    s.probesNoted_keeps part.toNat coll.toNat stack.val w (fun s => s.scan.nextPass) (fun _ _ => rfl) (fun _ _ => rfl)
  have hBeside : s1.besidePasses = s.besidePasses :=
    s.probesNoted_keeps part.toNat coll.toNat stack.val w State.besidePasses (fun _ _ => rfl) (fun _ _ => rfl)
  refine ⟨_, hExec.trans (congrArg _ (passStart_of_due hDue hFree hOut)), ?_, ?_, ?_⟩
  · rw [State.startPass_nextPass]
    exact congrArg (· + _) hNext
  · rw [← hNext]
    exact State.startPass_first _ _ _ _ _ _ _
  · exact State.eq_of_besidePasses ((State.startPass_besidePasses _ _ _ _ _ _ _).trans hBeside)

end Sys2Proof.Machine
end

section
/-!
SUPPORT. The running threshold and the cut-off (R167, R168, R189).
-/

namespace Sys2Proof.Machine

/-! ### THETA_UPDATE (R189) -/

/-- The entries of query q that set θ on a stack: the best of those held that are settled. -/
def thetaBest (c : Cmd) (w : QueryWork) (q : QState) (d : CollData) (st : Nat) : List Cand :=
  let p := queryParams c w q
  bestOf (similarity d.cfg) 32 p.dedup p.depth (q.held.filter (fun x => x.stack == st && (!p.dedup || settled d q x)))

/-- A segment with the query slots of query i of command n under a new θ, where the query holds an entry on its stack. -/
def Pass.withTheta (d : CollData) (q : QState) (n i st score : Nat) (a : Pass) : Pass :=
  { a with served := a.served.map (fun v =>
      if v.cmd = n ∧ v.q = i ∧ scanHome d a.what = st ∧ q.thetaSlots.contains a.stack then { v with theta := some score } else v) }

/-- θ of query i of command n on a stack is a score, and the segments have it. -/
def State.putTheta (s : State) (d : CollData) (q : QState) (n i st score : Nat) : State :=
  let t := s.modQuery n i (fun q => { q with theta := tset q.theta st score })
  { t with scan := { t.scan with passes := t.scan.passes.map (Pass.withTheta d q n i st score) } }

section
variable {s : State} {n i : Nat} {c : Cmd} {w : QueryWork} {q : QState} {d : CollData}
  (h : s.servedOf { cmd := n, q := i } = some (c, w, q, d)) {st : Nat}
include h

theorem thetaUpdate_of_few (hFew : (thetaBest c w q d st).length < (queryParams c w q).depth) : thetaUpdate n i st s = s := by
  unfold thetaBest at hFew
  simp [thetaUpdate, h, hFew]

section
variable {z : Cand} (hMany : (queryParams c w q).depth ≤ (thetaBest c w q d st).length) (hz : (thetaBest c w q d st).getLast? = some z)
include hMany hz

theorem thetaUpdate_of_worse {t : Nat × Nat} (ht : q.theta.find? (fun t => t.1 == st) = some t)
    (hWorse : orderKey (similarity d.cfg) 32 t.2 < orderKey (similarity d.cfg) 32 z.score) : thetaUpdate n i st s = s := by
  unfold thetaBest at hMany hz
  simp [thetaUpdate, h, Nat.not_lt.mpr hMany, hz, ht, hWorse]

theorem thetaUpdate_of_better (hBetter : ∀ t, q.theta.find? (fun t => t.1 == st) = some t →
    orderKey (similarity d.cfg) 32 z.score ≤ orderKey (similarity d.cfg) 32 t.2) :
    thetaUpdate n i st s = s.putTheta d q n i st z.score := by
  unfold thetaBest at hMany hz
  cases ht : q.theta.find? (fun t => t.1 == st) with
  | none =>
    simp only [thetaUpdate, h, Nat.not_lt.mpr hMany, hz, ht, ↓reduceIte]
    rfl
  | some t =>
    simp only [thetaUpdate, h, Nat.not_lt.mpr hMany, hz, ht, Nat.not_lt.mpr (hBetter t ht), ↓reduceIte]
    rfl

end

/-- The query under its new θ. -/
theorem State.servedOf_putTheta (score : Nat) : ∃ c' w',
    (s.putTheta d q n i st score).servedOf { cmd := n, q := i } = some (c', w', { q with theta := tset q.theta st score }, d) :=
  ⟨_, _, State.servedOf_modQuery s h _⟩

end

/-! ### COVERAGE_CUTOFF (R167, R168) -/

section
variable (s : State) (p : Nat)

/-- A query that the cut-off has met is written, refused or has its mask. -/
theorem State.fixQuery_settled (q : QState) :
    (s.fixQuery p q).written = true ∨ (s.fixQuery p q).bad = true ∨ (s.coverage? p (s.fixQuery p q)).isSome = true := by
  unfold State.fixQuery
  split
  next h =>
    rcases h with hWritten | hFixed | hBad | ⟨_, hCover⟩
    · exact .inl hWritten
    · obtain ⟨m, hm⟩ := Option.isSome_iff_exists.mp hFixed
      exact .inr (.inr (by simp [State.coverage?, hm]))
    · exact .inr (.inl hBad)
    · exact .inr (.inr hCover)
  next => exact .inr (.inr rfl)

end

/-- The masks and held entries of a command's queries. -/
def Cmd.masks (c : Cmd) : List (Option Nat × List Cand) := (c.query.getD {}).qs.map (fun q => (q.fixed, q.held))

/-- A command with each of its queries changed. -/
def Cmd.mapQueries (f : QState → QState) (c : Cmd) : Cmd := { c with query := c.query.map (fun w => { w with qs := w.qs.map f }) }

/-- A change of each query that keeps its mask and its entries. -/
theorem Cmd.masks_mapQueries {f : QState → QState} (hf : ∀ q, ((f q).fixed, (f q).held) = (q.fixed, q.held)) (c : Cmd) :
    (c.mapQueries f).masks = c.masks := by
  unfold Cmd.masks Cmd.mapQueries
  cases c.query with
  | none => rfl
  | some w => simp [hf]

section
variable (s : State) (m : Nat)

/-- The end of a pass changes the queries of every command, none of their masks and none of their entries (R191). -/
theorem State.passEnd_eq (pass st : Nat) : ∃ f : QState → QState, (∀ q, ((f q).fixed, (f q).held) = (q.fixed, q.held)) ∧
    s.passEnd pass st = s.mapCmds (Cmd.mapQueries f) := by
  refine ⟨_, fun q => ?_, rfl⟩
  dsimp only
  split <;> rfl

theorem State.passEnd_masks (pass st : Nat) : ((s.passEnd pass st).cmd? m).map Cmd.masks = (s.cmd? m).map Cmd.masks := by
  obtain ⟨f, hf, hEnd⟩ := s.passEnd_eq pass st
  rw [hEnd, State.cmd?_mapCmds, Option.map_map]
  · exact congrArg (fun g => (s.cmd? m).map g) (funext (Cmd.masks_mapQueries hf))
  · exact fun _ => rfl

/-- Threshold table entries go with no mask and no held entry. -/
theorem State.freeTheta_masks (n : Nat) : ((s.freeTheta n).cmd? m).map Cmd.masks = (s.cmd? m).map Cmd.masks :=
  State.cmd?_map_modCmd s Cmd.masks m n (fun _ => rfl) (Cmd.masks_mapQueries (fun _ => rfl))

end

/-- The masks of the queries of command n are fixed. -/
def State.masksFixed (s : State) (n p : Nat) (c : Cmd) : State :=
  s.modCmd n (fun e => { e with query := e.query.map (fun w => { w with qs := (c.query.getD {}).qs.map (s.fixQuery p) }) })

/-- A query slot of command n whose probe the cut-off has withdrawn from its pass. -/
def State.cutOff (s : State) (n p : Nat) (c : Cmd) (a : Pass) (v : Served) : Bool :=
  v.cmd == n && (match ((c.query.getD {}).qs.map (s.fixQuery p))[v.q]? with
    | some q => (q.probes.getD []).any (fun b => b.left == some a.pass)
    | none => false)

section
variable {s : State} {n : Nat} {c : Cmd} (hc : s.cmd? n = some c)
include hc

theorem coverageCutoff_of_early (h : s.hif.timer < c.stamp + 850 * qosBound c.qos + c.heldFor ∨ qosPartial c.qos = false) :
    coverageCutoff n s = s := by
  rcases h with h | h
  · simp [coverageCutoff, hc, Nat.not_le.mpr h]
  · simp [coverageCutoff, hc, h]

theorem coverageCutoff_of_due (hSearch : isSearch (dOpcode c.desc) = true)
    (hDue : c.stamp + 850 * qosBound c.qos + c.heldFor ≤ s.hif.timer) (hPartial : qosPartial c.qos = true)
    (hRuns : ctxRuns (s.ctx c.ctx) = true) :
    coverageCutoff n s =
      (((s.masksFixed n c.part c).leavePasses (s.cutOff n c.part c)).freeTheta n).assignEngines := by
  unfold coverageCutoff
  rw [hc]
  exact if_neg (by simp [hSearch, hDue, hPartial, hRuns])

theorem State.masksFixed_masks (p : Nat) : ((s.masksFixed n p c).cmd? n).map Cmd.masks =
    some (((c.query.getD {}).qs.map (s.fixQuery p)).map (fun q => (q.fixed, q.held))) := by
  rw [State.masksFixed, State.cmd?_modCmd_same, hc]
  · cases hw : c.query <;> simp [Cmd.masks, hw]
  · exact fun _ => rfl

end

section
variable (s : State) (n p : Nat) (c : Cmd)

/-- The state that the cut-off of command n leaves. -/
def State.afterCutoff : State := (((s.masksFixed n p c).leavePasses (s.cutOff n p c)).freeTheta n).assignEngines

/-- What neither the commands in flight, nor the contexts, nor the segments touch, the cut-off leaves alone. -/
theorem State.afterCutoff_keeps {β : Type} (g : State → β) (hCmds : ∀ s f, g (State.mapCmds s f) = g s)
    (hCtx : ∀ s x f, g (State.modCtx s x f) = g s) (hPasses : ∀ s ps, g { s with scan := { s.scan with passes := ps } } = g s) :
    g (s.afterCutoff n p c) = g s :=
  calc
    _ = g (((s.masksFixed n p c).leavePasses (s.cutOff n p c)).freeTheta n) := State.assignEngines_keeps g hPasses _
    _ = g ((s.masksFixed n p c).leavePasses (s.cutOff n p c)) := hCmds _ _
    _ = g (s.masksFixed n p c) :=
      State.leavePasses_keeps g (State.chargeSegment_keeps g hCtx) hPasses (fun _ _ _ => hCmds _ _) _ _
    _ = g s := hCmds _ _

/-- The queries keep the masks and entries that the cut-off gave them. -/
theorem State.afterCutoff_masks : ((s.afterCutoff n p c).cmd? n).map Cmd.masks = ((s.masksFixed n p c).cmd? n).map Cmd.masks :=
  let g := fun s : State => (s.cmd? n).map Cmd.masks
  (State.assignEngines_keeps g (fun _ _ => rfl) _).trans ((State.freeTheta_masks _ n n).trans
    (State.leavePasses_keeps g (State.chargeSegment_keeps g (fun _ _ _ => rfl)) (fun _ _ => rfl) (fun s => s.passEnd_masks n) _ _))

/-- No segment stays that serves no query. -/
theorem State.serves_of_mem_afterCutoff {a : Pass} (h : a ∈ (s.afterCutoff n p c).scan.passes) :
    a.served.any (fun v => !v.left) = true := by
  obtain ⟨b, hb, hEq⟩ := State.of_mem_assignEngines h
  have hServed : b.unassigned.served = a.unassigned.served := congrArg Pass.served hEq
  exact (congrArg (fun l => l.any (fun v => !v.left)) hServed).symm.trans (State.serves_of_mem_leavePasses hb)

end

/-- The state but for the commands in flight, the contexts and the segments. -/
def State.besideCutoff (s : State) : State :=
  { s with qm := { s.qm with cmds := [] }, sch := { s.sch with ctxs := [] }, scan := { s.scan with passes := [] } }

/-- Two states that agree beside a cut-off differ in the commands in flight, the contexts and the segments alone. -/
theorem State.eq_of_besideCutoff {s t : State} (h : t.besideCutoff = s.besideCutoff) :
    t = { s with qm := { s.qm with cmds := t.qm.cmds }, sch := { s.sch with ctxs := t.sch.ctxs },
                 scan := { s.scan with passes := t.scan.passes } } :=
  congrArg (fun x : State => { x with qm := { x.qm with cmds := t.qm.cmds }, sch := { x.sch with ctxs := t.sch.ctxs },
                                      scan := { x.scan with passes := t.scan.passes } }) h

theorem exec_thetaUpdate (n i : Nat) (stack : Fin 12) (s : State) :
    exec (.thetaUpdate n i stack) s = .next (thetaUpdate n i stack.val s) := rfl
theorem exec_coverageCutoff (n : Nat) (s : State) : exec (.coverageCutoff n) s = .next (coverageCutoff n s) := rfl

/-- Settles O32: θ follows the worst of the best entries held, and the cut-off fixes the masks, case by case. -/
theorem thresholdsAndCutoff : Obligations.ThresholdsAndCutoff := by
  unfold Obligations.ThresholdsAndCutoff
  refine ⟨?_, ?_⟩
  · intro s n i stack c w q d h p sim best reached
    rw [exec_thetaUpdate]
    refine ⟨fun hFew => congrArg _ (thetaUpdate_of_few h hFew), fun z hMany hz => ⟨?_, fun hBetter => ?_⟩⟩
    · rintro ⟨t, ht, hWorse⟩
      exact congrArg _ (thetaUpdate_of_worse h hMany hz ht hWorse)
    · obtain ⟨c', w', hServed⟩ := State.servedOf_putTheta h (st := stack.val) z.score
      refine ⟨_, c', w', _, congrArg _ (thetaUpdate_of_better h hMany hz hBetter), hServed, tget_tset_same _ _ _ _,
        fun x hx => tget_tset_ne _ _ _ hx, fun a ha => List.mem_map_of_mem ha, rfl⟩
  · intro s n c hc hSearch
    rw [exec_coverageCutoff]
    refine ⟨fun hEarly => congrArg _ (coverageCutoff_of_early hc hEarly), fun hDue hPartial hRuns => ⟨?_, ?_⟩⟩
    · intro q hq
      obtain ⟨q0, _, rfl⟩ := List.mem_map.mp hq
      exact s.fixQuery_settled c.part q0
    · obtain ⟨c', hc', hMasks⟩ := Option.map_eq_some_iff.mp ((s.afterCutoff_masks n c.part c).trans (State.masksFixed_masks hc c.part))
      exact ⟨s.afterCutoff n c.part c, c', congrArg _ (coverageCutoff_of_due hc hSearch hDue hPartial hRuns), hc', hMasks,
        fun a => s.serves_of_mem_afterCutoff n c.part c,
        State.eq_of_besideCutoff (s.afterCutoff_keeps n c.part c State.besideCutoff (fun _ _ => rfl) (fun _ _ _ => rfl) (fun _ _ => rfl))⟩

end Sys2Proof.Machine
end

section
/-!
SUPPORT. What reading slots for a query brings (R183, R189, R192, R193, R196).
-/

namespace Sys2Proof.Machine

/-! ### One slot for one query -/

/-- The version of what is scanned, as records carry it. -/
def scanVersion (d : CollData) (w : Scanned) : Nat := match w with | .list l => (d.lists.getD l {}).epoch | .shard _ => 0

/-- The record of a slot for query slot j with no ID (Table 6.10). -/
def Pass.record (a : Pass) (d : CollData) (q : QState) (v : Served) (j : Nat) (r : SlotRow) : Record :=
  { score := v.score d q r, slot := r.slot, list := scanList a.what, tag := a.id, qslot := j, id := 0, version := scanVersion d a.what }

/-- The lines that exclude a slot for a query slot of a segment. -/
def State.rowBad (s : State) (a : Pass) (d : CollData) (v : Served) (r : SlotRow) : List Nat :=
  slotBad s.lineBad (fun ln => !s.usable ln) d.cfg (scanCols d a.what a.stack) (!idsFar d a.what) v.filter.isSome r.slot

section
variable {s : State} {a : Pass} {d : CollData} {q : QState} {v : Served} {j : Nat} {x : Reading} {r : SlotRow}

/-- A slot brings no record, or one with its ID, whose line is then read where IDs lie in the far tier (R192). -/
theorem State.readRow_cases : ((s.readRow a d q v j x r).records = x.records ∧ (s.readRow a d q v j x r).far = x.far) ∨
    ∃ y : Record, y.slot = r.slot ∧ (s.readRow a d q v j x r).records = x.records ++ [(y, r.entry.id)] ∧
      (s.readRow a d q v j x r).far = if idsFar d a.what then x.far ++ [idLine (scanCols d a.what a.stack) r.slot] else x.far := by
  unfold State.readRow
  dsimp only
  split
  · exact .inl ⟨rfl, rfl⟩
  split
  · exact .inl ⟨rfl, rfl⟩
  split
  · exact .inl ⟨rfl, rfl⟩
  split
  · exact .inl ⟨rfl, rfl⟩
  split
  · exact .inl ⟨rfl, rfl⟩
  · exact .inr ⟨_, rfl, rfl, rfl⟩

section
variable (hGood : s.rowBad a d v r = [])
include hGood

theorem State.not_rowBad : ¬ (!(s.rowBad a d v r).isEmpty) = true := by simp [hGood]

theorem State.readRow_of_dropped (hDrop : v.drops r = true) : s.readRow a d q v j x r = x := by
  unfold State.readRow
  exact (if_neg (State.not_rowBad hGood)).trans (if_pos hDrop)

variable (hKept : v.drops r = false)
include hKept

theorem State.readRow_of_nan (hNan : isNaN .fp32 (v.score d q r) = true) :
    s.readRow a d q v j x r = { x with nans := x.nans ++ [r.slot] } := by
  unfold State.readRow
  exact (if_neg (State.not_rowBad hGood)).trans ((if_neg (ne_true_of_eq_false hKept)).trans (if_pos hNan))

variable (hNum : isNaN .fp32 (v.score d q r) = false)
include hNum

theorem State.readRow_of_withheld (hWorse : s.withholds d v (v.score d q r) = true) : s.readRow a d q v j x r = x := by
  unfold State.readRow
  exact (if_neg (State.not_rowBad hGood)).trans ((if_neg (ne_true_of_eq_false hKept)).trans
    ((if_neg (ne_true_of_eq_false hNum)).trans (if_pos hWorse)))

variable (hSent : s.withholds d v (v.score d q r) = false)
include hSent

/-- A slot that is sent brings its record, with its ID where that lies in the stack and can be read. -/
theorem State.readRow_of_sent
    (hLine : ¬ ((!idsFar d a.what) = true ∧ s.lineBad (idLine (scanCols d a.what a.stack) r.slot) = true)) :
    s.readRow a d q v j x r =
      { x with records := x.records ++ [({ a.record d q v j r with id := if idsFar d a.what then 0 else r.entry.id }, r.entry.id)],
               far := if idsFar d a.what then x.far ++ [idLine (scanCols d a.what a.stack) r.slot] else x.far } := by
  unfold State.readRow
  exact (if_neg (State.not_rowBad hGood)).trans ((if_neg (ne_true_of_eq_false hKept)).trans
    ((if_neg (ne_true_of_eq_false hNum)).trans ((if_neg (ne_true_of_eq_false hSent)).trans (if_neg hLine))))

theorem State.readRow_of_near (hNear : idsFar d a.what = false) (hLine : s.lineBad (idLine (scanCols d a.what a.stack) r.slot) = false) :
    s.readRow a d q v j x r = { x with records := x.records ++ [({ a.record d q v j r with id := r.entry.id }, r.entry.id)] } := by
  rw [State.readRow_of_sent hGood hKept hNum hSent (by simp [hLine]), hNear]
  rfl

theorem State.readRow_of_far (hFar : idsFar d a.what = true) :
    s.readRow a d q v j x r = { x with far := x.far ++ [idLine (scanCols d a.what a.stack) r.slot],
                                       records := x.records ++ [(a.record d q v j r, r.entry.id)] } := by
  rw [State.readRow_of_sent hGood hKept hNum hSent (by simp [hFar]), hFar]
  rfl

end
end

/-! ### The far ID lines of records (R192) -/

/-- A reading names the ID line of each of its records where IDs lie in the far tier. -/
def Reading.farListed (a : Pass) (d : CollData) (x : Reading) : Prop :=
  ∀ r ∈ x.records, idsFar d a.what = true → idLine (scanCols d a.what a.stack) r.1.slot ∈ x.far

section
variable (s : State) (a : Pass) (d : CollData) (q : QState) (v : Served) (j : Nat)

theorem State.readRow_farListed {x : Reading} (h : x.farListed a d) (r : SlotRow) : (s.readRow a d q v j x r).farListed a d := by
  unfold Reading.farListed at h ⊢
  rcases State.readRow_cases (s := s) (a := a) (d := d) (q := q) (v := v) (j := j) (x := x) (r := r) with
    ⟨hRec, hFar⟩ | ⟨y, hSlot, hRec, hFar⟩
  · rwa [hRec, hFar]
  · intro z hz hIds
    rw [hRec] at hz
    rw [hFar, if_pos hIds]
    rcases List.mem_append.mp hz with hOld | hNew
    · exact List.mem_append_left _ (h z hOld hIds)
    · obtain rfl := List.mem_singleton.mp hNew
      exact List.mem_append_right _ (by simp [hSlot])

theorem State.foldl_readRow_farListed (rows : List SlotRow) {x : Reading} (h : x.farListed a d) :
    (rows.foldl (s.readRow a d q v j) x).farListed a d := by
  induction rows generalizing x with
  | nil => exact h
  | cons r rows ih => exact ih (s.readRow_farListed a d q v j h r)

end

theorem State.readFor_farListed {s : State} {a : Pass} {v : Served} {c : Cmd} {w : QueryWork} {q : QState} {d : CollData}
    (h : s.servedOf v = some (c, w, q, d)) (hi j : Nat) : (s.readFor a hi (v, j)).farListed a d := by
  have hNone : ({} : Reading).farListed a d := fun r hr => absurd hr List.not_mem_nil
  unfold State.readFor
  cases hLeft : v.left with
  | true => exact hNone
  | false =>
    simp only [h, Bool.false_eq_true, ↓reduceIte]
    exact s.foldl_readRow_farListed a d q v j _ hNone

end Sys2Proof.Machine
end

section
/-!
SUPPORT. Segments that read on (R155, R175, R192, R352).
-/

namespace Sys2Proof.Machine

/-! ### What a segment asks for, and what it leaves -/

/-- What each query slot of a segment reads on to slot `hi j`. -/
def State.readings (s : State) (a : Pass) (hi : Nat → Nat) : List Reading := a.served.zipIdx.map (fun v => s.readFor a (hi v.2) v)

/-- The segment once its queries have read on. -/
def State.passRead (s : State) (a : Pass) (d : CollData) (hi : Nat → Nat) : Pass :=
  a.read (lineVectors d a.what a.stack) hi (s.readings a hi)

/-- The slots that the segment reads for the first time. -/
def State.slotCount (s : State) (a : Pass) (d : CollData) (hi : Nat → Nat) : Nat :=
  ((segSlots d a a.upto (s.passRead a d hi).upto).filter (s.slotRead d a)).length

/-- The far ID lines, and the records, that the queries read. -/
def State.farCount (s : State) (a : Pass) (hi : Nat → Nat) : Nat := sumN ((s.readings a hi).map (fun x => x.far.length))
def State.recordCount (s : State) (a : Pass) (hi : Nat → Nat) : Nat := sumN ((s.readings a hi).map (fun x => x.records.length))

/-- The request of the reads on the partition's regulators (R352). -/
def State.readAsk (s : State) (a : Pass) (d : CollData) (hi : Nat → Nat) : Bool × State :=
  s.bwRequest a.part ((a.served.filter (fun v => !v.left)).map (fun v => (v.cmd, passInv a.pass)))
    [(s.scanReg a, scanBytes d a (s.slotCount a d hi)), (2, 64 * s.farCount a hi)]

/-- The records have reached the hub. -/
def State.recordsTaken (s : State) (a : Pass) (d : CollData) (hi : Nat → Nat) : State :=
  (a.served.zip (s.readings a hi)).foldl (fun s e => s.takeRecords a d e.1 e.2) (s.readAsk a d hi).2

/-- The segment has read on, and its slots, records and far lines are counted. -/
def State.afterRead (s : State) (a : Pass) (d : CollData) (hi : Nat → Nat) : State :=
  (((s.recordsTaken a d hi).modPass a.id (fun _ => s.passRead a d hi)).countScan a.stack (s.slotCount a d hi)
    (s.recordCount a hi)).randServed (s.farCount a hi)

/-- Every line that the queries read can be served. -/
def State.readsGood (s : State) (a : Pass) (hi : Nat → Nat) : Prop :=
  ∀ x ∈ s.readings a hi, x.lines = [] ∧ ∀ l ∈ x.far, s.lineBad l = false

/-- The state but for what a read of a segment's slots changes first: the commands in flight and the partitions. -/
def State.besideReads (s : State) : State := { s with qm := { s.qm with cmds := [] }, sch := { s.sch with parts := [] } }

/-- Two states that agree beside reads differ in the commands in flight and the partitions alone. -/
theorem State.eq_of_besideReads {s t : State} (h : t.besideReads = s.besideReads) :
    t = { s with qm := { s.qm with cmds := t.qm.cmds }, sch := { s.sch with parts := t.sch.parts } } :=
  congrArg (fun x : State => { x with qm := { x.qm with cmds := t.qm.cmds }, sch := { x.sch with parts := t.sch.parts } }) h

/-- A change of a partition that keeps its state keeps that of every partition. -/
theorem State.part_modPart_state (s : State) (p x : Nat) {f : Partition → Partition} (hf : ∀ q, (f q).state = q.state) :
    ((s.modPart p f).part x).state = (s.part x).state := by
  by_cases hx : x = p
  · rw [hx, State.part_modPart_same, hf]
  · rw [State.part_modPart_ne s f hx]

/-- A request changes of a partition its regulators' levels alone. -/
theorem State.bwRequest_part_state (s : State) (p : Nat) (ws rs : List (Nat × Nat)) (x : Nat) :
    ((s.bwRequest p ws rs).2.part x).state = (s.part x).state := by
  have hCharge (s : State) (r : Nat × Nat) : ((s.bwCharge p r.1 r.2).part x).state = (s.part x).state := by
    unfold State.bwCharge
    split
    · rfl
    · exact State.part_modPart_state s p x (fun _ => rfl)
  let g := fun s : State => (s.part x).state
  unfold State.bwRequest
  split
  · calc
      _ = g (rs.foldl (fun s r => s.bwCharge p r.1 r.2) s) := foldl_keeps g _ _ _ (fun _ _ => by rfl)
      _ = g s := foldl_keeps g _ _ _ hCharge
  · exact foldl_keeps g _ _ _ (fun _ _ => by rfl)

section
variable (s : State) (a : Pass) (d : CollData) (hi : Nat → Nat)

/-- What no change of a query touches, records that reach the hub leave alone. -/
theorem State.recordsTaken_keeps {β : Type} (g : State → β) (hQuery : ∀ s n i f, g (State.modQuery s n i f) = g s) :
    g (s.recordsTaken a d hi) = g (s.readAsk a d hi).2 := foldl_keeps g _ _ _ (fun _ _ => hQuery _ _ _ _)

theorem State.recordsTaken_besideReads : (s.recordsTaken a d hi).besideReads = s.besideReads :=
  (s.recordsTaken_keeps a d hi State.besideReads (fun _ _ _ _ => rfl)).trans
    (State.bwRequest_keeps State.besideReads (fun _ _ _ => rfl) (fun _ _ _ _ => rfl) (fun _ _ _ _ => rfl) _ _ _ _)

theorem State.readAsk_lineBad (l : Nat) : (s.readAsk a d hi).2.lineBad l = s.lineBad l :=
  State.bwRequest_keeps (fun s : State => s.lineBad l) (fun _ _ _ => rfl) (fun _ _ _ _ => rfl) (fun _ _ _ _ => rfl) _ _ _ _

theorem State.recordsTaken_lineBad (l : Nat) : (s.recordsTaken a d hi).lineBad l = s.lineBad l :=
  (s.recordsTaken_keeps a d hi (fun s : State => s.lineBad l) (fun _ _ _ _ => rfl)).trans (s.readAsk_lineBad a d hi l)

/-- What the times of a command's waits do not touch, the request leaves every command. -/
theorem State.readAsk_cmd? {β : Type} (view : Cmd → β) (hGo : ∀ i t c, view (bwGo i t c) = view c)
    (hWait : ∀ i t c, view (bwWait i t c) = view c) (n : Nat) :
    ((s.readAsk a d hi).2.cmd? n).map view = (s.cmd? n).map view :=
  State.bwRequest_keeps (fun s : State => (s.cmd? n).map view) (fun _ _ _ => rfl)
    (fun s _ i t => s.cmd?_map_modCmd view n _ (fun _ => rfl) (hGo i t))
    (fun s _ i t => s.cmd?_map_modCmd view n _ (fun _ => rfl) (hWait i t)) _ _ _ _

end

section
variable {s : State} {a : Pass} {c : Cmd} {w : QueryWork} {q : QState} {d : CollData} {hi : Nat → Nat}
  (h : a.served.findSome? s.servedOf = some (c, w, q, d))
include h

theorem State.readOn_of_waiting (hWait : (s.readAsk a d hi).1 = false) : s.readOn a hi = s.readAsk a d hi := by
  unfold State.readOn
  rw [h]
  exact if_pos (congrArg not hWait)

/-- With tokens and every line good, no read meets a line that cannot be served. -/
theorem State.readOn_of_good (hAsk : (s.readAsk a d hi).1 = true) (hGood : s.readsGood a hi) :
    s.readOn a hi = (true, s.afterRead a d hi) := by
  have hMet : (s.readings a hi).flatMap (fun x => x.lines ++ x.far.filter (s.recordsTaken a d hi).lineBad) = [] := by
    refine List.flatMap_eq_nil_iff.mpr (fun x hx => ?_)
    obtain ⟨hLines, hFar⟩ := hGood x hx
    simpa [hLines, State.recordsTaken_lineBad] using hFar
  unfold State.readOn
  rw [h]
  refine (if_neg (show ¬ (!(s.readAsk a d hi).1) = true by simp [hAsk])).trans (congrArg (Prod.mk true) ?_)
  change (((State.meetRead _ ((s.readings a hi).flatMap (fun x =>
    x.lines ++ x.far.filter (s.recordsTaken a d hi).lineBad))).modPass _ _).countScan _ _ _).randServed _ = _
  rw [hMet]
  rfl

end

end Sys2Proof.Machine
end

section
/-!
SUPPORT. The segment, its counts and its queries after it has read on (R189, R192, R193).
-/

namespace Sys2Proof.Machine

section
variable (s : State) (a : Pass) (d : CollData) (hi : Nat → Nat)

/-- The records that reach the hub change the commands in flight, and the request the partitions. -/
theorem State.recordsTaken_eq : ∃ cs ps, s.recordsTaken a d hi =
    { s with qm := { s.qm with cmds := cs }, sch := { s.sch with parts := ps } } :=
  ⟨_, _, State.eq_of_besideReads (s.recordsTaken_besideReads a d hi)⟩

/-- A segment that reads on changes commands, partitions, segments and counts alone. -/
theorem State.afterRead_frame : let t := s.afterRead a d hi
    t = { s with qm := { s.qm with cmds := t.qm.cmds }, sch := { s.sch with parts := t.sch.parts },
                 scan := { s.scan with passes := t.scan.passes, emit := t.scan.emit, read := t.scan.read },
                 mem := { s.mem with randLines := satN 64 (s.mem.randLines + s.farCount a hi) } } := by
  obtain ⟨cs, ps, h⟩ := s.recordsTaken_eq a d hi
  dsimp only [State.afterRead]
  rw [h]
  rfl

theorem State.afterRead_scan : (s.afterRead a d hi).scan = { s.scan with
    passes := s.scan.passes.map (fun y => if y.id = a.id then s.passRead a d hi else y),
    read := lmod s.scan.read a.stack (fun k => (k + s.slotCount a d hi) % 2 ^ 64),
    emit := lmod s.scan.emit a.stack (fun k => (k + s.recordCount a hi) % 2 ^ 64) } := by
  obtain ⟨cs, ps, h⟩ := s.recordsTaken_eq a d hi
  rw [State.afterRead, h]
  rfl

theorem State.afterRead_read (h : a.stack < s.scan.read.length) : lget 0 (s.afterRead a d hi).scan.read a.stack =
    (lget 0 s.scan.read a.stack + s.slotCount a d hi) % 2 ^ 64 := by
  rw [State.afterRead_scan]
  exact lget_lmod_same 0 _ h

theorem State.afterRead_emit (h : a.stack < s.scan.emit.length) : lget 0 (s.afterRead a d hi).scan.emit a.stack =
    (lget 0 s.scan.emit a.stack + s.recordCount a hi) % 2 ^ 64 := by
  rw [State.afterRead_scan]
  exact lget_lmod_same 0 _ h

theorem State.passRead_mem_afterRead (h : a ∈ s.scan.passes) : s.passRead a d hi ∈ (s.afterRead a d hi).scan.passes := by
  rw [State.afterRead_scan]
  exact List.mem_map.mpr ⟨a, h, if_pos rfl⟩

theorem State.mem_afterRead_of_ne {y : Pass} (h : y ∈ s.scan.passes) (hne : y.id ≠ a.id) : y ∈ (s.afterRead a d hi).scan.passes := by
  rw [State.afterRead_scan]
  exact List.mem_map.mpr ⟨y, h, if_neg hne⟩

/-- The segment of the number that has read on is the one that reading on makes. -/
theorem State.find?_afterRead (h : a ∈ s.scan.passes) :
    (s.afterRead a d hi).scan.passes.find? (fun y => y.id == a.id) = some (s.passRead a d hi) := by
  obtain ⟨y, hy⟩ := Option.isSome_iff_exists.mp (List.find?_isSome (p := fun y : Pass => y.id == a.id).mpr
    ⟨_, s.passRead_mem_afterRead a d hi h, beq_self_eq_true a.id⟩)
  have hId : y.id = a.id := by simpa using List.find?_some hy
  have hMem := List.mem_of_find?_eq_some hy
  rw [State.afterRead_scan] at hMem
  obtain ⟨z, _, rfl⟩ := List.mem_map.mp hMem
  rw [hy]
  split at hId
  next hz => rw [if_pos hz]
  next hz => exact absurd hId hz

theorem State.afterRead_part_state (x : Nat) : ((s.afterRead a d hi).part x).state = (s.part x).state :=
  (s.recordsTaken_keeps a d hi (fun s => (s.part x).state) (fun _ _ _ _ => rfl)).trans (State.bwRequest_part_state s _ _ _ x)

/-- Every command stays in its context. -/
theorem State.afterRead_cmd?_ctx (n : Nat) : ((s.afterRead a d hi).cmd? n).map Cmd.ctx = (s.cmd? n).map Cmd.ctx :=
  (s.recordsTaken_keeps a d hi (fun s => (s.cmd? n).map Cmd.ctx)
    (fun s _ _ _ => s.cmd?_map_modCmd Cmd.ctx n _ (fun _ => rfl) (fun _ => rfl))).trans
    (s.readAsk_cmd? a d hi Cmd.ctx (fun _ _ _ => rfl) (fun _ _ _ => rfl) n)

@[simp] theorem State.afterRead_mem : (s.afterRead a d hi).mem = { s.mem with randLines := satN 64 (s.mem.randLines + s.farCount a hi) } :=
  (congrArg State.mem (s.afterRead_frame a d hi) :)
@[simp] theorem State.afterRead_hostMem : (s.afterRead a d hi).hostMem = s.hostMem :=
  (congrArg State.hostMem (s.afterRead_frame a d hi) :)
@[simp] theorem State.afterRead_jrn : (s.afterRead a d hi).jrn = s.jrn := (congrArg State.jrn (s.afterRead_frame a d hi) :)
@[simp] theorem State.afterRead_models : (s.afterRead a d hi).models = s.models := (congrArg State.models (s.afterRead_frame a d hi) :)
@[simp] theorem State.afterRead_tiles : (s.afterRead a d hi).tiles = s.tiles := (congrArg State.tiles (s.afterRead_frame a d hi) :)
@[simp] theorem State.afterRead_coll (o : Nat) : (s.afterRead a d hi).coll o = s.coll o :=
  (congrArg (fun t : State => t.coll o) (s.afterRead_frame a d hi) :)
@[simp] theorem State.afterRead_ctx (x : Nat) : (s.afterRead a d hi).ctx x = s.ctx x :=
  (congrArg (fun t : State => t.ctx x) (s.afterRead_frame a d hi) :)

end

/-! ### The entries that the only query of a segment then holds (R192, R199) -/

/-- A query slot serves the same query where its command's queries are the same. -/
theorem State.servedOf_of_queries_eq {s t : State} {v : Served} {c : Cmd} {w : QueryWork} {q : QState} {d : CollData}
    (h : s.servedOf v = some (c, w, q, d)) (hQuery : (t.cmd? v.cmd).map Cmd.query = (s.cmd? v.cmd).map Cmd.query) :
    ∃ c', t.servedOf v = some (c', w, q, d) := by
  obtain ⟨hc, rfl, hq, hd⟩ := (State.servedOf_eq_some s).mp h
  rw [hc] at hQuery
  obtain ⟨c', hc', hEq⟩ := Option.map_eq_some_iff.mp hQuery
  exact ⟨c', (State.servedOf_eq_some t).mpr ⟨hc', by rw [hEq], hq, hd⟩⟩

/-- Records whose ID lines can all be read are held with their scores, slots and IDs. -/
theorem State.held_takeRecords {s : State} {a : Pass} {v : Served} {c : Cmd} {w : QueryWork} {q : QState} {d : CollData} {x : Reading}
    (h : s.servedOf v = some (c, w, q, d)) (hFar : x.farListed a d) (hGood : ∀ l ∈ x.far, s.lineBad l = false) :
    ∃ c' w' q', (s.takeRecords a d v x).servedOf v = some (c', w', q', d) ∧
      q'.held.map (fun e => (e.score, e.slot, e.id)) = q.held.map (fun e => (e.score, e.slot, e.id)) ++
        (x.records.filter (fun r => decide (v.top ≤ r.1.slot))).map (fun r => (r.1.score, r.1.slot, r.2)) := by
  refine ⟨_, _, _, s.servedOf_modQuery h _, ?_⟩
  have hKept : ∀ r ∈ x.records.filter (fun r => decide (v.top ≤ r.1.slot)),
      (!(idsFar d a.what && s.lineBad (idLine (scanCols d a.what a.stack) r.1.slot))) = true := by
    intro r hr
    cases hIds : idsFar d a.what with
    | false => rfl
    | true => simp [hGood _ (hFar r (List.mem_filter.mp hr).1 hIds)]
  simp only [List.filter_eq_self.mpr hKept, List.map_append, List.map_map]
  rfl

section
variable {s : State} {a : Pass} {v : Served} {x : Reading} {hi : Nat → Nat} (hOne : a.served = [v]) (hRead : s.readings a hi = [x])
include hOne hRead

theorem State.recordsTaken_of_single (d : CollData) : s.recordsTaken a d hi = (s.readAsk a d hi).2.takeRecords a d v x := by
  rw [State.recordsTaken, hOne, hRead]
  rfl

/-- The only query of a segment holds what it held and the records that it read. -/
theorem State.held_afterRead {c : Cmd} {w : QueryWork} {q : QState} {d : CollData} (h : s.servedOf v = some (c, w, q, d))
    (hGood : s.readsGood a hi) : ∃ c' w' q', (s.afterRead a d hi).servedOf v = some (c', w', q', d) ∧
      q'.held.map (fun e => (e.score, e.slot, e.id)) = q.held.map (fun e => (e.score, e.slot, e.id)) ++
        (x.records.filter (fun r => decide (v.top ≤ r.1.slot))).map (fun r => (r.1.score, r.1.slot, r.2)) := by
  obtain ⟨c1, h1⟩ := State.servedOf_of_queries_eq h (s.readAsk_cmd? a d hi Cmd.query (fun _ _ _ => rfl) (fun _ _ _ => rfl) v.cmd)
  have hFar : x.farListed a d := by
    rw [State.readings, hOne] at hRead
    obtain rfl := List.head_eq_of_cons_eq hRead
    exact State.readFor_farListed h _ _
  have hLines : ∀ l ∈ x.far, (s.readAsk a d hi).2.lineBad l = false := by
    intro l hl
    rw [State.readAsk_lineBad]
    exact (hGood x (hRead ▸ List.mem_singleton_self x)).2 l hl
  have hTaken := State.held_takeRecords h1 hFar hLines
  rw [← State.recordsTaken_of_single hOne hRead d] at hTaken
  exact hTaken

end

end Sys2Proof.Machine
end

section
/-!
SUPPORT. Segments that end (R191, R193, R198, R200, R350), and the statement about candidate records and segments.
-/

namespace Sys2Proof.Machine

/-! ### The end of a segment -/

/-- The counts and reports of a segment's end have reached its queries. -/
def State.delivered (s : State) (a : Pass) : State := a.served.zipIdx.foldl (fun s e => s.deliver a e) s

/-- The saturated elements of a segment's slots join its collection's counts of drift (R200, R201). -/
def State.driftCounted (s : State) (a : Pass) (d : CollData) : State :=
  let rd := s.slotsRead d a
  if d.cfg.codeType = 2 ∨ d.cfg.codeType = 3 then
    s.driftAdd a.coll (rd.length * d.cfg.dim) (sumN (rd.map (fun x => codeHits d.cfg x.entry.code)))
  else s

/-- A segment has gone, and its pass ends with its last segment. -/
def State.passClosed (s : State) (a : Pass) : State :=
  if s.scan.passes.any (fun x => x.pass == a.pass) then s else s.passEnd a.pass a.stack

/-- The segments but the one of a number. -/
def State.dropPass (s : State) (id : Nat) : State :=
  { s with scan := { s.scan with passes := s.scan.passes.filter (fun x => x.id != id) } }

/-- A segment whose time is charged has gone, and waiting segments take engines. -/
def State.segmentGone (s : State) (a : Pass) (d : CollData) : State := (((s.dropPass a.id).driftCounted a d).passClosed a).assignEngines

/-- A segment has ended, with its counts and reports delivered and its engine's time charged. -/
def State.segmentEnded (s : State) (a : Pass) (d : CollData) : State := ((s.delivered a).chargeSegment a).segmentGone a d

theorem State.endSegment_eq (s : State) (a : Pass) (d : CollData) : s.endSegment a d = (s.segmentEnded a d).pauseSettle a.part := rfl

/-- A partition that is not pausing has nothing to settle. -/
theorem State.pauseSettle_of_active {s : State} {p : Nat} (h : (s.part p).state = .active) : s.pauseSettle p = s := by
  simp [State.pauseSettle, h]

section
variable {β : Type} (g : State → β)

/-- What no change of a query touches, a segment's counts and reports leave alone. -/
theorem State.delivered_keeps (hQuery : ∀ s n i f, g (State.modQuery s n i f) = g s) (s : State) (a : Pass) :
    g (s.delivered a) = g s := by
  refine foldl_keeps g _ _ _ (fun s e => ?_)
  unfold State.deliver
  split
  · rfl
  · exact hQuery _ _ _ _

variable (hCmds : ∀ s f, g (State.mapCmds s f) = g s) (hDrift : ∀ s o e h, g (State.driftAdd s o e h) = g s)
  (hPasses : ∀ s ps, g { s with scan := { s.scan with passes := ps } } = g s)
include hCmds hDrift hPasses

/-- What neither the commands in flight, nor the counts of drift, nor the segments touch, a segment that goes leaves alone. -/
theorem State.segmentGone_keeps (s : State) (a : Pass) (d : CollData) : g (s.segmentGone a d) = g s := by
  have hDrop (s : State) (id : Nat) : g (s.dropPass id) = g s := hPasses _ _
  have hCounted (s : State) : g (s.driftCounted a d) = g s := by
    unfold State.driftCounted
    dsimp only
    split
    · exact hDrift _ _ _ _
    · rfl
  have hClosed (s : State) : g (s.passClosed a) = g s := by
    unfold State.passClosed
    split
    · rfl
    · exact hCmds _ _
  rw [State.segmentGone, State.assignEngines_keeps g hPasses, hClosed, hCounted, hDrop]

/-- What contexts do not touch either, a segment's end leaves alone. -/
theorem State.segmentEnded_keeps (hCtx : ∀ s x f, g (State.modCtx s x f) = g s) (s : State) (a : Pass) (d : CollData) :
    g (s.segmentEnded a d) = g s := by
  rw [State.segmentEnded, State.segmentGone_keeps g hCmds hDrift hPasses, State.chargeSegment_keeps g hCtx,
    State.delivered_keeps g (fun _ _ _ _ => hCmds _ _)]

end

section
variable (s : State) (a : Pass) (d : CollData)

@[simp] theorem State.event_part (code sev kind unit d0 d1 p : Nat) : (s.event code sev kind unit d0 d1).part p = s.part p := by
  simp [State.part]
@[simp] theorem State.event_ctx (code sev kind unit d0 d1 x : Nat) : (s.event code sev kind unit d0 d1).ctx x = s.ctx x := by
  simp [State.ctx]

/-- What neither an event nor a change of commands, contexts, collections or segments touches, a segment's end leaves alone. -/
theorem State.segmentEnded_keeps_of_event {β : Type} (g : State → β) (hCmds : ∀ s f, g (State.mapCmds s f) = g s)
    (hCtx : ∀ s x f, g (State.modCtx s x f) = g s) (hColl : ∀ s o f, g (State.modColl s o f) = g s)
    (hPasses : ∀ s ps, g { s with scan := { s.scan with passes := ps } } = g s)
    (hEvent : ∀ s code sev kind unit d0 d1, g (State.event s code sev kind unit d0 d1) = g s) : g (s.segmentEnded a d) = g s :=
  State.segmentEnded_keeps g hCmds (State.driftAdd_keeps g hColl hEvent) hPasses hCtx s a d

@[simp] theorem State.segmentEnded_mem : (s.segmentEnded a d).mem = s.mem :=
  s.segmentEnded_keeps_of_event a d State.mem (fun _ _ => rfl) (fun _ _ _ => rfl) (fun _ _ _ => rfl) (fun _ _ => rfl) State.event_mem
@[simp] theorem State.segmentEnded_hostMem : (s.segmentEnded a d).hostMem = s.hostMem :=
  s.segmentEnded_keeps_of_event a d State.hostMem (fun _ _ => rfl) (fun _ _ _ => rfl) (fun _ _ _ => rfl) (fun _ _ => rfl)
    State.event_hostMem
@[simp] theorem State.segmentEnded_jrn : (s.segmentEnded a d).jrn = s.jrn :=
  s.segmentEnded_keeps_of_event a d State.jrn (fun _ _ => rfl) (fun _ _ _ => rfl) (fun _ _ _ => rfl) (fun _ _ => rfl) State.event_jrn
@[simp] theorem State.segmentEnded_models : (s.segmentEnded a d).models = s.models :=
  s.segmentEnded_keeps_of_event a d State.models (fun _ _ => rfl) (fun _ _ _ => rfl) (fun _ _ _ => rfl) (fun _ _ => rfl) State.event_models
@[simp] theorem State.segmentEnded_tiles : (s.segmentEnded a d).tiles = s.tiles :=
  s.segmentEnded_keeps_of_event a d State.tiles (fun _ _ => rfl) (fun _ _ _ => rfl) (fun _ _ _ => rfl) (fun _ _ => rfl) State.event_tiles
@[simp] theorem State.segmentEnded_read : (s.segmentEnded a d).scan.read = s.scan.read :=
  s.segmentEnded_keeps_of_event a d (fun s => s.scan.read) (fun _ _ => rfl) (fun _ _ _ => rfl) (fun _ _ _ => rfl) (fun _ _ => rfl)
    (fun _ _ _ _ _ _ _ => congrArg Scan.read (State.event_scan _ _ _ _ _ _ _))
@[simp] theorem State.segmentEnded_part (p : Nat) : (s.segmentEnded a d).part p = s.part p :=
  s.segmentEnded_keeps_of_event a d (fun s => s.part p) (fun _ _ => rfl) (fun _ _ _ => rfl) (fun _ _ _ => rfl) (fun _ _ => rfl)
    (fun s _ _ _ _ _ _ => s.event_part _ _ _ _ _ _ p)

/-- A segment's end changes of a collection the counts of drift alone. -/
@[simp] theorem State.segmentEnded_coll_data (o : Nat) : ((s.segmentEnded a d).coll o).data = (s.coll o).data :=
  State.segmentEnded_keeps (fun s => (s.coll o).data) (fun _ _ => rfl)
    (fun s x e h => by obtain ⟨v, hv⟩ := s.driftAdd_coll x e h o; simp [hv]) (fun _ _ => rfl) (fun _ _ _ => rfl) s a d

/-- No segment of the number stays. -/
theorem State.ne_of_mem_segmentEnded {y : Pass} (h : y ∈ (s.segmentEnded a d).scan.passes) : y.id ≠ a.id := by
  obtain ⟨z, hz, hEq⟩ := State.of_mem_assignEngines h
  have hId : z.id = y.id := (congrArg Pass.id hEq :)
  have hClosed (s : State) : (s.passClosed a).scan = s.scan := by
    unfold State.passClosed
    split <;> rfl
  have hCounted (s : State) : (s.driftCounted a d).scan = s.scan := by
    unfold State.driftCounted
    dsimp only
    split
    · exact State.driftAdd_keeps State.scan (fun _ _ _ => rfl) State.event_scan _ _ _ _
    · rfl
  rw [hClosed, hCounted] at hz
  rw [← hId]
  simpa using (List.mem_filter.mp hz).2

end

/-! ### The engine time of a segment with one query (R350) -/

/-- The whole time of a segment that serves one query is that query's. -/
theorem State.chargeSegment_of_single {s : State} {a : Pass} {v : Served} {c : Cmd} (hOne : a.served = [v]) (hLeft : v.left = false)
    (hc : s.cmd? v.cmd = some c) : s.chargeSegment a = s.chargeEngine c.ctx a.busy := by
  simp [State.chargeSegment, hOne, hLeft, hc, Nat.mod_one]

/-- The segment's only query stays its only one as it reads on. -/
theorem State.passRead_of_single {s : State} {a : Pass} {v : Served} (d : CollData) (hi : Nat → Nat) (hOne : a.served = [v])
    (hLeft : v.left = false) : ∃ v', (s.passRead a d hi).served = [v'] ∧ v'.cmd = v.cmd ∧ v'.left = false := by
  simp [State.passRead, Pass.read, hOne, hLeft]

/-- The context of the only query of a segment is charged its engine's time. -/
theorem State.segmentEnded_engine {s : State} {a : Pass} {v : Served} {x : Nat} (d : CollData) (hOne : a.served = [v])
    (hLeft : v.left = false) (hc : (s.cmd? v.cmd).map Cmd.ctx = some x) (hFree : (s.ctx x).borrower = none) :
    ((s.segmentEnded a d).ctx x).engine = ((s.ctx x).engine + a.busy) % 2 ^ 64 := by
  have hCtx : (s.delivered a).ctx x = s.ctx x := State.delivered_keeps (fun s => s.ctx x) (fun _ _ _ _ => rfl) s a
  rw [← State.delivered_keeps (fun s => (s.cmd? v.cmd).map Cmd.ctx)
    (fun s _ _ _ => s.cmd?_map_modCmd Cmd.ctx _ _ (fun _ => rfl) (fun _ => rfl)) s a] at hc
  obtain ⟨c, hCmd, rfl⟩ := Option.map_eq_some_iff.mp hc
  have hGone := State.segmentGone_keeps (fun s => s.ctx c.ctx) (fun _ _ => rfl)
    (State.driftAdd_keeps (fun s => s.ctx c.ctx) (fun _ _ _ => rfl) (fun s _ _ _ _ _ _ => s.event_ctx _ _ _ _ _ _ c.ctx))
    (fun _ _ => rfl) ((s.delivered a).chargeSegment a) a d
  have hCharge : (((s.delivered a).chargeSegment a).ctx c.ctx) = Context.charge a.busy (s.ctx c.ctx) := by
    rw [State.chargeSegment_of_single hOne hLeft hCmd, State.chargeEngine, hCtx, hFree]
    exact (State.ctx_modCtx_same _ _ _).trans (congrArg _ hCtx)
  rw [State.segmentEnded, hGone, hCharge]
  rfl

/-! ### CANDIDATE_RECORD and SEGMENT_DONE -/

theorem exec_candidateRecord (stack : Fin 12) (engine : Fin 18) (query : Fin 32) (slot : Word32) (s : State) :
    exec (.candidateRecord stack engine query slot) s = .next (candidateRecord stack.val engine.val query.val slot.toNat s) := rfl
theorem exec_segmentDone (stack : Fin 12) (engine : Fin 18) (s : State) :
    exec (.segmentDone stack engine) s = .next (segmentDone stack.val engine.val s) := rfl

section
variable {s : State} {st e : Nat}

theorem candidateRecord_of_idle (h : s.segmentOn st e = none) (i slot : Nat) : candidateRecord st e i slot s = s := by
  rw [candidateRecord, h]

theorem segmentDone_of_idle (h : s.segmentOn st e = none) : segmentDone st e s = s := by
  rw [segmentDone, h]

variable {a : Pass} (h : s.segmentOn st e = some a)
include h

theorem State.of_segmentOn : a ∈ s.scan.passes ∧ a.stack = st := by
  have hFound : (a.stack == st && a.engine == some e) = true :=
    List.find?_some (p := fun b : Pass => b.stack == st && b.engine == some e) h
  exact ⟨List.mem_of_find?_eq_some h, beq_iff_eq.mp (Bool.and_eq_true_iff.mp hFound).1⟩

theorem candidateRecord_of_outside {i slot : Nat} (hOut : ¬ (i < a.served.length ∧ a.first ≤ slot ∧ slot < a.first + a.count)) :
    candidateRecord st e i slot s = s := by
  rw [candidateRecord, h]
  exact if_pos (by omega)

theorem candidateRecord_of_inside {i slot : Nat} (hIn : i < a.served.length ∧ a.first ≤ slot ∧ slot < a.first + a.count)
    {hi : Nat → Nat} (hHi : ∀ j, hi j = if j ≤ i then slot + 1 else slot) : candidateRecord st e i slot s = (s.readOn a hi).2 := by
  rw [candidateRecord, h, funext hHi]
  exact if_neg (by omega)

variable {c : Cmd} {w : QueryWork} {q : QState} {d : CollData} (hServed : a.served.findSome? s.servedOf = some (c, w, q, d))
  {hi : Nat → Nat} (hHi : ∀ j, hi j = a.first + a.count)
include hServed hHi

theorem segmentDone_of_waiting (hWait : (s.readAsk a d hi).1 = false) : segmentDone st e s = (s.readAsk a d hi).2 := by
  rw [segmentDone, h]
  simp only [hServed, ← funext hHi, State.readOn_of_waiting hServed hWait, hWait]
  rfl

/-- A segment that has read its rest ends; where its partition is active, no PAUSE settles with it. -/
theorem segmentDone_of_good (hAsk : (s.readAsk a d hi).1 = true) (hGood : s.readsGood a hi) (hActive : (s.part a.part).state = .active) :
    segmentDone st e s = (s.afterRead a d hi).segmentEnded (s.passRead a d hi) d := by
  have hPart : (((s.afterRead a d hi).segmentEnded (s.passRead a d hi) d).part a.part).state = .active := by
    rw [State.segmentEnded_part, State.afterRead_part_state, hActive]
  rw [segmentDone, h]
  simp only [hServed, ← funext hHi, State.readOn_of_good hServed hAsk hGood, State.find?_afterRead s a d hi (State.of_segmentOn h).1]
  rw [State.endSegment_eq]
  exact State.pauseSettle_of_active hPart

end

/-- Settles O31: a slot brings what it brings once, a segment reads on to a slot, and a segment ends with what it read. -/
theorem candidatesCrossAndSegmentsEnd : Obligations.CandidatesCrossAndSegmentsEnd := by
  unfold Obligations.CandidatesCrossAndSegmentsEnd
  refine ⟨?_, ?_, ?_⟩
  · intro s a d q v j x r k sc version rec0 hGood
    refine ⟨State.readRow_of_dropped hGood, State.readRow_of_nan hGood, State.readRow_of_withheld hGood, fun hKept hNum hSent =>
      ⟨State.readRow_of_near hGood hKept hNum hSent, State.readRow_of_far hGood hKept hNum hSent⟩⟩
  · intro s stack engine a c w q d i hi hOn hServed xs b rd far ws g good
    obtain ⟨hMem, hStack⟩ := State.of_segmentOn hOn
    have hLt : a.stack < 12 := hStack ▸ stack.isLt
    refine ⟨?_, ?_⟩
    · rintro query slot rfl there
      rw [exec_candidateRecord]
      refine ⟨fun hOut => congrArg _ (candidateRecord_of_outside hOn hOut), fun hIn hHi =>
        ⟨fun hWait => ?_, fun hAsk hGood hEmit hRead => ?_⟩⟩
      · exact congrArg _ ((candidateRecord_of_inside hOn hIn hHi).trans (congrArg Prod.snd (State.readOn_of_waiting hServed hWait)))
      · rw [candidateRecord_of_inside hOn hIn hHi, State.readOn_of_good hServed hAsk hGood]
        refine ⟨_, rfl, s.afterRead_read a d hi (hRead ▸ hLt), s.afterRead_emit a d hi (hEmit ▸ hLt),
          s.passRead_mem_afterRead a d hi hMem,
          fun y => s.mem_afterRead_of_ne a d hi, fun v x hOne hOnly => ?_, s.afterRead_frame a d hi⟩
        rw [hOne, List.findSome?_singleton] at hServed
        exact State.held_afterRead hOne hOnly hServed hGood
    · rintro rfl hHi
      rw [exec_segmentDone]
      refine ⟨fun hWait => congrArg _ (segmentDone_of_waiting hOn hServed hHi hWait), fun hAsk hGood hActive hRead => ?_⟩
      rw [segmentDone_of_good hOn hServed hHi hAsk hGood hActive]
      refine ⟨_, rfl, fun y => State.ne_of_mem_segmentEnded _ _ _, ?_, ?_, ?_, ?_, ?_, ?_, fun o => ?_, fun v hOne hLeft hFree => ?_⟩
      · rw [State.segmentEnded_read]
        exact s.afterRead_read a d hi (hRead ▸ hLt)
      · rw [State.segmentEnded_mem, State.afterRead_mem]
        rfl
      · rw [State.segmentEnded_hostMem, State.afterRead_hostMem]
      · rw [State.segmentEnded_jrn, State.afterRead_jrn]
      · rw [State.segmentEnded_models, State.afterRead_models]
      · rw [State.segmentEnded_tiles, State.afterRead_tiles]
      · rw [State.segmentEnded_coll_data, State.afterRead_coll]
      · rw [hOne, List.findSome?_singleton] at hServed
        obtain ⟨hc, -⟩ := (State.servedOf_eq_some s).mp hServed
        obtain ⟨v', hOne', hCmd, hLeft'⟩ := State.passRead_of_single (s := s) d hi hOne hLeft
        have hCtx : ((s.afterRead a d hi).cmd? v'.cmd).map Cmd.ctx = some c.ctx := by
          rw [State.afterRead_cmd?_ctx, hCmd, hc]
          rfl
        rw [State.segmentEnded_engine d hOne' hLeft' hCtx (by rw [State.afterRead_ctx, hFree]), State.afterRead_ctx]
        rfl
  · intro s stack engine hIdle
    exact ⟨congrArg _ (segmentDone_of_idle hIdle), fun query slot => congrArg _ (candidateRecord_of_idle hIdle query.val slot.toNat)⟩

end Sys2Proof.Machine
end

section
/-!
SUPPORT. What a command's stop leaves alone (R465, Table 16.9): the units, and the bytes of device memory.
-/

namespace Sys2Proof.Machine

/-! ### A step's end leaves device memory alone -/

section
variable (s : State)

@[simp] theorem State.finish_dev (c : Cmd) (st spec0 spec1 : Nat) (result trunc : Bool) :
    (s.finish c st spec0 spec1 result trunc).mem.dev = s.mem.dev := by
  unfold State.finish
  dsimp only
  repeat' split
  all_goals simp

@[simp] theorem State.putImages_dev (p : Nat) (sel : SaveImage → Bool) : (s.putImages p sel).mem.dev = s.mem.dev := by
  unfold State.putImages
  exact foldl_keeps (fun s : State => s.mem.dev) _ _ _ (fun _ _ => rfl)

@[simp] theorem State.restoreFree_dev (p : Nat) : (s.restoreFree p).mem.dev = s.mem.dev := State.putImages_dev _ _ _

@[simp] theorem State.yieldSettle_dev (x : Nat) : (s.yieldSettle x).mem.dev = s.mem.dev := by
  unfold State.yieldSettle
  dsimp only
  repeat' split
  all_goals simp

@[simp] theorem State.saveSettle_dev (x : Nat) : (s.saveSettle x).mem.dev = s.mem.dev := by
  unfold State.saveSettle
  dsimp only
  repeat' split
  all_goals simp

@[simp] theorem State.markHeld_dev (x : Nat) : (s.markHeld x).mem.dev = s.mem.dev := rfl

@[simp] theorem State.borrowSettle_dev (x : Nat) : (s.borrowSettle x).mem.dev = s.mem.dev := by
  unfold State.borrowSettle
  dsimp only
  split <;> simp

@[simp] theorem State.pauseSettle_dev (p : Nat) : (s.pauseSettle p).mem.dev = s.mem.dev := by
  unfold State.pauseSettle
  dsimp only
  repeat' split
  all_goals simp

@[simp] theorem State.settle_dev (x p : Nat) : (s.settle x p).mem.dev = s.mem.dev := by
  unfold State.settle
  simp

@[simp] theorem State.complete_dev (c : Cmd) (st spec0 spec1 : Nat) (result trunc : Bool) :
    (s.complete c st spec0 spec1 result trunc).mem.dev = s.mem.dev := by
  unfold State.complete
  dsimp only
  split <;> simp

@[simp] theorem State.stop_dev (c : Cmd) (st : Nat) : (s.stop c st).mem.dev = s.mem.dev := by
  unfold State.stop
  simp

/-! ### Stopping commands -/

@[simp] theorem State.leavePasses_tst (gone : Pass → Served → Bool) : (s.leavePasses gone).tst = s.tst :=
  State.leavePasses_keeps State.tst (State.chargeSegment_keeps _ (fun _ _ _ => rfl)) (fun _ _ => rfl) (fun _ _ _ => rfl) s gone

@[simp] theorem State.leavePasses_dev (gone : Pass → Served → Bool) : (s.leavePasses gone).mem.dev = s.mem.dev :=
  State.leavePasses_keeps (fun s : State => s.mem.dev) (State.chargeSegment_keeps (fun s : State => s.mem.dev) (fun _ _ _ => rfl))
    (fun _ _ => rfl) (fun _ _ _ => rfl) s gone

@[simp] theorem State.dropHolds_tst (n : Nat) : (s.dropHolds n).tst = s.tst := (s.freeTiles n).leavePasses_tst _
@[simp] theorem State.dropHolds_dev (n : Nat) : (s.dropHolds n).mem.dev = s.mem.dev := (s.freeTiles n).leavePasses_dev _

/-- What a command has done is undone in its collection, its maintenance or its model slot alone (Table 16.9). -/
theorem State.undo_keeps {β : Type} (g : State → β) (hColls : ∀ s ks, g { s with colls := ks } = g s)
    (hJrn : ∀ s j, g { s with jrn := j } = g s) (hModels : ∀ s m, g { s with models := m } = g s) (c : Cmd) : g (s.undo c) = g s := by
  have hRecover (s : State) (o : Nat) : g (s.awaitRecovery o) = g s := 
    (hJrn { s with colls := (s.awaitRecovery o).colls } (s.awaitRecovery o).jrn).trans (hColls s (s.awaitRecovery o).colls)
  unfold State.undo
  dsimp only
  repeat' split
  · rfl
  · exact hColls _ _
  · exact hColls _ _
  · exact hRecover _ _
  · exact hColls _ _
  · exact hColls _ _
  · exact hJrn _ _
  · exact hModels _ _
  · rfl

/-- What neither a change of a command, nor giving up what it holds, nor undoing it, nor its end touches, commands that stop leave
alone. -/
theorem State.abortAll_keeps {β : Type} (g : State → β) (hCmd : ∀ s n f, g (State.modCmd s n f) = g s)
    (hDrop : ∀ s n, g (State.dropHolds s n) = g s) (hUndo : ∀ s c, g (State.undo s c) = g s)
    (hStop : ∀ s c st, g (State.stop s c st) = g s) (p : Cmd → Bool) (st : Nat) (force : Bool) :
    g (s.abortAll p st force) = g s := by
  have hAbort (s : State) (c : Cmd) : g (s.abortCmd c st force) = g s := by
    unfold State.abortCmd
    split
    · split
      · rfl
      · exact hCmd _ _ _
    · split
      · rfl
      · rw [hStop, hUndo, hDrop]
  refine foldl_keeps g _ _ _ (fun s c => ?_)
  split
  · exact hAbort _ _
  · rfl

@[simp] theorem State.abortAll_tst (p : Cmd → Bool) (st : Nat) (force : Bool) : (s.abortAll p st force).tst = s.tst :=
  s.abortAll_keeps State.tst (fun _ _ _ => rfl) State.dropHolds_tst
    (fun s => s.undo_keeps State.tst (fun _ _ => rfl) (fun _ _ => rfl) (fun _ _ => rfl)) State.stop_tst p st force

@[simp] theorem State.abortAll_dev (p : Cmd → Bool) (st : Nat) (force : Bool) : (s.abortAll p st force).mem.dev = s.mem.dev :=
  s.abortAll_keeps (fun s : State => s.mem.dev) (fun _ _ _ => rfl) State.dropHolds_dev
    (fun s => s.undo_keeps (fun s : State => s.mem.dev) (fun _ _ => rfl) (fun _ _ => rfl) (fun _ _ => rfl)) State.stop_dev p st force

end

end Sys2Proof.Machine
end

section
/-!
SUPPORT. Units that fail (R199, R218, R271, R340, R456, R457): which units a failure changes, and what its work's end leaves alone.
-/

namespace Sys2Proof.Machine

/-! ### Units -/

/-- A change that leaves the test block alone leaves every unit alone. -/
theorem State.unit_of_tst {s t : State} (h : t.tst = s.tst) (m : Nat) : t.unit m = s.unit m := by
  simp only [State.unit, h]

section
variable (s : State) (n : Nat) (f : TestUnit → TestUnit)

@[simp] theorem State.unit_modTest_same : (s.modTest n f).unit n = f (s.unit n) := tget_tset_same _ _ _ _
theorem State.unit_modTest_ne {m : Nat} (h : m ≠ n) : (s.modTest n f).unit m = s.unit m := tget_tset_ne _ _ _ h
@[simp] theorem State.setSlot_tst (st k v : Nat) : (s.setSlot st k v).tst = s.tst := rfl

end

/-! ### The record of a failure (R456, R462) -/

section
variable (s : State) (n cause : Nat)

/-- A failure's record changes the unit's entry alone among units. -/
theorem State.unit_recordFailure (m : Nat) : (s.recordFailure n cause).unit m =
    (s.modTest n (fun u => { u with state := .failed, cause := cause, record := true })).unit m :=
  State.unit_of_tst (State.event_tst _ _ _ _ _ _ _) m

theorem State.recordFailure_unit_same :
    (s.recordFailure n cause).unit n = { s.unit n with state := .failed, cause := cause, record := true } := by
  rw [State.unit_recordFailure, State.unit_modTest_same]

theorem State.recordFailure_unit_ne {m : Nat} (h : m ≠ n) : (s.recordFailure n cause).unit m = s.unit m := by
  rw [State.unit_recordFailure, State.unit_modTest_ne _ _ _ h]

@[simp] theorem State.recordFailure_mem : (s.recordFailure n cause).mem = s.mem := State.event_mem _ _ _ _ _ _ _

end

/-! ### A placement with a tile replaced (R366, R368) -/

section
variable (s : State) (p : Nat) (es : List (Nat × Nat)) (bad spare : Nat)

/-- What neither a change of a partition, of a model's activation nor of a tile touches, a table put in force leaves alone. -/
theorem State.applyPlace_keeps {β : Type} (g : State → β) (hPart : ∀ s p f, g (State.modPart s p f) = g s)
    (hModels : ∀ s m, g { s with models := m } = g s)
    (hTile : ∀ s t p, g (State.modTile s t (fun x => if x.lastPart = some p then x else { tileZero x with lastPart := some p })) = g s) :
    g (s.applyPlace p es) = g s := by
  unfold State.applyPlace State.assignTiles
  dsimp only
  rw [foldl_keeps g _ _ _ (fun _ _ => hTile _ _ _), hModels, hPart]

/-- What neither a table put in force nor an event touches, a spare's entry into the placements leaves alone. -/
theorem State.replaceTile_keeps {β : Type} (g : State → β) (hPlace : ∀ s p es, g (State.applyPlace s p es) = g s)
    (hEvent : ∀ s a b c d e f, g (State.event s a b c d e f) = g s) : g (s.replaceTile bad spare) = g s :=
  foldl_keeps g _ _ _ (fun _ _ => (hEvent _ _ _ _ _ _ _).trans (hPlace _ _ _))

@[simp] theorem State.replaceTile_tst : (s.replaceTile bad spare).tst = s.tst :=
  s.replaceTile_keeps bad spare State.tst
    (fun s p es => s.applyPlace_keeps p es State.tst (fun _ _ _ => rfl) (fun _ _ => rfl) (fun _ _ _ => rfl)) State.event_tst

/-- A tile that is zeroed for another partition runs what it ran. -/
theorem State.modTile_running {f : Tile → Tile} (hf : ∀ x, (f x).running = x.running) (t i : Nat) :
    ((s.modTile t f).tile i).running = (s.tile i).running := by
  by_cases h : i = t
  · rw [h, State.tile_modTile_same, hf]
  · rw [State.tile_modTile_ne s f h]

@[simp] theorem State.replaceTile_running (i : Nat) : ((s.replaceTile bad spare).tile i).running = (s.tile i).running :=
  s.replaceTile_keeps bad spare (fun s => (s.tile i).running)
    (fun s p es => s.applyPlace_keeps p es (fun s => (s.tile i).running) (fun _ _ _ => rfl) (fun _ _ => rfl)
      (fun s t p => s.modTile_running (fun x => by split <;> rfl) t i))
    (fun s a b c d e f => by simp [State.tile])

end

/-! ### A tile fails (R271, R457) -/

/-- Tile n stops with its command, and runs nothing. -/
def State.tileStopped (s : State) (n : Nat) : State :=
  (s.abortAll (fun c => (s.tile n).running == some c.seq) stUnitFault false).modTile n (fun t => { t with running := none })

/-- The first spare tile of tile n's cluster. -/
def State.clusterSpare (s : State) (n : Nat) : Option Nat :=
  ((List.range 17).map (fun i => 17 * (n / 17) + i)).find? (fun t => decide ((s.unit t).state = .spare))

section
variable (s : State) (n : Nat)

@[simp] theorem State.tileStopped_tst : (s.tileStopped n).tst = s.tst := State.abortAll_tst _ _ _ _
@[simp] theorem State.tileStopped_running : ((s.tileStopped n).tile n).running = none :=
  congrArg Tile.running (State.tile_modTile_same _ _ _)
theorem State.unit_tileStopped (m : Nat) : (s.tileStopped n).unit m = s.unit m := State.unit_of_tst (s.tileStopped_tst n) m

variable {s n}

theorem State.clusterSpare_of_unit {t : State} (h : ∀ m, decide ((t.unit m).state = .spare) = decide ((s.unit m).state = .spare)) :
    t.clusterSpare n = s.clusterSpare n := by
  simp only [State.clusterSpare, h]

theorem State.state_of_clusterSpare {sp : Nat} (h : s.clusterSpare n = some sp) : (s.unit sp).state = .spare := by
  simpa using List.find?_some h

/-- What becomes of a spare tile that enters service for tile n. -/
def State.tileSpared (s : State) (n sp : Nat) : State :=
  ((((s.tileStopped n).modTest sp (fun u => { u with state := .active })).boostClip).event 0x0012 1 1 n n sp).replaceTile n sp

/-- A spare that fails only stops; a tile in service gives its place to the first spare of its cluster, when one is left. -/
theorem State.tileFails_eq (spared : Bool) : s.tileFails n spared =
    if spared then s.tileStopped n else match s.clusterSpare n with
      | some sp => s.tileSpared n sp
      | none => (s.tileStopped n).event 0x0011 2 1 n (s.tileStopped n).tilesActive 0 := by
  rw [← State.clusterSpare_of_unit (t := s.tileStopped n) (fun m => by rw [s.unit_tileStopped])]
  rfl

theorem State.unit_tileSpared (sp m : Nat) :
    (s.tileSpared n sp).unit m = ((s.tileStopped n).modTest sp (fun u => { u with state := .active })).unit m :=
  State.unit_of_tst ((State.replaceTile_tst _ _ _).trans (State.event_tst _ _ _ _ _ _ _)) m

theorem State.tileSpared_unit_same (sp : Nat) : ((s.tileSpared n sp).unit sp).state = .active := by
  rw [State.unit_tileSpared, State.unit_modTest_same]

/-- Only a spare tile changes when a tile's work ends. -/
theorem State.tileFails_unit_of_not_spare {m : Nat} (spared : Bool) (h : (s.unit m).state ≠ .spare) :
    (s.tileFails n spared).unit m = s.unit m := by
  rw [State.tileFails_eq]
  split
  · exact s.unit_tileStopped n m
  · split
    next sp hSpare =>
      have hNe : m ≠ sp := fun e => h (e ▸ State.state_of_clusterSpare hSpare)
      rw [State.unit_tileSpared, State.unit_modTest_ne _ _ _ hNe, s.unit_tileStopped]
    next => exact State.unit_of_tst ((State.event_tst _ _ _ _ _ _ _).trans (s.tileStopped_tst n)) m

theorem State.tileFails_running (spared : Bool) : ((s.tileFails n spared).tile n).running = none := by
  rw [State.tileFails_eq]
  split
  · exact s.tileStopped_running n
  · split
    next sp _ =>
      rw [State.tileSpared, State.replaceTile_running]
      simp only [State.tile, State.event_tiles]
      exact s.tileStopped_running n
    next =>
      simp only [State.tile, State.event_tiles]
      exact s.tileStopped_running n

end

/-! ### A scan engine fails (R340, R457) -/

/-- Only a spare engine changes when an engine leaves its slot. -/
theorem State.engineFails_unit_of_not_spare {s : State} {n m : Nat} (h : (s.unit m).state ≠ .spare) :
    (s.engineFails n).unit m = s.unit m := by
  unfold State.engineFails
  dsimp only
  split
  · rfl
  · split
    next x hSpare =>
      have hNe : m ≠ engineUnit ((n - 272) / 18) x := by
        rintro rfl
        exact h (by simpa using List.find?_some hSpare)
      exact (State.unit_of_tst ((State.event_tst _ _ _ _ _ _ _).trans (State.setSlot_tst _ _ _ _)) m).trans
        (State.unit_modTest_ne _ _ _ hNe)
    next => exact State.unit_of_tst (State.event_tst _ _ _ _ _ _ _) m

/-! ### UNIT_FAILED (R456, R457) -/

section
variable {s : State} {n : Nat} (cause : Nat)

theorem State.unitFail_of_failed (h : (s.unit n).state = .failed) : s.unitFail n cause = s := if_pos h

/-- A unit that fails is recorded, and its tile or engine leaves its place. -/
theorem State.unitFail_of_working (h : (s.unit n).state ≠ .failed) : s.unitFail n cause =
    if n < 272 then (s.recordFailure n cause).tileFails n (decide ((s.unit n).state = .spare))
    else if n < 488 then (s.recordFailure n cause).engineFails n else s.recordFailure n cause := if_neg h

/-- The entry of a unit that fails holds its failure. -/
theorem State.unitFail_unit (h : (s.unit n).state ≠ .failed) :
    (s.unitFail n cause).unit n = { s.unit n with state := .failed, cause := cause, record := true } := by
  have hSame := s.recordFailure_unit_same n cause
  have hNotSpare : ((s.recordFailure n cause).unit n).state ≠ .spare := by simp [hSame]
  rw [State.unitFail_of_working cause h, ← hSame]
  split
  · exact State.tileFails_unit_of_not_spare _ hNotSpare
  · split
    · exact State.engineFails_unit_of_not_spare hNotSpare
    · rfl

/-- Whether it fails now or has failed before, the unit is FAILED. -/
theorem State.unitFail_state : ((s.unitFail n cause).unit n).state = .failed := by
  by_cases h : (s.unit n).state = .failed
  · rw [State.unitFail_of_failed cause h, h]
  · rw [State.unitFail_unit cause h]

theorem State.unitFail_running (h : (s.unit n).state ≠ .failed) (hTile : n < 272) :
    ((s.unitFail n cause).tile n).running = none := by
  rw [State.unitFail_of_working cause h, if_pos hTile]
  exact State.tileFails_running _

/-- A tile that fails in service is replaced by the first spare of its cluster. -/
theorem State.unitFail_spare {sp : Nat} (hTile : n < 272) (hActive : (s.unit n).state = .active) (hSpare : s.clusterSpare n = some sp) :
    ((s.unitFail n cause).unit sp).state = .active := by
  have hSame : (s.recordFailure n cause).clusterSpare n = s.clusterSpare n := by
    refine State.clusterSpare_of_unit (fun m => ?_)
    by_cases hm : m = n
    · simp [hm, State.recordFailure_unit_same, hActive]
    · rw [State.recordFailure_unit_ne s n cause hm]
  have hFails : s.unitFail n cause = (s.recordFailure n cause).tileSpared n sp := by
    rw [State.unitFail_of_working cause (by simp [hActive]), if_pos hTile, State.tileFails_eq, hSame, hSpare]
    simp [hActive]
  rw [hFails]
  exact State.tileSpared_unit_same sp

end

/-! ### What a failed engine's segments change (R199, R176) -/

section
variable (s : State)

theorem State.stackLost_tst (p st : Nat) : (s.stackLost p st).tst = s.tst := State.leavePasses_tst _ _

theorem State.assignEngines_tst : s.assignEngines.tst = s.tst := s.assignEngines_keeps State.tst (fun _ _ => rfl)

theorem State.moveSegments_tst (st e : Nat) : (s.moveSegments st e).tst = s.tst := by
  refine foldl_keeps State.tst _ _ _ (fun s a => ?_)
  split
  · exact s.abortAll_tst _ _ _
  · split
    · exact s.stackLost_tst _ _
    · exact State.assignEngines_tst _

theorem State.engineLost_tst (n cause : Nat) : (s.engineLost n cause).tst = (s.unitFail n cause).tst :=
  (foldl_keeps State.tst _ _ _ (fun s p => s.stackLost_tst p _)).trans (State.moveSegments_tst _ _ _)

/-- What a unit's failure does to its work leaves the unit's entry as the failure set it. -/
theorem State.unitLost_unit (n cause : Nat) : (s.unitLost n cause).unit n = (s.unitFail n cause).unit n := by
  unfold State.unitLost
  split
  · rfl
  · split
    · exact State.unit_of_tst (s.engineLost_tst n cause) n
    · unfold State.mergeLost
      dsimp only
      split
      next h => rw [State.unitFail_of_failed cause h]
      next h =>
        have hFree : s.free.2.unit n = s.unit n := State.unit_of_tst rfl n
        rw [State.unit_of_tst (State.abortAll_tst _ _ _ _), State.unitFail_unit cause h, State.unitFail_unit cause (hFree ▸ h), hFree]

theorem State.unitLost_state (n cause : Nat) : ((s.unitLost n cause).unit n).state = .failed := by
  rw [State.unitLost_unit, State.unitFail_state]

theorem State.unitLost_cause {n : Nat} (cause : Nat) (h : (s.unit n).state ≠ .failed) : ((s.unitLost n cause).unit n).cause = cause := by
  rw [State.unitLost_unit, State.unitFail_unit cause h]

end

/-! ### The steps -/

theorem exec_tileUnitFault (tile : Fin 272) (s : State) : exec (.tileUnitFault tile) s = .next (s.unitFail tile.val 2) := rfl
theorem exec_scanEngineFault (stack : Fin 12) (engine : Fin 18) (s : State) :
    exec (.scanEngineFault stack engine) s = .next (scanEngineFault stack.val engine.val s) := rfl
theorem exec_mergeUnitFault (cluster : Fin 16) (cmds : List Nat) (s : State) :
    exec (.mergeUnitFault cluster cmds) s = .next (mergeUnitFault cluster.val cmds s) := rfl
theorem exec_unitStall (unit : Fin 504) (s : State) : exec (.unitStall unit) s = .next (unitStall unit.val s) := rfl

/-- A merge unit that works fails, and the searches it holds stop. -/
theorem mergeUnitFault_of_working {s : State} {c : Nat} (cmds : List Nat) (h : (s.unit (488 + c)).state ≠ .failed) :
    ((mergeUnitFault c cmds s).unit (488 + c)) = (s.unitFail (488 + c) 2).unit (488 + c) ∧
    (mergeUnitFault c cmds s).mem.dev = s.mem.dev := by
  have hRecord : s.unitFail (488 + c) 2 = s.recordFailure (488 + c) 2 := by
    rw [State.unitFail_of_working 2 h, if_neg (by omega), if_neg (by omega)]
  rw [mergeUnitFault, if_neg h]
  refine ⟨State.unit_of_tst (State.abortAll_tst _ _ _ _) _, ?_⟩
  rw [State.abortAll_dev, hRecord, State.recordFailure_mem]

/-- Settles O52: a failure fixes the unit's entry, what ends with it changes only spares, and idle units do not fail. -/
theorem unitsFail : Obligations.UnitsFail := by
  unfold Obligations.UnitsFail
  refine ⟨?_, fun s tile => exec_tileUnitFault tile s, ?_, ?_, ?_⟩
  · intro s n cause _
    refine ⟨State.unitFail_of_failed cause, fun h => ?_⟩
    rw [State.unitFail_unit cause h]
    exact ⟨rfl, rfl, rfl, State.unitFail_running cause h, fun sp => State.unitFail_spare cause⟩
  · intro s stack engine
    rw [exec_scanEngineFault, scanEngineFault]
    refine ⟨fun h => by simp [h], fun h => ⟨by simp [Option.isSome_iff_ne_none, h], ?_⟩⟩
    rw [State.unit_of_tst (s.engineLost_tst _ _), State.unitFail_state]
  · intro s cluster cmds
    rw [exec_mergeUnitFault]
    refine ⟨fun h => by rw [mergeUnitFault, if_pos h], fun h => ⟨_, rfl, ?_⟩⟩
    obtain ⟨hUnit, hDev⟩ := mergeUnitFault_of_working cmds h
    rw [hUnit, State.unitFail_unit 2 h]
    exact ⟨rfl, rfl, hDev⟩
  · intro s unit
    rw [exec_unitStall, unitStall]
    refine ⟨fun h => by simp [h], fun h => ⟨_, by rw [if_pos h], s.unitLost_state _ 3, s.unitLost_cause 3⟩⟩

end Sys2Proof.Machine
end

section
/-!
SUPPORT. Test slices of units, rows of tile programs and clears of counters (R201, R204 to R208, R249, R452, R458 to R462).
-/

namespace Sys2Proof.Machine

/-! ### Sorting and cutting into pieces -/

/-- Sorting keeps the elements. -/
theorem mem_sortBy {α : Type} (lt : α → α → Bool) (l : List α) (y : α) : y ∈ sortBy lt l ↔ y ∈ l := by
  have hFold (acc : List α) : y ∈ l.foldl (fun acc x => insertBy lt x acc) acc ↔ y ∈ l ∨ y ∈ acc := by
    induction l generalizing acc with
    | nil => simp
    | cons x l ih => rw [List.foldl_cons, ih, mem_insertBy, List.mem_cons, or_left_comm, or_assoc]
  simpa [sortBy] using hFold []

theorem length_of_mem_piecesOf {α : Type} {n k : Nat} {l r : List α} (h : r ∈ piecesOf n k l) : r.length ≤ n := by
  induction k generalizing l with
  | zero => cases h
  | succ k ih =>
    rcases List.mem_cons.mp h with rfl | h
    · exact List.length_take_le n l
    · exact ih h

/-- Enough pieces hold the whole list. -/
theorem flatten_piecesOf {α : Type} {n k : Nat} {l : List α} (h : l.length ≤ n * k) : (piecesOf n k l).flatten = l := by
  induction k generalizing l with
  | zero => exact (List.eq_nil_of_length_eq_zero (Nat.le_zero.mp h)).symm
  | succ k ih =>
    have hRest : (l.drop n).length ≤ n * k := by
      rw [List.length_drop]
      rw [Nat.mul_succ] at h
      omega
    rw [piecesOf, List.flatten_cons, ih hRest, List.take_append_drop]

theorem le_mul_cdiv (a : Nat) {n : Nat} (hn : 0 < n) : a ≤ n * cdiv a n := by
  have hDiv := Nat.div_add_mod a n
  have hMod := Nat.mod_lt a hn
  unfold cdiv
  split
  next h => simp only [Nat.add_zero]; omega
  next => rw [Nat.mul_add]; omega

/-- The registers of a merge unit hold the whole selection, each at most its entries (R204, R205). -/
theorem flatten_asterRegs (wide : Bool) (es : List AsterEntry) : (asterRegs wide es).flatten = es :=
  flatten_piecesOf (le_mul_cdiv es.length (by cases wide <;> decide))

theorem length_of_mem_asterRegs {wide : Bool} {es r : List AsterEntry} (h : r ∈ asterRegs wide es) :
    r.length ≤ if wide then 128 else 256 := length_of_mem_piecesOf h

/-! ### Rows of tile programs (R204 to R208) -/

theorem length_mergeRowBest (wide sim : Bool) (k : Nat) (row : List (Nat × Nat)) : (mergeRowBest wide sim k row).length ≤ k :=
  List.length_take_le _ _

/-- An entry of the best is one of the row's, and its score is a number. -/
theorem of_mem_mergeRowBest {wide sim : Bool} {k : Nat} {row : List (Nat × Nat)} {e : AsterEntry} (h : e ∈ mergeRowBest wide sim k row) :
    isNaN (if wide then .fp64 else .fp32) e.score = false ∧ ∃ i, i < row.length ∧ e.index = 0xFF000000 + i := by
  obtain ⟨hEntry, hNum⟩ := List.mem_filter.mp ((mem_sortBy _ _ _).mp (List.mem_of_mem_take h))
  obtain ⟨⟨x, i⟩, hx, rfl⟩ := List.mem_map.mp hEntry
  exact ⟨by simpa using hNum, i, List.snd_lt_of_mem_zipIdx hx, rfl⟩

section
variable {t : Nat} {wide sim : Bool} {k : Nat} {row : List (Nat × Nat)} {s : State} {c : Cmd}

theorem mergeRow_of_idle (h : s.tileCmd t = none) : mergeRow t wide sim k row s = s := by
  rw [mergeRow, h]

variable (h : s.tileCmd t = some c)
include h

theorem mergeRow_of_outside (hOut : 2 ^ 24 < row.length ∨ 4096 < k) : mergeRow t wide sim k row s = s.contextFault c.ctx 1 := by
  rw [mergeRow, h]
  exact if_pos hOut

theorem mergeRow_of_inside (hRow : row.length ≤ 2 ^ 24) (hk : k ≤ 4096) {u : Nat} (hUnit : s.mergeUnit c.part = some u) :
    mergeRow t wide sim k row s = { s.modTile t (fun x => { x with pos := x.pos + 1 }) with
      scan := { s.scan with aster := tset s.scan.aster u (wide, asterRegs wide (mergeRowBest wide sim k row)) } } := by
  have hHold : (s.modTile t (fun x => { x with pos := x.pos + 1 })).mergeUnit c.part = some u := hUnit
  rw [mergeRow, h]
  dsimp only
  rw [if_neg (by omega), State.asterHold, hHold]
  rfl

end

/-! ### Test slices (R460, R461) -/

/-- The tests of unit n no longer wait for its tile's work: it has less than the margin left of its period. -/
@[reducible] def State.testForced (s : State) (n : Nat) : Prop :=
  1000000000 * (fld s.tst.ctl 0 16 - fld s.tst.ctl 16 8) ≤ s.hif.timer - (s.unit n).pass

/-- A test slice of unit n runs: tests and rails are on, and the unit is in service and at rest. -/
def State.runsSlice (s : State) (n : Nat) : Prop :=
  flag s.tst.ctl 31 = true ∧ s.module.rails = true ∧ (s.unit n).state ≠ .failed ∧ s.atRest n = true ∧
    (n < 272 → s.pwr.parked.contains n = true → s.testForced n)

section
variable {s : State} {n : Nat}

/-- What TEST_SLICE checks first is that the slice does not run. -/
theorem State.not_runsSlice_iff : ¬ s.runsSlice n ↔
    (!flag s.tst.ctl 31) = true ∨ (!s.module.rails) = true ∨ (s.unit n).state = .failed ∨
    (!s.atRest n) = true ∨ (n < 272 ∧ (!decide (s.testForced n)) = true ∧ s.pwr.parked.contains n = true) := by
  unfold State.runsSlice
  grind

theorem State.runsSlice.working (h : s.runsSlice n) : (s.unit n).state ≠ .failed := by
  obtain ⟨-, -, hState, -, -⟩ := h
  exact hState

theorem testSlice_of_idle (h : ¬ s.runsSlice n) (pass worn : Bool) : testSlice n pass worn s = s :=
  if_pos (State.not_runsSlice_iff.mp h)

theorem testSlice_of_failing (h : s.runsSlice n) (worn : Bool) : testSlice n false worn s = s.unitLost n 1 :=
  if_neg (fun hIdle => State.not_runsSlice_iff.mpr hIdle h)

/-- The unit after a slice that passes at time `now`: the last slice of a pass ends it. -/
def TestUnit.sliced (u : TestUnit) (n now : Nat) : TestUnit :=
  let begun := if u.slices = 0 then now else u.begun
  if u.slices + 1 = passSlices n then { u with pass := begun, begun := begun, slices := 0, overdue := false }
  else { u with begun := begun, slices := u.slices + 1 }

@[simp] theorem TestUnit.sliced_state (u : TestUnit) (n now : Nat) : (u.sliced n now).state = u.state := by
  unfold TestUnit.sliced
  dsimp only
  split <;> rfl

theorem testSlice_of_passing (h : s.runsSlice n) : testSlice n true false s =
    { s with tst := { s.tst with
        units := tset s.tst.units n ((s.unit n).sliced n s.hif.timer),
        passes := if (s.unit n).slices + 1 = passSlices n then (s.tst.passes + 1) % 2 ^ 64 else s.tst.passes } } := by
  refine (if_neg (fun hIdle => State.not_runsSlice_iff.mpr hIdle h)).trans ?_
  unfold TestUnit.sliced
  by_cases hLast : (s.unit n).slices + 1 = passSlices n
  · simp [hLast, State.modTest]
  · simp [hLast, State.modTest]

end

/-! ### A pass that is overdue (R461) -/

/-- TEST_OVERDUE flags unit n: it is in service, not flagged yet, with rails on and a test age past the limit. -/
def State.dueOverdue (s : State) (n : Nat) : Prop :=
  (s.unit n).state ≠ .failed ∧ (s.unit n).overdue = false ∧ s.module.rails = true ∧
    1000000000 * fld s.tst.ctl 0 16 < s.hif.timer - (s.unit n).pass

theorem State.pastPeriod_iff (s : State) (n : Nat) :
    s.pastPeriod n = true ↔ 1000000000 * fld s.tst.ctl 0 16 < s.hif.timer - (s.unit n).pass := decide_eq_true_iff

section
variable {s : State} {n : Nat}

theorem testOverdue_of_due (h : s.dueOverdue n) : testOverdue n s =
    (s.modTest n (fun u => { u with overdue := true })).event 0x0014 2 (testKind n) (testNum n) (s.testAge n) 0 := by
  obtain ⟨hState, hFlag, hRails, hPast⟩ := h
  refine if_neg ?_
  simp [hState, hFlag, hRails, (s.pastPeriod_iff n).mpr hPast]

theorem testOverdue_of_notDue (h : ¬ s.dueOverdue n) : testOverdue n s = s := by
  unfold State.dueOverdue at h
  rw [← State.pastPeriod_iff] at h
  refine if_pos ?_
  grind

end

/-! ### Clears of counters and selections (R201, R249, R452, R458) -/

section
variable {s : State} (h : s.hif.inReset = none)
include h

theorem State.bar0Off_of_noReset : s.bar0Off = false := by simp [State.bar0Off, h]

theorem tstRetest_of_noReset (v : Word32) : tstRetest v s =
    if fld v 16 16 ≠ 0x3D91 then s.hifErr 2
    else if fld v 0 9 < 504 ∧ (s.unit (fld v 0 9)).record = true then
      s.modTest (fld v 0 9) (fun u => { u with record := false, retest := true })
    else s := by
  rw [tstRetest, State.bar0Off_of_noReset h]
  rfl

theorem driftClear_of_noReset (v : Word32) : driftClear v s =
    if flag v 31 = false then s else s.modColl s.scan.satSel (fun k =>
      { k with drift := { k.drift with flag := false, frozen := false, elems := 0, hits := 0 } }) := by
  simp [driftClear, State.bar0Off_of_noReset h]

theorem fmtCtlWrite_of_noReset (v : Word32) : fmtCtlWrite v s = { s with fmt := { s.fmt with
    ctl := v &&& 1, sat := if flag v 1 then 0 else s.fmt.sat, nan := if flag v 1 then 0 else s.fmt.nan } } := by
  rw [fmtCtlWrite, State.bar0Off_of_noReset h]
  rfl

theorem evtSelect_of_noReset (v : Word64) : evtSelect v s = { s with mgt := { s.mgt with
    evtSel := v, selGone := (s.eventAt v.toNat).isNone, evtStatus := if (s.eventAt v.toNat).isNone then 1 else s.mgt.evtStatus } } := by
  rw [evtSelect, State.bar0Off_of_noReset h]
  rfl

end

/-! ### The steps -/

theorem exec_testSlice (unit : Fin 504) (pass worn : Bool) (s : State) :
    exec (.testSlice unit pass worn) s = .next (testSlice unit.val pass worn s) := rfl
theorem exec_testOverdue (unit : Fin 504) (s : State) : exec (.testOverdue unit) s = .next (testOverdue unit.val s) := rfl
theorem exec_tstRetest (v : Word32) (s : State) : exec (.tstRetest v) s = .next (tstRetest v s) := rfl
theorem exec_mergeRow (tile : Fin 272) (wide sim : Bool) (k : Nat) (row : List (Nat × Nat)) (s : State) :
    exec (.mergeRow tile wide sim k row) s = .next (mergeRow tile.val wide sim k row s) := rfl
theorem exec_driftClear (v : Word32) (s : State) : exec (.driftClear v) s = .next (driftClear v s) := rfl
theorem exec_fmtClr (v : Word32) (s : State) : exec (.fmtClr v) s = .next (fmtCtlWrite v s) := rfl
theorem exec_evtSelect (v : Word64) (s : State) : exec (.evtSelect v) s = .next (evtSelect v s) := rfl

/-- Settles O53: a slice that runs counts or fails its unit, a row leaves its best entries in the registers, and each clear changes
the counters it names. -/
theorem unitsAreTestedAndCounted : Obligations.UnitsAreTestedAndCounted := by
  unfold Obligations.UnitsAreTestedAndCounted
  refine ⟨⟨?_, ?_, ?_⟩, ?_, ?_, ?_⟩
  · intro s unit n u force runs
    refine ⟨fun h pass worn => congrArg _ (testSlice_of_idle h pass worn), fun h worn => ?_, fun h => ?_⟩
    · exact ⟨congrArg _ (testSlice_of_failing h worn), s.unitLost_state n 1, s.unitLost_cause 1 (State.runsSlice.working h)⟩
    · rw [exec_testSlice, testSlice_of_passing h]
      refine ⟨_, rfl, fun hMore => ?_, fun hLast => ?_, ?_, fun m hm => tget_tset_ne _ _ _ hm, rfl⟩
      · rw [State.unit, tget_tset_same, TestUnit.sliced, if_neg hMore]
        exact ⟨rfl, rfl, if_neg hMore⟩
      · rw [State.unit, tget_tset_same, TestUnit.sliced, if_pos hLast]
        exact ⟨rfl, rfl, if_pos hLast⟩
      · rw [State.unit, tget_tset_same, TestUnit.sliced_state]
  · intro s unit n due
    exact ⟨fun h => congrArg _ (testOverdue_of_due h), fun h => congrArg _ (testOverdue_of_notDue h)⟩
  · intro s v h
    rw [exec_tstRetest, tstRetest_of_noReset h]
    refine ⟨fun hKey => by rw [if_pos hKey], fun hKey hUnit hRecord => ?_, fun hKey hNone => ?_⟩
    · rw [if_neg (fun hNe => hNe hKey), if_pos ⟨hUnit, hRecord⟩]
    · rw [if_neg (fun hNe => hNe hKey), if_neg (by grind)]
  · intro s tile wide sim k row
    rw [exec_mergeRow]
    refine ⟨fun h => congrArg _ (mergeRow_of_idle h), fun c h => ⟨fun hOut => congrArg _ (mergeRow_of_outside h hOut),
      fun hRow hk u hUnit => ⟨⟨_, congrArg _ (mergeRow_of_inside h hRow hk hUnit), flatten_asterRegs _ _,
        fun r => length_of_mem_asterRegs⟩, length_mergeRowBest wide sim k row, fun e => of_mem_mergeRowBest⟩⟩⟩
  · intro s v h
    rw [exec_driftClear, driftClear_of_noReset h, exec_fmtClr, fmtCtlWrite_of_noReset h]
    exact ⟨fun hDrift => by simp [hDrift], fun hDrift => by simp [hDrift], rfl⟩
  · intro s v h
    rw [exec_evtSelect, evtSelect_of_noReset h]
    exact ⟨fun e he => by simp [he], fun he => by simp [he]⟩

end Sys2Proof.Machine
end

section
/-!
SUPPORT. FILTER_DEFINE and version writes (R185 to R188, R288, R289).
-/

namespace Sys2Proof.Machine

/-! ### Programs by their ID -/

/-- A deleted key reads as the default, every other as before. -/
theorem tget_tdel {α : Type} (d : α) (t : List (Nat × α)) (k j : Nat) : tget d (tdel t k) j = if j = k then d else tget d t j := by
  induction t with
  | nil => simp [tdel]
  | cons p t ih =>
    obtain ⟨k', v⟩ := p
    simp only [tdel] at ih
    by_cases hk : k' = k
    · simp only [tdel, List.filter_cons, hk, ne_eq, not_true, decide_false, Bool.false_eq_true, if_false, ih, tget]
      split
      · rfl
      next h => rw [if_neg (Ne.symm h)]
    · simp only [tdel, List.filter_cons, hk, ne_eq, not_false_eq_true, decide_true, if_true, tget, ih]
      by_cases hj : k' = j
      · simp [← hj, hk]
      · simp [hj]

theorem tget_tset {α : Type} (d : α) (t : List (Nat × α)) (k j : Nat) (v : α) :
    tget d (tset t k v) j = if j = k then v else tget d t j := by
  split
  next h => rw [h, tget_tset_same]
  next h => exact tget_tset_ne d t v h

theorem getElem?_lmod_ne {α : Type} (l : List α) {i m : Nat} (f : α → α) (h : m ≠ i) : (lmod l i f)[m]? = l[m]? := by
  induction l generalizing i m with
  | nil => rfl
  | cons x l ih => cases i with
    | zero => cases m with
      | zero => exact absurd rfl h
      | succ m => rfl
    | succ i => cases m with
      | zero => rfl
      | succ m => exact ih (fun e => h (congrArg Nat.succ e))

/-- A field of one bit is 0 or 1. -/
theorem bitsOf_one_cases (x i : Nat) : bitsOf x i 1 = 0 ∨ bitsOf x i 1 = 1 := Nat.mod_two_eq_zero_or_one _

/-! ### Programs that are put (R188, R299, R436) -/

/-- The event that a definition adds to its collection's chain. -/
def Cmd.filterEvent (c : Cmd) : List Byte :=
  natBytes 1 opFilter ++ natBytes 2 (dSubop c.desc) ++ (if bitsOf (dSubop c.desc) 8 1 = 1 then [] else c.block)

/-- A collection with its new programs and their block. -/
def Coll.withFilters (c : Cmd) (fs : List (Nat × List Byte)) (runs : List (Nat × Extent)) (k : Coll) : Coll :=
  { k with data := { k.data with filters := fs, filterRuns := runs }, g := absorb k.g c.filterEvent }

/-- The device with a collection's new programs, before their command completes. -/
def State.filtersPut (s : State) (c : Cmd) (fs : List (Nat × List Byte)) (runs : List (Nat × Extent)) : State :=
  let o := dObject c.desc
  let img := fun (i : Nat × Image) => if i.1 = o then
    (o, { i.2 with data := { i.2.data with filters := fs }, events := i.2.events ++ [((s.coll o).applied, c.filterEvent)] }) else i
  { s.modColl o (Coll.withFilters c fs runs) with jrn := { s.jrn with images := s.jrn.images.map img, lastUse := s.hif.timer } }

section
variable (s : State) (c : Cmd) (fs : List (Nat × List Byte)) (runs : List (Nat × Extent))

theorem State.putFilters_eq : s.putFilters c fs runs =
    (s.filtersPut c fs runs).complete ((s.filtersPut c fs runs).again c) stOk 0 0 false false := rfl

theorem State.filtersPut_coll_same : (s.filtersPut c fs runs).coll (dObject c.desc) = (s.coll (dObject c.desc)).withFilters c fs runs :=
  State.coll_modColl_same s (dObject c.desc) (Coll.withFilters c fs runs)

theorem State.filtersPut_coll_ne {p : Nat} (h : p ≠ dObject c.desc) : (s.filtersPut c fs runs).coll p = s.coll p :=
  State.coll_modColl_ne s (Coll.withFilters c fs runs) h

end

/-! ### FILTER_DEFINE (R186, R188) -/

/-- The request for the journal that a definition makes. -/
def State.filterAsk (s : State) (n : Nat) (c : Cmd) : Bool × State := s.bwRequest c.part [(n, wholeInv)] [(5, c.block.length)]

/-- Programs put after the request change the collections and, of the journal, its images and its last use. -/
theorem State.filtersPut_ask_frame (s : State) (n : Nat) (c : Cmd) (fs : List (Nat × List Byte)) (runs : List (Nat × Extent)) :
    let t := (s.filterAsk n c).2.filtersPut c fs runs
    t = { (s.filterAsk n c).2 with colls := t.colls, jrn := { s.jrn with images := t.jrn.images, lastUse := s.hif.timer } } := by
  have hHif : (s.filterAsk n c).2.hif = s.hif :=
    State.bwRequest_keeps State.hif (fun _ _ _ => rfl) (fun _ _ _ _ => rfl) (fun _ _ _ _ => rfl) _ _ _ _
  have hJrn : (s.filterAsk n c).2.jrn = s.jrn := State.bwRequest_jrn _ _ _ _
  rw [← hHif, ← hJrn]
  rfl

/-- The programs and their block after command c: its ID deleted, or its program in place. -/
def Cmd.filtersAfter (c : Cmd) (d : CollData) : List (Nat × List Byte) × List (Nat × Extent) :=
  if bitsOf (dSubop c.desc) 8 1 = 1 then (tdel d.filters (dSubop c.desc % 256), if d.filters.length = 1 then [] else d.filterRuns)
  else (tset d.filters (dSubop c.desc % 256) c.block, d.filterRuns)

theorem Cmd.tget_filtersAfter (c : Cmd) (d : CollData) (x : Nat) : tget [] (c.filtersAfter d).1 x =
    if x = dSubop c.desc % 256 then (if bitsOf (dSubop c.desc) 8 1 = 1 then [] else c.block) else tget [] d.filters x := by
  unfold Cmd.filtersAfter
  split
  · exact tget_tdel _ _ _ _
  · exact tget_tset _ _ _ _ _

section
variable {s : State} {n : Nat} {c : Cmd} (h : s.ready? n (· == opFilter) = some c)
include h

theorem filterDefine_of_asleep (hlp : s.jrn.lp ≠ 0) : filterDefine n s = s.wakeStore := by
  rw [filterDefine, h]
  exact if_pos hlp

variable (hlp : s.jrn.lp = 0)
include hlp

theorem filterDefine_of_free (hFree : (s.coll (dObject c.desc)).state = .free) : filterDefine n s = s.refuse c stNoObject := by
  rw [filterDefine, h]
  simp [hlp, hFree]

variable (hState : (s.coll (dObject c.desc)).state ≠ .free)
include hState

theorem filterDefine_of_busy (hServes : (s.coll (dObject c.desc)).serves = false) : filterDefine n s = s.refuse c stBusy := by
  rw [filterDefine, h]
  simp [hlp, hState, hServes]

variable (hServes : (s.coll (dObject c.desc)).serves = true) (hTable : s.tableLinesBad (dObject c.desc) = [])
include hServes hTable

theorem filterDefine_of_closed (hAsk : (s.filterAsk n c).1 = false) : filterDefine n s = (s.filterAsk n c).2 := by
  unfold State.filterAsk at hAsk ⊢
  rw [filterDefine, h]
  simp [hlp, hState, hServes, hTable, hAsk]

variable (hAsk : (s.filterAsk n c).1 = true)
include hAsk

theorem filterDefine_of_malformed (hDef : bitsOf (dSubop c.desc) 8 1 = 0)
    (hOk : filterOk (s.coll (dObject c.desc)).data.cfg.attrBytes c.block = false) : filterDefine n s = s.refuse c stBadContent := by
  unfold State.filterAsk at hAsk
  rw [filterDefine, h]
  simp [hlp, hState, hServes, hTable, hAsk, hDef, hOk]

theorem filterDefine_of_undefined (hDel : bitsOf (dSubop c.desc) 8 1 = 1)
    (hHad : (s.coll (dObject c.desc)).data.filters.any (fun f => f.1 == dSubop c.desc % 256) = false) :
    filterDefine n s = s.refuse c stNoObject := by
  unfold State.filterAsk at hAsk
  rw [filterDefine, h]
  dsimp only
  rw [hHad]
  simp [hlp, hState, hServes, hTable, hAsk, hDel]

/-- A defined ID is deleted, or takes a program that is well formed. -/
theorem filterDefine_of_defined
    (hHad : (s.coll (dObject c.desc)).data.filters.any (fun f => f.1 == dSubop c.desc % 256) = true)
    (hOk : bitsOf (dSubop c.desc) 8 1 = 0 → filterOk (s.coll (dObject c.desc)).data.cfg.attrBytes c.block = true) :
    filterDefine n s = (s.filterAsk n c).2.putFilters c (c.filtersAfter (s.coll (dObject c.desc)).data).1
      (c.filtersAfter (s.coll (dObject c.desc)).data).2 := by
  unfold State.filterAsk at hAsk ⊢
  rw [filterDefine, h]
  dsimp only
  rw [hHad]
  rcases bitsOf_one_cases (dSubop c.desc) 8 with hDef | hDel
  · simp [hlp, hState, hServes, hTable, hAsk, hDef, hOk hDef, Cmd.filtersAfter]
  · simp [hlp, hState, hServes, hTable, hAsk, hDel, Cmd.filtersAfter]

end

/-! ### Version writes (R289) -/

/-- The next version is the newest or one that a reader needs. -/
theorem nextVersion_mem (d : CollData) (w : Scanned) (rs : List CollData) : nextVersion d w rs = d ∨ nextVersion d w rs ∈ rs := by
  unfold nextVersion
  induction rs generalizing d with
  | nil => exact .inl rfl
  | cons x rs ih =>
    rw [List.foldl_cons]
    rcases ih (if x.memVer w < d.memVer w then x else d) with e | e
    · rw [e]
      split
      · exact .inr List.mem_cons_self
      · exact .inl rfl
    · exact .inr (List.mem_cons_of_mem _ e)

theorem nextVersion_le_newest (d : CollData) (w : Scanned) (rs : List CollData) : (nextVersion d w rs).memVer w ≤ d.memVer w := by
  unfold nextVersion
  induction rs generalizing d with
  | nil => exact Nat.le_refl _
  | cons x rs ih =>
    rw [List.foldl_cons]
    refine Nat.le_trans (ih _) ?_
    split
    next h => exact Nat.le_of_lt h
    next => exact Nat.le_refl _

/-- No reader needs an older version. -/
theorem nextVersion_le_of_mem {d x : CollData} {w : Scanned} {rs : List CollData} (h : x ∈ rs) :
    (nextVersion d w rs).memVer w ≤ x.memVer w := by
  induction rs generalizing d with
  | nil => cases h
  | cons y rs ih =>
    rcases List.mem_cons.mp h with rfl | h
    · refine Nat.le_trans (nextVersion_le_newest (if x.memVer w < d.memVer w then x else d) w rs) ?_
      split
      next => exact Nat.le_refl _
      next h => exact Nat.le_of_not_lt h
    · exact ih h

section
variable {s : State} {o : Nat}

theorem versionWrite_of_read {w : Scanned} (h : ∃ x ∈ s.readers o w, x.memVer w ≤ (s.coll o).phys.memVer w) :
    versionWrite o w s = s := by
  refine if_pos ?_
  simpa using h

/-- Memory takes a list's next version, and its buffer entries go with it. -/
theorem versionWrite_of_unread {l : Nat} (h : ∀ x ∈ s.readers o (.list l), (s.coll o).phys.memVer (.list l) < x.memVer (.list l)) :
    versionWrite o (.list l) s = (s.wcbVersion (nextVersion (s.coll o).data (.list l) (s.readers o (.list l))) (.list l)).modColl o
      (fun k => { k with phys := k.phys.putList (nextVersion (s.coll o).data (.list l) (s.readers o (.list l))) l }) := by
  refine if_neg ?_
  simpa using h

theorem CollData.putList_lists_same (p d : CollData) {l : Nat} (h : l < p.lists.length) :
    (p.putList d l).lists[l]? = some (d.lists.getD l {}) := by
  simp only [CollData.putList, getElem?_lmod, List.getElem?_eq_getElem h, Option.map_some]

theorem CollData.putList_lists_ne (p d : CollData) {l m : Nat} (h : m ≠ l) : (p.putList d l).lists[m]? = p.lists[m]? :=
  getElem?_lmod_ne _ _ h

theorem CollData.putList_memVer (p d : CollData) (l : Nat) : (p.putList d l).memVer (.list l) = d.memVer (.list l) :=
  tget_tset_same _ _ _ _

end

/-- What no drop of buffer entries touches, a version write's drops leave alone (R385). -/
theorem State.wcbVersion_keeps {β : Type} (g : State → β) (hDrop : ∀ s a n, g (State.wcbDrop s a n) = g s) (s : State) (d : CollData)
    (w : Scanned) : g (s.wcbVersion d w) = g s := by
  unfold State.wcbVersion
  cases w <;> simp only [hDrop]

/-- The state but for the write-combining buffer. -/
def State.besideBuffer (s : State) : State := { s with mem := { s.mem with wcb := [] } }

theorem State.wcbVersion_besideBuffer (s : State) (d : CollData) (w : Scanned) : (s.wcbVersion d w).besideBuffer = s.besideBuffer :=
  State.wcbVersion_keeps State.besideBuffer (fun _ _ _ => rfl) s d w

theorem State.wcbVersion_eq (s : State) (d : CollData) (w : Scanned) :
    s.wcbVersion d w = { s with mem := { s.mem with wcb := (s.wcbVersion d w).mem.wcb } } :=
  congrArg (fun x : State => { x with mem := { x.mem with wcb := (s.wcbVersion d w).mem.wcb } }) (s.wcbVersion_besideBuffer d w)

theorem State.wcbVersion_coll (s : State) (d : CollData) (w : Scanned) (o : Nat) : (s.wcbVersion d w).coll o = s.coll o :=
  State.wcbVersion_keeps (fun s : State => s.coll o) (fun _ _ _ => rfl) s d w

/-! ### The steps -/

theorem exec_filterDefine (n : Nat) (s : State) : exec (.filterDefine n) s = .next (filterDefine n s) := rfl
theorem exec_versionWrite_list (coll : BitVec 10) (l : Nat) (s : State) :
    exec (.versionWrite coll l false) s = .next (versionWrite coll.toNat (.list l) s) := rfl

/-- Settles O36: the refusals of FILTER_DEFINE in their order and what it puts, and the version that memory takes. -/
theorem filtersAndVersions : Obligations.FiltersAndVersions := by
  unfold Obligations.FiltersAndVersions
  refine ⟨?_, ?_⟩
  · intro s n c h o fid del k had b
    rw [exec_filterDefine]
    refine ⟨fun hlp => congrArg _ (filterDefine_of_asleep h hlp), fun hlp hFree => congrArg _ (filterDefine_of_free h hlp hFree),
      fun hlp hState hServes => congrArg _ (filterDefine_of_busy h hlp hState hServes), fun hlp hState hServes hTable =>
      ⟨fun hAsk => congrArg _ (filterDefine_of_closed h hlp hState hServes hTable hAsk), fun hAsk hHad hOk => ?_,
        fun hAsk hDef hBad => congrArg _ (filterDefine_of_malformed h hlp hState hServes hTable hAsk hDef hBad),
        fun hAsk hDel hNot => congrArg _ (filterDefine_of_undefined h hlp hState hServes hTable hAsk hDel hNot)⟩⟩
    have hColl (p : Nat) : (s.filterAsk n c).2.coll p = s.coll p := State.bwRequest_coll _ _ _ _ p
    rw [filterDefine_of_defined h hlp hState hServes hTable hAsk hHad hOk, State.putFilters_eq]
    refine ⟨_, rfl, fun x => ?_, ?_, ?_, fun p hp => ?_, State.filtersPut_ask_frame s n c _ _⟩
    · rw [State.filtersPut_coll_same]
      exact c.tget_filtersAfter k.data x
    · rw [State.filtersPut_coll_same, hColl]
      rfl
    · rw [State.filtersPut_coll_same, hColl]
      rfl
    · rw [State.filtersPut_coll_ne _ _ _ _ hp, hColl]
  · intro s coll l k rs d
    rw [exec_versionWrite_list]
    refine ⟨fun hRead => congrArg _ (versionWrite_of_read hRead), fun hNone hl =>
      ⟨nextVersion_mem _ _ _, fun x => nextVersion_le_of_mem, ?_⟩⟩
    rw [versionWrite_of_unread hNone]
    refine ⟨_, rfl, ?_⟩
    rw [State.coll_modColl_same, State.wcbVersion_coll]
    refine ⟨CollData.putList_lists_same _ _ hl, CollData.putList_memVer _ _ _, fun m => CollData.putList_lists_ne _ _, rfl,
      fun p hp => ?_, ?_⟩
    · rw [State.coll_modColl_ne _ _ hp, State.wcbVersion_coll]
    · rw [State.wcbVersion_eq]
      rfl

end Sys2Proof.Machine
end

section
/-!
SUPPORT. Issue of tile operations, and the sets and slots of a tile (R250, R261 to R264).
-/

namespace Sys2Proof.Machine

/-! ### Issue of an operation (R250, R419) -/

/-- A tile that need not wait for its unpark only leaves the park queue. -/
theorem State.wakeTile_of_awake {s : State} {t : Nat} (h : (s.wakeTile t).2 = true) :
    (s.wakeTile t).1 = { s with pwr := { s.pwr with parkQ := s.pwr.parkQ.filter (· != t) } } := by
  unfold State.wakeTile at h ⊢
  split at h
  · cases h
  next hAwake => rw [if_neg hAwake]

/-- Taking a tile changes no semaphore. -/
theorem State.tileWaits_of_takeTile {s s1 : State} {n t : Nat} (h : s.takeTile n t = (s1, true)) :
    s1.tileWaits n t = s.tileWaits n t := by
  unfold State.takeTile at h
  split at h
  · rw [← (Prod.mk.inj h).1]
  · by_cases hAwake : (s.wakeTile t).2 = true
    · rw [if_pos hAwake, State.wakeTile_of_awake hAwake] at h
      rw [← (Prod.mk.inj h).1]
      rfl
    · rw [if_neg hAwake] at h
      exact absurd (congrArg Prod.snd h) hAwake

/-- Command n is c, may issue on tile t, takes it in s1, and waits on no semaphore there. -/
structure State.Issues (s s1 : State) (n t : Nat) (c : Cmd) : Prop where
  may : s.mayIssue n t = some c
  take : s.takeTile n t = (s1, true)
  quiet : s1.tileWaits n t = false

section
variable {s s1 : State} {n t : Nat} {c : Cmd} {f : Tile → TileDone}

theorem State.Issues.tileWaits (h : s.Issues s1 n t c) : s.tileWaits n t = false :=
  State.tileWaits_of_takeTile h.take ▸ h.quiet

theorem State.Issues.issue_of_done (h : s.Issues s1 n t c) {x : Tile} {sat nan : Nat} (hf : f (s1.tile t) = .done x sat nan) :
    s.issue n t f = (s1.modTile t (fun _ => { x with pos := x.pos + 1 })).fmtCount sat nan := by
  simp [State.issue, h.may, h.take, h.tileWaits, hf]

theorem State.Issues.issue_of_fault (h : s.Issues s1 n t c) {row : Nat} (hf : f (s1.tile t) = .fault row) :
    s.issue n t f = s1.contextFault c.ctx row := by
  simp [State.issue, h.may, h.take, h.tileWaits, hf]

theorem State.Issues.issue_of_wait (h : s.Issues s1 n t c) (hf : f (s1.tile t) = .wait) : s.issue n t f = s1 := by
  simp [State.issue, h.may, h.take, h.tileWaits, hf]

end

/-! ### Sets of a tile (R263, R264) -/

section
variable (t : Tile) (y : Bool) (a : AccSet)

@[simp] theorem Tile.set_setSet_same : (t.setSet y a).set y = a := by cases y <;> rfl
theorem Tile.set_setSet_ne {u : Bool} (h : u ≠ y) : (t.setSet y a).set u = t.set u := by
  obtain rfl := Bool.eq_not.2 h
  cases y <;> rfl
@[simp] theorem Tile.setSet_scratch : (t.setSet y a).scratch = t.scratch := by cases y <;> rfl
@[simp] theorem Tile.setSet_vregs : (t.setSet y a).vregs = t.vregs := by cases y <;> rfl
@[simp] theorem Tile.setSet_activeY : (t.setSet y a).activeY = t.activeY := by cases y <;> rfl

/-- A set keeps its slots when another set, or another state of it, is stored. -/
theorem Tile.setSet_slots {a : AccSet} (h : a.slots = (t.set y).slots) (u : Bool) :
    ((t.setSet y a).set u).slots = (t.set u).slots := by
  by_cases hu : u = y
  · rw [hu, Tile.set_setSet_same, h]
  · rw [Tile.set_setSet_ne t y a hu]

end

/-- What becomes of a set that is selected: it accumulates where it was HELD, or EMPTY and written. -/
def AccSet.selected (target : Bool) (a : AccSet) : AccSet :=
  if a.state = .held ∨ (target ∧ a.state = .empty) then { a with state := .accumulating } else a

/-- What becomes of the set left behind. -/
def AccSet.left (a : AccSet) : AccSet := if a.state = .accumulating then { a with state := .held } else a

theorem AccSet.selected_slots (target : Bool) (a : AccSet) : (a.selected target).slots = a.slots := by
  unfold AccSet.selected
  split <;> rfl

theorem AccSet.left_slots (a : AccSet) : a.left.slots = a.slots := by
  unfold AccSet.left
  split <;> rfl

/-- A tile after the other set is left, before the new one is looked at. -/
def Tile.leave (t : Tile) (y : Bool) : Tile :=
  if t.activeY = y then t else { t.setSet t.activeY (t.set t.activeY).left with activeY := y }

/-- Storing the set that stands there changes nothing. -/
@[simp] theorem Tile.setSet_set (t : Tile) (y : Bool) : t.setSet y (t.set y) = t := by cases y <;> rfl

theorem Tile.select_eq (t : Tile) (y target : Bool) :
    t.select y target = (t.leave y).setSet y (((t.leave y).set y).selected target) := by
  change (if ((t.leave y).set y).state = .held ∨ (target ∧ ((t.leave y).set y).state = .empty) then
    (t.leave y).setSet y { (t.leave y).set y with state := .accumulating } else t.leave y) = _
  unfold AccSet.selected
  split
  · rfl
  · rw [Tile.setSet_set]

section
variable (t : Tile) (y : Bool)

theorem Tile.leave_scratch : (t.leave y).scratch = t.scratch := by
  unfold Tile.leave
  split
  · rfl
  · exact t.setSet_scratch _ _

theorem Tile.leave_vregs : (t.leave y).vregs = t.vregs := by
  unfold Tile.leave
  split
  · rfl
  · exact t.setSet_vregs _ _

theorem Tile.leave_activeY : (t.leave y).activeY = y := by
  unfold Tile.leave
  split
  next h => exact h
  · rfl

theorem Tile.leave_slots (u : Bool) : ((t.leave y).set u).slots = (t.set u).slots := by
  unfold Tile.leave
  split
  · rfl
  · exact t.setSet_slots _ (AccSet.left_slots _) u

variable (target : Bool)

@[simp] theorem Tile.select_scratch : (t.select y target).scratch = t.scratch := by
  rw [Tile.select_eq, Tile.setSet_scratch, Tile.leave_scratch]

@[simp] theorem Tile.select_vregs : (t.select y target).vregs = t.vregs := by
  rw [Tile.select_eq, Tile.setSet_vregs, Tile.leave_vregs]

@[simp] theorem Tile.select_activeY : (t.select y target).activeY = y := by
  rw [Tile.select_eq, Tile.setSet_activeY, Tile.leave_activeY]

@[simp] theorem Tile.select_slots (u : Bool) : ((t.select y target).set u).slots = (t.set u).slots := by
  rw [Tile.select_eq, Tile.setSet_slots _ _ (AccSet.selected_slots _ _), Tile.leave_slots]

/-- A set that does not accumulate stays as it is when the other one is selected. -/
theorem Tile.set_select_ne {u : Bool} (hu : u ≠ y) (h : (t.set u).state ≠ .accumulating) : (t.select y target).set u = t.set u := by
  rw [Tile.select_eq, Tile.set_setSet_ne _ _ _ hu, Tile.leave]
  split
  · rfl
  · change (t.setSet t.activeY (t.set t.activeY).left).set u = t.set u
    by_cases hActive : u = t.activeY
    · rw [← hActive, Tile.set_setSet_same, AccSet.left, if_neg h]
    · exact t.set_setSet_ne _ _ hActive

end

/-! ### Slots of a set (R261) -/

theorem AccSet.slot_of_slots {a b : AccSet} (h : a.slots = b.slots) (k : Nat) : a.slot k = b.slot k := by
  unfold AccSet.slot AccSet.wide
  rw [h]

/-- An FP64 tile reads back from both slots. -/
theorem AccSet.slot_setSlot_fp64 (a : AccSet) (k j : Nat) {z : AccSlot} (h : z.fmt = .fp64) : (a.setSlot k z).slot j = z := by
  have hWide : ({ a with slots := [z, {}] } : AccSet).wide = true := by simp [AccSet.wide, lget, h]
  rw [AccSet.setSlot, if_pos h, AccSet.slot, hWide]
  rfl

theorem eq_pair_of_length {α : Type} {l : List α} (h : l.length = 2) : ∃ p q, l = [p, q] := by
  match l, h with
  | [p, q], _ => exact ⟨p, q, rfl⟩

/-- A tile of another format in a set of two slots reads back from its own: an FP64 tile that stood there is gone. -/
theorem AccSet.slot_setSlot_narrow {a : AccSet} {k : Nat} {z : AccSlot} (h : z.fmt ≠ .fp64) (hLen : a.slots.length = 2) (hk : k < 2) :
    (a.setSlot k z).slot k = z := by
  obtain ⟨p, q, hBase, hFirst⟩ : ∃ p q, (if a.wide then List.replicate 2 ({} : AccSlot) else a.slots) = [p, q] ∧ p.fmt ≠ .fp64 := by
    split
    · exact ⟨_, _, rfl, by decide⟩
    next hNarrow =>
      obtain ⟨p, q, hSlots⟩ := eq_pair_of_length hLen
      exact ⟨p, q, hSlots, by simpa [AccSet.wide, hSlots, lget] using hNarrow⟩
  rw [AccSet.setSlot, if_neg h, hBase]
  obtain rfl | rfl : k = 0 ∨ k = 1 := by omega
  · simp [AccSet.slot, AccSet.wide, lmod, lget, h]
  · simp [AccSet.slot, AccSet.wide, lmod, lget, hFirst]

theorem AccSet.slot_setSlot_same {a : AccSet} {k : Nat} (z : AccSlot) (hLen : a.slots.length = 2) (hk : k < 2) :
    (a.setSlot k z).slot k = z := by
  by_cases h : z.fmt = .fp64
  · exact a.slot_setSlot_fp64 k k h
  · exact AccSet.slot_setSlot_narrow h hLen hk

/-- A tile with slot k of set y stored, which selects the set to write it. -/
def Tile.putSlot (t : Tile) (y : Bool) (k : Nat) (z : AccSlot) : Tile :=
  (t.select y true).setSet y (((t.select y true).set y).setSlot k z)

section
variable (t : Tile) (y : Bool) (k : Nat) (z : AccSlot)

@[simp] theorem Tile.putSlot_scratch : (t.putSlot y k z).scratch = t.scratch := by
  rw [Tile.putSlot, Tile.setSet_scratch, Tile.select_scratch]

@[simp] theorem Tile.putSlot_vregs : (t.putSlot y k z).vregs = t.vregs := by
  rw [Tile.putSlot, Tile.setSet_vregs, Tile.select_vregs]

theorem Tile.slot_putSlot_same (hLen : (t.set y).slots.length = 2) (hk : k < 2) : ((t.putSlot y k z).set y).slot k = z := by
  rw [Tile.putSlot, Tile.set_setSet_same]
  exact AccSet.slot_setSlot_same z (by rw [Tile.select_slots, hLen]) hk

theorem Tile.slot_putSlot_fp64 (h : z.fmt = .fp64) (j : Nat) : ((t.putSlot y k z).set y).slot j = z := by
  rw [Tile.putSlot, Tile.set_setSet_same, AccSet.slot_setSlot_fp64 _ _ _ h]

end

/-! ### Values of a slot (R220, R262, R263) -/

/-- A slot with no group added holds its initial values, a NaN the canonical one. -/
theorem AccSlot.values_of_init {z : AccSlot} {v : List Nat} (hLevels : z.levels = List.replicate 9 none) (hInit : z.init = some v) :
    z.values = v.map (accCanon z.fmt) := by
  rw [AccSlot.values, hLevels, hInit]
  rfl

theorem AccSlot.values_of_zero {z : AccSlot} (hLevels : z.levels = List.replicate 9 none) (hInit : z.init = none) :
    z.values = List.replicate (z.rows * z.cols) 0 := by
  rw [AccSlot.values, hLevels, hInit]
  rfl

end Sys2Proof.Machine
end

section
/-!
SUPPORT. SLOT_TILE_WRITE, SLOT_TILE_READ, MATRIX_GROUP and COMBINE (R254 to R263), and the statement about them.
-/

namespace Sys2Proof.Machine

/-! ### SLOT_TILE_WRITE and SLOT_TILE_READ -/

section
variable {y : Bool} {k rows cols a : Nat} {f : AccFmt} {t : Tile}

/-- The slot that SLOT_TILE_WRITE stores. -/
def Tile.written (t : Tile) (y : Bool) (k : Nat) (f : AccFmt) (rows cols src : Nat) : AccSlot :=
  { fmt := f, rows := rows, cols := cols, init := some (t.readTile src (accBytes f) (rows * cols)), scaleAB := ((t.set y).slot k).scaleAB }

/-- The slot that SLOT_TILE_READ reads: an empty one has the shape asked for. -/
def AccSlot.asked (z : AccSlot) (f : AccFmt) (rows cols : Nat) : AccSlot :=
  if z.rows = 0 then { fmt := f, rows := rows, cols := cols } else z

theorem slotTileWrite_of_bad (h : ¬ (shapeOk rows cols = true ∧ slotOk f k = true) ∨ scratchBytes < a + rows * cols * accBytes f) :
    slotTileWrite y k f rows cols a t = .fault 7 := by
  rw [slotTileWrite]
  exact if_pos (by simpa only [Bool.not_eq_true', Bool.not_eq_true, Classical.not_and_iff_not_or_not, or_assoc] using h)

theorem slotTileWrite_of_fits (hShape : shapeOk rows cols = true) (hSlot : slotOk f k = true)
    (hFits : a + rows * cols * accBytes f ≤ scratchBytes) :
    slotTileWrite y k f rows cols a t =
      if (t.set y).state = .draining then .wait else .done (t.putSlot y k (t.written y k f rows cols a)) 0 0 := by
  rw [slotTileWrite]
  exact if_neg (by simp [hShape, hSlot, hFits])

theorem slotTileRead_of_bad {z : AccSlot} (hz : ((t.set y).slot k).asked f rows cols = z)
    (h : ¬ (shapeOk rows cols = true ∧ slotOk f k = true) ∨ slotOk z.fmt k = false ∨
      scratchBytes < a + z.rows * z.cols * accBytes z.fmt) :
    slotTileRead y k f rows cols a t = .fault 7 := by
  subst hz
  rw [slotTileRead]
  have hBad := h
  simp only [Classical.not_and_iff_not_or_not, or_assoc, Bool.not_eq_true] at hBad
  simp only [Bool.not_eq_true']
  exact if_pos hBad

theorem slotTileRead_of_fits {z : AccSlot} (hz : ((t.set y).slot k).asked f rows cols = z) (hShape : shapeOk rows cols = true)
    (hSlot : slotOk f k = true) (hOwn : slotOk z.fmt k = true) (hFits : a + z.rows * z.cols * accBytes z.fmt ≤ scratchBytes)
    (hOpen : (t.set y).state ≠ .draining) :
    slotTileRead y k f rows cols a t = .done (t.write a (z.values.flatMap (natBytes (accBytes z.fmt)))) 0 0 := by
  subst hz
  rw [slotTileRead]
  have hGood : ¬ ((!shapeOk rows cols) = true ∨ (!slotOk f k) = true ∨ (!slotOk (((t.set y).slot k).asked f rows cols).fmt k) = true ∨
      scratchBytes < a + (((t.set y).slot k).asked f rows cols).rows * (((t.set y).slot k).asked f rows cols).cols *
        accBytes (((t.set y).slot k).asked f rows cols).fmt) := by simp [hShape, hSlot, hOwn, hFits]
  exact (if_neg hGood).trans (if_neg hOpen)

end

/-! ### MATRIX_GROUP (R254, R255, R257, R258, R262) -/

/-- A tile in scratchpad depends on nothing else of the tile. -/
theorem Tile.readTile_of_scratch {t u : Tile} (h : t.scratch = u.scratch) (a w n : Nat) : t.readTile a w n = u.readTile a w n := by
  change ({ scratch := t.scratch } : Tile).readTile a w n = ({ scratch := u.scratch } : Tile).readTile a w n
  rw [h]

/-- The sums of one group, row by row. -/
def Tile.groups (t : Tile) (f : AccFmt) (rows cols len : Nat) (a b : MatOperand) : List Nat :=
  (List.range rows).flatMap (fun r => (List.range cols).map (fun c => t.group f a b r c len))

/-- Group sums read the scratchpad and nothing else of the tile. -/
theorem Tile.groups_of_scratch {t u : Tile} (h : t.scratch = u.scratch) (f : AccFmt) (rows cols len : Nat) (a b : MatOperand) :
    t.groups f rows cols len a b = u.groups f rows cols len a b := by
  change ({ scratch := t.scratch } : Tile).groups f rows cols len a b = ({ scratch := u.scratch } : Tile).groups f rows cols len a b
  rw [h]

/-- The slot that a group is added to: an empty one with C as its initial value where it is the first, else the one that stands there. -/
def Tile.reduced (t : Tile) (y : Bool) (k rows cols : Nat) (first : Bool) (init : Option Nat) (a b : MatOperand) : AccSlot :=
  if first then { fmt := pairAcc a b, rows := rows, cols := cols,
                  init := init.map (fun p => t.readTile p (accBytes (pairAcc a b)) (rows * cols)) }
  else (t.set y).slot k

/-- A slot with the sums of one more group added (R255). -/
def AccSlot.add (z : AccSlot) (f : AccFmt) (sums : List Nat) : AccSlot :=
  { z with levels := pushTile f z.levels sums, groups := z.groups + 1 }

/-- A tile with slot k of set y stored for operands of the tensor scales of a and b. -/
def Tile.putGroup (t : Tile) (y : Bool) (k : Nat) (a b : MatOperand) (z : AccSlot) : Tile :=
  { t.putSlot y k { z with scaleAB := fmul .fp32 a.tscale b.tscale } with tscales := (a.tscale, b.tscale) }

section
variable (t : Tile) (y : Bool) (k : Nat) (a b : MatOperand) (z : AccSlot)

theorem Tile.putGroup_scratch : (t.putGroup y k a b z).scratch = t.scratch := t.putSlot_scratch y k _
theorem Tile.putGroup_vregs : (t.putGroup y k a b z).vregs = t.vregs := t.putSlot_vregs y k _

theorem Tile.slot_putGroup_same (hLen : (t.set y).slots.length = 2) (hk : k < 2) :
    ((t.putGroup y k a b z).set y).slot k = { z with scaleAB := fmul .fp32 a.tscale b.tscale } :=
  t.slot_putSlot_same y k _ hLen hk

end

/-- A group that makes no context fault 7. -/
structure Tile.GroupFits (t : Tile) (y : Bool) (k rows cols len : Nat) (first : Bool) (init : Option Nat) (a b : MatOperand) : Prop where
  shape : shapeOk rows cols = true
  slot : slotOk (pairAcc a b) k = true
  nonzero : len ≠ 0 ∨ first = true
  most : len ≤ 32
  left : operandOk a rows len = true
  right : operandOk b cols len = true
  start : ∀ p, init = some p → p + rows * cols * accBytes (pairAcc a b) ≤ scratchBytes
  same : first = false → ((t.set y).slot k).fmt = pairAcc a b ∧ ((t.set y).slot k).rows = rows ∧ ((t.set y).slot k).cols = cols

section
variable {t : Tile} {y : Bool} {k rows cols len : Nat} {first : Bool} {init : Option Nat} {a b : MatOperand}

/-- The tile that a group is added on: set y is selected, and the tensor scales of a and b are noted. -/
def Tile.loaded (t : Tile) (y : Bool) (a b : MatOperand) : Tile := { t.select y true with tscales := (a.tscale, b.tscale) }

theorem Tile.loaded_scratch : (t.loaded y a b).scratch = t.scratch := t.select_scratch y true

theorem Tile.reduced_loaded : (t.loaded y a b).reduced y k rows cols first init a b = t.reduced y k rows cols first init a b := by
  have hSlot : ((t.loaded y a b).set y).slot k = (t.set y).slot k := AccSet.slot_of_slots (t.select_slots y true y) k
  simp only [Tile.reduced, hSlot, Tile.readTile_of_scratch Tile.loaded_scratch]

/-- Storing a slot and noting the tensor scales commute. -/
theorem Tile.putGroup_eq (z : AccSlot) : t.putGroup y k a b z =
    (t.loaded y a b).setSet y (((t.loaded y a b).set y).setSlot k { z with scaleAB := fmul .fp32 a.tscale b.tscale }) := by
  cases y <;> rfl

theorem matrixGroup_of_fits (h : t.GroupFits y k rows cols len first init a b) (hOpen : (t.set y).state ≠ .draining) :
    matrixGroup y k rows cols len first init a b t =
      if len = 0 then .done (t.putGroup y k a b (t.reduced y k rows cols first init a b)) 0 0
      else if 256 ≤ (t.reduced y k rows cols first init a b).groups then .fault 2
      else .done (t.putGroup y k a b
        ((t.reduced y k rows cols first init a b).add (pairAcc a b) (t.groups (pairAcc a b) rows cols len a b))) 0 0 := by
  obtain ⟨hShape, hSlot, hSome, hMost, hLeft, hRight, hStart, hSame⟩ := h
  rw [Tile.putGroup_eq, Tile.putGroup_eq, ← Tile.reduced_loaded, ← Tile.groups_of_scratch (Tile.loaded_scratch (y := y) (a := a) (b := b))]
  refine (if_neg ?_).trans (if_neg hOpen)
  rintro (h | h | ⟨h, hNot⟩ | h | h | h | h | ⟨hNot, h⟩)
  · simp [hShape] at h
  · simp [hSlot] at h
  · exact hSome.elim (· h) (fun hFirst => by simp [hFirst] at hNot)
  · omega
  · simp [hLeft] at h
  · simp [hRight] at h
  · cases init with
    | none => cases h
    | some p => simp [hStart p rfl] at h
  · simp [hSame (by simpa using hNot)] at h

end

/-! ### COMBINE (R259) -/

/-- A part of m bytes lies in the scratchpad; an absent one always does. -/
def partFits (m : Nat) : Option Nat → Bool
  | some a => decide (a + m ≤ scratchBytes)
  | none => true

theorem partFits_iff {m : Nat} {p : Option Nat} : partFits m p = true ↔ ∀ a, p = some a → a + m ≤ scratchBytes := by
  cases p <;> simp [partFits]

/-- A combine that makes no context fault. -/
def CombineFits (f : AccFmt) (rows cols : Nat) (parts : List (Option Nat)) (dst : Nat) : Prop :=
  shapeOk rows cols = true ∧ (parts.length = 2 ∨ parts.length = 4 ∨ parts.length = 8) ∧
    (∀ p ∈ parts, ∀ a, p = some a → a + rows * cols * accBytes f ≤ scratchBytes) ∧ dst + rows * cols * accBytes f ≤ scratchBytes

section
variable {f : AccFmt} {rows cols dst : Nat} {parts : List (Option Nat)} {t : Tile}

theorem not_combineFits_iff : ¬ CombineFits f rows cols parts dst ↔
    (!shapeOk rows cols) = true ∨ (!([2, 4, 8].contains parts.length)) = true ∨
      (!parts.all (partFits (rows * cols * accBytes f))) = true ∨ scratchBytes < dst + rows * cols * accBytes f := by
  have hAll : parts.all (partFits (rows * cols * accBytes f)) = true ↔
      ∀ p ∈ parts, ∀ a, p = some a → a + rows * cols * accBytes f ≤ scratchBytes := by simp only [List.all_eq_true, partFits_iff]
  have hCount : [2, 4, 8].contains parts.length = true ↔ parts.length = 2 ∨ parts.length = 4 ∨ parts.length = 8 := by simp
  rw [CombineFits, ← hAll, ← hCount]
  simp only [Classical.not_and_iff_not_or_not, Nat.not_le, Bool.not_eq_true, Bool.not_eq_true']

/-- The elements of a combine, each over the parts of its place. -/
def Tile.combined (t : Tile) (f : AccFmt) (rows cols : Nat) (parts : List (Option Nat)) : List Nat :=
  (List.range (rows * cols)).map (fun i =>
    (combineAcc f (Nat.log2 parts.length) (parts.map (fun p => p.map (fun a => t.read (a + accBytes f * i) (accBytes f))))).getD 0)

theorem combine_of_bad (h : ¬ CombineFits f rows cols parts dst) : combine f rows cols parts dst t = .fault 7 :=
  if_pos (not_combineFits_iff.1 h)

theorem combine_of_fits (h : CombineFits f rows cols parts dst) :
    combine f rows cols parts dst t = .done (t.write dst ((t.combined f rows cols parts).flatMap (natBytes (accBytes f)))) 0 0 :=
  if_neg (fun hBad => not_combineFits_iff.2 hBad h)

end

/-! ### The steps on slots -/

section
variable (n : Nat) (tile : Fin 272) (s : State)

theorem exec_slotTileWrite (y : Bool) (k : Fin 2) (f : AccFmt) (rows cols a : Nat) :
    exec (.slotTileWrite n tile y k f rows cols a) s = .next (s.issue n tile.val (slotTileWrite y k.val f rows cols a)) := rfl
theorem exec_slotTileRead (y : Bool) (k : Fin 2) (f : AccFmt) (rows cols a : Nat) :
    exec (.slotTileRead n tile y k f rows cols a) s = .next (s.issue n tile.val (slotTileRead y k.val f rows cols a)) := rfl
theorem exec_matrixGroup (y : Bool) (k : Fin 2) (rows cols len : Nat) (first : Bool) (init : Option Nat) (a b : MatOperand) :
    exec (.matrixGroup n tile y k rows cols len first init a b) s =
      .next (s.issue n tile.val (matrixGroup y k.val rows cols len first init a b)) := rfl
theorem exec_combine (f : AccFmt) (rows cols : Nat) (parts : List (Option Nat)) (dst : Nat) :
    exec (.combine n tile f rows cols parts dst) s = .next (s.issue n tile.val (combine f rows cols parts dst)) := rfl

end

/-- Settles O50: each operation on a slot stores, reads, adds or combines what it names, and faults or waits where it must. -/
theorem tileSlotsAccumulate : Obligations.TileSlotsAccumulate := by
  unfold Obligations.TileSlotsAccumulate
  intro s s1 n tile c hMay hTake hQuiet T put
  have hIssue : s.Issues s1 n tile.val c := ⟨hMay, hTake, hQuiet⟩
  refine ⟨?_, ?_, ?_, ?_⟩
  · intro y k f rows cols a hLen w ok z
    rw [exec_slotTileWrite, exec_slotTileRead]
    refine ⟨fun ⟨hShape, hSlot⟩ hFits hOpen => ?_, fun hBad => congrArg _ (hIssue.issue_of_fault (slotTileWrite_of_bad hBad)),
      fun ⟨hShape, hSlot⟩ hOwn hFits hOpen => congrArg _ (hIssue.issue_of_done (slotTileRead_of_fits rfl hShape hSlot hOwn hFits hOpen)),
      fun hBad => congrArg _ (hIssue.issue_of_fault (slotTileRead_of_bad rfl hBad)), fun ⟨hShape, hSlot⟩ hFits hDrains => ?_⟩
    · have hDone := (slotTileWrite_of_fits hShape hSlot hFits).trans (if_neg hOpen)
      refine ⟨_, congrArg _ (hIssue.issue_of_done hDone), ?_⟩
      have hPut := T.slot_putSlot_same y k.val (T.written y k.val f rows cols a) hLen k.isLt
      exact ⟨(congrArg AccSlot.values hPut).trans (AccSlot.values_of_init rfl rfl), (congrArg AccSlot.scaleAB hPut :),
        fun hWide => (T.slot_putSlot_fp64 y k.val _ hWide 1).trans (T.slot_putSlot_fp64 y k.val _ hWide 0).symm,
        T.putSlot_scratch y k.val _, T.putSlot_vregs y k.val _⟩
    · exact congrArg _ (hIssue.issue_of_wait ((slotTileWrite_of_fits hShape hSlot hFits).trans (if_pos hDrains)))
  · intro y k rows cols len first init a b hLen f z0 z hShape hSlot hSome hMost hLeft hRight hStart hSame hOpen
    have hNonzero : len ≠ 0 := by omega
    have hGroup := (matrixGroup_of_fits ⟨hShape, hSlot, .inl hNonzero, hMost, hLeft, hRight, hStart, hSame⟩ hOpen).trans
      (if_neg hNonzero)
    rw [exec_matrixGroup]
    refine ⟨fun hRoom => ?_, fun hFull => congrArg _ (hIssue.issue_of_fault (hGroup.trans (if_pos hFull)))⟩
    refine ⟨_, congrArg _ (hIssue.issue_of_done (hGroup.trans (if_neg (Nat.not_le.2 hRoom)))), ?_⟩
    have hPut := T.slot_putGroup_same y k.val a b (z.add f (T.groups f rows cols len a b)) hLen k.isLt
    exact ⟨(congrArg AccSlot.groups hPut :), (congrArg AccSlot.init hPut :), (congrArg AccSlot.levels hPut :),
      (congrArg AccSlot.scaleAB hPut :), T.putGroup_scratch y k.val a b _, T.putGroup_vregs y k.val a b _⟩
  · intro y k rows cols init a b hLen f start hShape hSlot hLeft hRight hStart hOpen
    have hNone := (matrixGroup_of_fits ⟨hShape, hSlot, .inr rfl, Nat.zero_le 32, hLeft, hRight, hStart, nofun⟩ hOpen).trans (if_pos rfl)
    rw [exec_matrixGroup]
    refine ⟨_, congrArg _ (hIssue.issue_of_done hNone), ?_⟩
    have hPut := T.slot_putGroup_same y k.val a b (T.reduced y k.val rows cols true init a b) hLen k.isLt
    refine ⟨(congrArg AccSlot.groups hPut :), (congrArg AccSlot.values hPut).trans ?_, T.putGroup_scratch y k.val a b _,
      T.putGroup_vregs y k.val a b _⟩
    cases init with
    | none => exact AccSlot.values_of_zero rfl rfl
    | some p => exact AccSlot.values_of_init rfl rfl
  · intro f rows cols dst parts w ok
    rw [exec_combine]
    exact ⟨fun hBad => congrArg _ (hIssue.issue_of_fault (combine_of_bad hBad)),
      fun hOk => congrArg _ (hIssue.issue_of_done (combine_of_fits hOk))⟩

end Sys2Proof.Machine
end

section
/-!
SUPPORT. Drains and vector operations (R252, R264 to R269), and the statement about them.
-/

namespace Sys2Proof.Machine

/-! ### DRAIN (R264 to R267, R269) -/

/-- The state after k results that the spec leaves open have been supplied. -/
def State.useFree (s : State) (k : Nat) : State := { s with freeCtr := s.freeCtr + k }

/-- Results that the spec leaves open, from the one next in the state on. -/
def State.frees (s : State) (i : Nat) : Nat := Config.freeValue (s.freeCtr + i)

theorem State.Issues.drainStep_eq {s s1 : State} {n t : Nat} {c : Cmd} (h : s.Issues s1 n t c) (y : Bool) (v : Word64) :
    drainStep n t y v s = (s.issue n t (drain y v s.frees)).useFree 4096 := by
  unfold drainStep
  rw [h.may]
  rfl

/-- Writes to scratchpad change nothing else of the tile. -/
theorem Tile.foldl_write {α : Type} (a : α → Nat) (bs : α → List Byte) (l : List α) (t : Tile) :
    ∃ m, l.foldl (fun t e => t.write (a e) (bs e)) t = { t with scratch := m } := by
  induction l generalizing t with
  | nil => exact ⟨t.scratch, rfl⟩
  | cons e l ih => exact ih (t.write (a e) (bs e))

theorem Tile.putDrain_eq (t : Tile) (d : DrainWord) (w : Nat) (r : Drained) : ∃ m, t.putDrain d w r = { t with scratch := m } := by
  obtain ⟨m, hMaxs⟩ := (t.write d.dest (packOut d.out r.out)).foldl_write
    (fun e => d.side + 2 * w * e.2) (fun e => natBytes w e.1) r.maxs.zipIdx
  obtain ⟨m', hSums⟩ := ({ t with scratch := m } : Tile).foldl_write
    (fun e => d.side + 2 * w * e.2 + w) (fun e => natBytes w e.1) r.sums.zipIdx
  refine ⟨m', ?_⟩
  unfold Tile.putDrain
  dsimp only
  rw [hMaxs]
  exact hSums

section
variable (t : Tile) (d : DrainWord) (w : Nat) (r : Drained)

theorem Tile.putDrain_vregs : (t.putDrain d w r).vregs = t.vregs := by
  obtain ⟨m, h⟩ := t.putDrain_eq d w r
  rw [h]

theorem Tile.putDrain_activeY : (t.putDrain d w r).activeY = t.activeY := by
  obtain ⟨m, h⟩ := t.putDrain_eq d w r
  rw [h]

theorem Tile.set_putDrain (y : Bool) : (t.putDrain d w r).set y = t.set y := by
  obtain ⟨m, h⟩ := t.putDrain_eq d w r
  rw [h]
  rfl

end

/-- A drain of set y under way. -/
def Tile.startDrain (t : Tile) (y keep : Bool) : Tile := t.setSet y { t.set y with state := .draining, keep := keep }

/-- The other set is selected where set y was the active one. -/
def Tile.turn (t : Tile) (y : Bool) : Tile := if t.activeY = y then t.select (!y) false else t

section
variable (t : Tile) (y keep : Bool)

theorem Tile.turn_startDrain_scratch : ((t.startDrain y keep).turn y).scratch = t.scratch := by
  unfold Tile.turn Tile.startDrain
  split <;> simp

theorem Tile.turn_startDrain_vregs : ((t.startDrain y keep).turn y).vregs = t.vregs := by
  unfold Tile.turn Tile.startDrain
  split <;> simp

theorem Tile.turn_startDrain_activeY (h : t.activeY = y) : ((t.startDrain y keep).turn y).activeY = !y := by
  have hActive : (t.startDrain y keep).activeY = y := (t.setSet_activeY y _).trans h
  rw [Tile.turn, if_pos hActive, Tile.select_activeY]

/-- Turning to the other set leaves the set that drains as it is. -/
theorem Tile.set_turn_startDrain : ((t.startDrain y keep).turn y).set y = { t.set y with state := .draining, keep := keep } := by
  have hSet : (t.startDrain y keep).set y = { t.set y with state := .draining, keep := keep } := t.set_setSet_same y _
  unfold Tile.turn
  split
  · rw [Tile.set_select_ne _ (!y) false (Bool.eq_not.1 (Bool.not_not y).symm) (by rw [hSet]; nofun), hSet]
  · exact hSet

end

section
variable {t : Tile} {y : Bool} {v : Word64} {free : Nat → Nat}

/-- The slot that a drain of set y by word v reads. -/
def Tile.toDrain (t : Tile) (y : Bool) (v : Word64) : AccSlot := ((t.set y).slot (drainWord v).slot).shaped

theorem drain_of_bad (h : drainOk (drainWord v) (t.toDrain y v) = false) : drain y v free t = .fault 3 :=
  if_pos (by rw [Bool.not_eq_true']; exact h)

theorem drain_of_busy (hOk : drainOk (drainWord v) (t.toDrain y v) = true)
    (hBusy : t.x.state = .draining ∨ t.y.state = .draining) : drain y v free t = .wait :=
  (if_neg (by rw [Bool.not_eq_true', Bool.not_eq_false]; exact hOk)).trans (if_pos hBusy)

theorem drain_of_idle (hOk : drainOk (drainWord v) (t.toDrain y v) = true)
    (hIdle : ¬ (t.x.state = .draining ∨ t.y.state = .draining)) {r : Drained}
    (hr : drainSlot t (drainWord v) (t.toDrain y v) free = r) :
    drain y v free t =
      .done (((t.putDrain (drainWord v) (accBytes (t.toDrain y v).fmt) r).startDrain y (drainWord v).keep).turn y) r.sat r.nan := by
  subst hr
  exact (if_neg (by rw [Bool.not_eq_true', Bool.not_eq_false]; exact hOk)).trans (if_neg hIdle)

end

/-! ### DRAIN_DONE (Table 9.4) -/

theorem setSettled_of_kept {a : AccSet} (h : a.state = .draining) (hKeep : a.keep = true) :
    setSettled a = { a with state := .held } := by
  rw [setSettled, if_pos h, if_pos hKeep]

theorem setSettled_of_dropped {a : AccSet} (h : a.state = .draining) (hKeep : a.keep = false) : setSettled a = {} := by
  rw [setSettled, if_pos h, if_neg (by rw [hKeep]; exact Bool.false_ne_true)]

theorem setSettled_of_idle {a : AccSet} (h : a.state ≠ .draining) : setSettled a = a := if_neg h

/-- A tile with its drains done. -/
def Tile.settled (t : Tile) : Tile := { t with x := setSettled t.x, y := setSettled t.y }

theorem Tile.set_settled (t : Tile) (y : Bool) : t.settled.set y = setSettled (t.set y) := by cases y <;> rfl

theorem tile_drainDone_same (t : Nat) (s : State) : (drainDone t s).tile t = (s.tile t).settled := s.tile_modTile_same t _

/-! ### VECTOR_OP (R252) -/

theorem State.Issues.vectorStep_eq {s s1 : State} {n t : Nat} {c : Cmd} (h : s.Issues s1 n t c) (op : VecOp) :
    vectorStep n t op s = (s.issue n t (vectorOp op s.frees)).useFree 32 := by
  unfold vectorStep
  rw [h.may]
  rfl

@[simp] theorem Tile.vreg_setVreg_same (t : Tile) (r : Nat) (v : List Nat) : (t.setVreg r v).vreg r = v := tget_tset_same _ _ _ _

theorem Tile.vreg_setVreg_ne (t : Tile) {r j : Nat} (v : List Nat) (h : j ≠ r) : (t.setVreg r v).vreg j = t.vreg j :=
  tget_tset_ne _ _ _ h

/-- A lane of a register computed lane by lane. -/
theorem lget_map_range {m i : Nat} (g : Nat → Nat) (h : i < m) : lget 0 ((List.range m).map g) i = g i := by
  simp [lget, h]

theorem Tile.scalePass_ne_wait (t : Tile) (g src rows cols dst table : Nat) : t.scalePass g src rows cols dst table ≠ .wait := by
  unfold Tile.scalePass
  dsimp only
  repeat' split
  all_goals nofun

/-- A vector operation never waits. -/
theorem vectorOp_ne_wait (op : VecOp) (free : Nat → Nat) (t : Tile) : vectorOp op free t ≠ .wait := by
  cases op with
  | scale g src rows cols dst table => exact t.scalePass_ne_wait g src rows cols dst table
  | cvt | load | store =>
    simp only [vectorOp]
    split <;> nofun
  | arith | fma | div | fn | cmp | hsum => nofun

/-! ### The steps on sets and vectors -/

section
variable (n : Nat) (tile : Fin 272) (s : State)

theorem exec_drain (y : Bool) (v : Word64) : exec (.drain n tile y v) s = .next (drainStep n tile.val y v s) := rfl
theorem exec_drainDone : exec (.drainDone tile) s = .next (drainDone tile.val s) := rfl
theorem exec_vectorOp (op : VecOp) : exec (.vectorOp n tile op) s = .next (vectorStep n tile.val op s) := rfl

end

/-- Settles O51: a drain writes its tile and turns to the other set, its end settles the set, and a vector operation answers what its
lanes give. -/
theorem drainsAndVectorOps : Obligations.DrainsAndVectorOps := by
  unfold Obligations.DrainsAndVectorOps
  refine ⟨?_, ?_⟩
  · intro s s1 n tile c hMay hTake hQuiet T free went
    have hIssue : s.Issues s1 n tile.val c := ⟨hMay, hTake, hQuiet⟩
    have hWent (k : Nat) {u u' : State} (h : u = u') : (.next (u.useFree k) : Outcome) = .next (went k u') := by rw [h]; rfl
    refine ⟨?_, ?_, ?_⟩
    · intro y v d z idle
      rw [exec_drain, hIssue.drainStep_eq]
      refine ⟨fun hBad => hWent 4096 (hIssue.issue_of_fault (drain_of_bad hBad)),
        fun hOk hBusy => hWent 4096 (hIssue.issue_of_wait (drain_of_busy hOk ((Classical.not_and_iff_not_or_not.1 hBusy).imp Classical.not_not.1 Classical.not_not.1))),
        fun hOk hIdle => ⟨_, hWent 4096 (hIssue.issue_of_done (drain_of_idle hOk (not_or.2 hIdle) rfl)), ?_⟩⟩
      have hSet : (((T.putDrain d (accBytes z.fmt) (drainSlot T d z free)).startDrain y d.keep).turn y).set y =
          { T.set y with state := .draining, keep := d.keep } := by rw [Tile.set_turn_startDrain, Tile.set_putDrain]
      exact ⟨Tile.turn_startDrain_scratch _ y d.keep, (Tile.turn_startDrain_vregs _ y d.keep).trans (T.putDrain_vregs d _ _),
        (congrArg AccSet.state hSet :), (congrArg AccSet.keep hSet :), (congrArg AccSet.slots hSet :),
        fun hActive => Tile.turn_startDrain_activeY _ y d.keep ((T.putDrain_activeY d _ _).trans hActive)⟩
    · intro op
      rw [exec_vectorOp, hIssue.vectorStep_eq]
      exact ⟨fun x sat nan hDone => hWent 32 (hIssue.issue_of_done hDone),
        fun row hFault => hWent 32 (hIssue.issue_of_fault hFault), vectorOp_ne_wait op free T⟩
    · intro op f d a b
      refine ⟨_, rfl, fun i hi => ?_, fun r hr => T.vreg_setVreg_ne _ hr, rfl, rfl, rfl⟩
      rw [Tile.vreg_setVreg_same, lget_map_range _ hi]
  · intro s tile
    rw [exec_drainDone]
    refine ⟨_, rfl, rfl, fun i hi => s.tile_modTile_ne _ hi, ?_, fun y hDrains => ?_, fun y hIdle => ?_⟩
    · rw [tile_drainDone_same]
      rfl
    · rw [tile_drainDone_same, Tile.set_settled]
      exact ⟨fun hKeep => by rw [setSettled_of_kept hDrains hKeep]; exact ⟨rfl, rfl⟩,
        fun hDrop => by rw [setSettled_of_dropped hDrains hDrop]⟩
    · rw [tile_drainDone_same, Tile.set_settled, setSettled_of_idle hIdle]

end Sys2Proof.Machine
end

section
/-!
SUPPORT. What a command's end leaves of the commands in flight, of the partitions' states and of the models (R98, R345, R354 to R357,
R361).
-/

namespace Sys2Proof.Machine

/-! ### The state of a partition -/

section
variable (s : State) (x p : Nat)

@[simp] theorem State.epochSettle_part_state (q : Nat) : ((s.epochSettle q).part p).state = (s.part p).state := by
  unfold State.epochSettle
  exact State.part_modPart_state _ _ _ (fun _ => rfl)

@[simp] theorem State.finish_part_state (c : Cmd) (st spec0 spec1 : Nat) (result trunc : Bool) :
    ((s.finish c st spec0 spec1 result trunc).part p).state = (s.part p).state := by
  unfold State.finish
  dsimp only
  rw [State.epochSettle_part_state]
  refine congrArg (fun y : Sch => (tget {} y.parts p : Partition).state) ?_
  repeat' split
  all_goals simp

@[simp] theorem State.yieldSettle_part_state : ((s.yieldSettle x).part p).state = (s.part p).state := by
  unfold State.yieldSettle
  dsimp only
  repeat' split
  · exact State.finish_part_state _ _ _ _ _ _ _ _
  · rfl
  · rfl

@[simp] theorem State.saveSettle_part_state : ((s.saveSettle x).part p).state = (s.part p).state := by
  unfold State.saveSettle
  dsimp only
  repeat' split
  · exact State.finish_part_state _ _ _ _ _ _ _ _
  · rfl
  · rfl

@[simp] theorem State.markHeld_part_state : ((s.markHeld x).part p).state = (s.part p).state := by
  unfold State.markHeld
  exact State.part_modPart_state s _ p (fun _ => by rfl)

@[simp] theorem State.borrowSettle_part_state : ((s.borrowSettle x).part p).state = (s.part p).state := by
  unfold State.borrowSettle
  dsimp only
  split
  · exact s.markHeld_part_state x p
  · rfl

@[simp] theorem State.restoreFree_part_state (q : Nat) : ((s.restoreFree q).part p).state = (s.part p).state := by
  unfold State.restoreFree State.putImages
  refine (State.part_modPart_state _ _ p ?_).trans ?_
  · exact fun _ => rfl
  · exact congrArg (fun y : Sch => (tget {} y.parts p : Partition).state) (foldl_keeps State.sch _ _ _ (fun _ _ => rfl))

/-- A partition that pauses reaches PAUSED: none begins to drain. -/
theorem State.pauseSettle_not_draining (h : (s.part p).state ≠ .draining) : ((s.pauseSettle p).part p).state ≠ .draining := by
  unfold State.pauseSettle
  dsimp only
  split
  · split <;> simp
  · exact h

/-! ### The models -/

theorem State.drainSettle_of_not_draining (h : (s.part p).state ≠ .draining) : s.drainSettle p = s := if_neg (fun hd => h hd.1)

/-- Where the partition is not DRAINING, a command's end changes no model. -/
theorem State.settle_models (h : (s.part p).state ≠ .draining) : (s.settle x p).models = s.models := by
  unfold State.settle
  rw [State.drainSettle_of_not_draining]
  · simp
  · exact State.pauseSettle_not_draining _ _ (by simpa using h)

theorem State.complete_models (c : Cmd) (st spec0 spec1 : Nat) (result trunc : Bool) (h : (s.part c.part).state ≠ .draining) :
    (s.complete c st spec0 spec1 result trunc).models = s.models := by
  unfold State.complete
  dsimp only
  rw [State.settle_models]
  · split <;> simp
  · rw [← s.finish_part_state c.part c st spec0 spec1 result trunc] at h
    split
    · simpa [State.part] using h
    · exact h

/-- A partition that drains drops slots and activations of its own. -/
theorem State.drainSettle_models_subset :
    (∀ x ∈ (s.drainSettle p).models.slots, x ∈ s.models.slots) ∧ (∀ x ∈ (s.drainSettle p).models.active, x ∈ s.models.active) := by
  unfold State.drainSettle
  dsimp only
  split
  · exact ⟨fun _ hx => (List.mem_filter.mp hx).1, fun _ hx => (List.mem_filter.mp hx).1⟩
  · exact ⟨fun _ hx => hx, fun _ hx => hx⟩

theorem State.complete_models_subset (c : Cmd) (st spec0 spec1 : Nat) (result trunc : Bool) :
    (∀ x ∈ (s.complete c st spec0 spec1 result trunc).models.slots, x ∈ s.models.slots) ∧
      (∀ x ∈ (s.complete c st spec0 spec1 result trunc).models.active, x ∈ s.models.active) := by
  unfold State.complete State.settle
  dsimp only
  have hEnd {s1 : State} (h : s1.models = s.models) := h ▸ s1.drainSettle_models_subset c.part
  refine hEnd ?_
  split <;> simp

end

/-! ### The commands in flight -/

section
variable (s : State)

@[simp] theorem State.recordLost_cmds (p : Nat) : (s.recordLost p).qm.cmds = s.qm.cmds := by
  unfold State.recordLost
  dsimp only
  repeat' split
  all_goals simp [State.modRing]

@[simp] theorem State.signal_cmds (p : Nat) (irq : Bool) : (s.signal p irq).qm.cmds = s.qm.cmds := by
  unfold State.signal
  dsimp only
  repeat' split
  all_goals simp [State.modRing]

@[simp] theorem State.ringSettle_cmds (p : Nat) : (s.ringSettle p).qm.cmds = s.qm.cmds := by
  unfold State.ringSettle
  dsimp only
  split <;> rfl

@[simp] theorem State.heldAtEnd_seq (c : Cmd) : (s.heldAtEnd c).seq = c.seq := by
  unfold State.heldAtEnd
  dsimp only
  split <;> rfl

/-- A command that ends leaves, and no other does. -/
theorem State.finish_cmds (c : Cmd) (st spec0 spec1 : Nat) (result trunc : Bool) :
    (s.finish c st spec0 spec1 result trunc).qm.cmds = s.qm.cmds.filter (fun x => x.seq != c.seq) := by
  unfold State.finish
  dsimp only
  repeat' split
  all_goals simp [State.modRing]

/-- The fetch numbers of the commands in flight. -/
def State.seqs : List Nat := s.qm.cmds.map Cmd.seq

theorem State.seqs_mapCmds {f : Cmd → Cmd} (hf : ∀ c, (f c).seq = c.seq) : (s.mapCmds f).seqs = s.seqs :=
  List.map_map.trans (List.map_congr_left (fun c _ => hf c))

theorem State.seqs_modCmd (n : Nat) {f : Cmd → Cmd} (hf : ∀ c, (f c).seq = c.seq) : (s.modCmd n f).seqs = s.seqs :=
  s.seqs_mapCmds (fun c => by split <;> simp [hf])

theorem State.finish_seqs (c : Cmd) (st spec0 spec1 : Nat) (result trunc : Bool) :
    (s.finish c st spec0 spec1 result trunc).seqs = s.seqs.filter (· != c.seq) := by
  rw [State.seqs, State.finish_cmds, State.seqs, List.filter_map]
  rfl

theorem State.finish_seqs_sublist (c : Cmd) (st spec0 spec1 : Nat) (result trunc : Bool) :
    (s.finish c st spec0 spec1 result trunc).seqs.Sublist s.seqs := by
  rw [State.finish_seqs]
  exact List.filter_sublist

theorem State.yieldSettle_seqs (x : Nat) : (s.yieldSettle x).seqs.Sublist s.seqs := by
  unfold State.yieldSettle
  dsimp only
  repeat' split
  · exact State.finish_seqs_sublist _ _ _ _ _ _ _
  · exact List.Sublist.refl _
  · exact List.Sublist.refl _

theorem State.saveSettle_seqs (x : Nat) : (s.saveSettle x).seqs.Sublist s.seqs := by
  unfold State.saveSettle
  dsimp only
  repeat' split
  · exact State.finish_seqs_sublist _ _ _ _ _ _ _
  · exact List.Sublist.refl _
  · exact List.Sublist.refl _

theorem State.borrowSettle_seqs (x : Nat) : (s.borrowSettle x).seqs = s.seqs := congrArg (fun q : Qm => q.cmds.map Cmd.seq) (by simp)

theorem State.restoreFree_seqs (p : Nat) : (s.restoreFree p).seqs = s.seqs := by
  unfold State.restoreFree State.putImages
  refine (State.seqs_mapCmds _ (fun c => ?_)).trans (foldl_keeps State.seqs _ _ _ (fun _ _ => rfl))
  split <;> rfl

theorem State.pauseSettle_seqs (p : Nat) : (s.pauseSettle p).seqs.Sublist s.seqs := by
  unfold State.pauseSettle
  dsimp only
  split
  · split
    · exact State.finish_seqs_sublist _ _ _ _ _ _ _
    · exact List.Sublist.refl _
  · exact List.Sublist.refl _

theorem State.bindAll_seqs : s.bindAll.seqs = s.seqs := by
  refine foldl_keeps State.seqs _ _ _ (fun s c => ?_)
  unfold State.bindCmd
  dsimp only
  split
  · exact s.seqs_modCmd _ (fun _ => rfl)
  · split
    · exact s.seqs_modCmd _ (fun _ => rfl)
    · rfl

/-- No command enters by what an end lets happen. -/
theorem State.settle_seqs (x p : Nat) : (s.settle x p).seqs.Sublist s.seqs := by
  unfold State.settle
  calc
    _ = _ := congrArg (fun q : Qm => q.cmds.map Cmd.seq) (State.drainSettle_qm _ p)
    List.Sublist _ _ := State.pauseSettle_seqs _ p
    _ = _ := State.restoreFree_seqs _ p
    _ = _ := State.borrowSettle_seqs _ x
    List.Sublist _ _ := State.saveSettle_seqs _ x
    List.Sublist _ _ := s.yieldSettle_seqs x

theorem State.complete_seqs (c : Cmd) (st spec0 spec1 : Nat) (result trunc : Bool) :
    (s.complete c st spec0 spec1 result trunc).seqs.Sublist (s.seqs.filter (· != c.seq)) := by
  unfold State.complete
  refine (State.settle_seqs _ _ _).trans ?_
  split <;> simp [State.bindAll_seqs, State.finish_seqs]

/-- A completed command is no longer in flight. -/
theorem State.seq_ne_of_mem_complete {c x : Cmd} {st spec0 spec1 : Nat} {result trunc : Bool}
    (hx : x ∈ (s.complete c st spec0 spec1 result trunc).qm.cmds) : x.seq ≠ c.seq := by
  have hLeft := (s.complete_seqs c st spec0 spec1 result trunc).subset (List.mem_map_of_mem (f := Cmd.seq) hx)
  simpa using (List.mem_filter.mp hLeft).2

end

end Sys2Proof.Machine
end

section
/-!
SUPPORT. MODEL_LOAD, MODEL_LOAD_DONE and MODEL_UNLOAD (R316 to R322): what each leaves of the slots, the commands in flight and
every other model.
-/

namespace Sys2Proof.Machine

/-! ### Regulators and models -/

section
variable (s : State) (p : Nat) (ws rs : List (Nat × Nat))

@[simp] theorem State.bwRequest_models : (s.bwRequest p ws rs).2.models = s.models :=
  State.bwRequest_keeps State.models (fun _ _ _ => rfl) (fun _ _ _ _ => rfl) (fun _ _ _ _ => rfl) s p ws rs
@[simp] theorem State.bwRequest_tiles : (s.bwRequest p ws rs).2.tiles = s.tiles :=
  State.bwRequest_keeps State.tiles (fun _ _ _ => rfl) (fun _ _ _ _ => rfl) (fun _ _ _ _ => rfl) s p ws rs
@[simp] theorem State.bwRequest_hif : (s.bwRequest p ws rs).2.hif = s.hif :=
  State.bwRequest_keeps State.hif (fun _ _ _ => rfl) (fun _ _ _ _ => rfl) (fun _ _ _ _ => rfl) s p ws rs

end

/-- A request changes of a partition the levels of its regulators alone: what they do not touch it leaves alone. -/
theorem State.bwRequest_part {β : Type} (view : Partition → β) (hv : ∀ (q : Partition) bw, view { q with bw := bw } = view q) (s : State)
    (p : Nat) (ws rs : List (Nat × Nat)) (x : Nat) : view ((s.bwRequest p ws rs).2.part x) = view (s.part x) := by
  have hCharge (s : State) (r : Nat × Nat) : view ((s.bwCharge p r.1 r.2).part x) = view (s.part x) := by
    unfold State.bwCharge
    split
    · rfl
    · by_cases hx : x = p
      · rw [hx, State.part_modPart_same, hv]
      · rw [State.part_modPart_ne s _ hx]
  unfold State.bwRequest
  split
  · refine Eq.trans ?_ (foldl_keeps (fun s : State => view (s.part x)) _ rs s hCharge)
    exact foldl_keeps (fun s : State => view (s.part x)) _ ws _ (fun _ _ => by rfl)
  · exact foldl_keeps (fun s : State => view (s.part x)) _ ws s (fun _ _ => by rfl)

/-! ### The tensors of a slot at the end of a load (R240, R245) -/

/-- Slot o holds m. -/
def State.putSlot (s : State) (o : Nat) (m : Slot) : State :=
  { s with models := { s.models with slots := tset s.models.slots o m } }

theorem State.tget_slots (s : State) (o : Nat) : tget {} s.models.slots o = s.slot o := rfl

theorem State.slot_of_models {s t : State} (h : t.models = s.models) (o : Nat) : t.slot o = s.slot o :=
  congrArg (fun y : Models => (tget {} y.slots o : Slot)) h

@[simp] theorem State.slot_putSlot_same (s : State) (o : Nat) (m : Slot) : (s.putSlot o m).slot o = m := tget_tset_same _ _ _ _
theorem State.slot_putSlot_ne (s : State) {o q : Nat} (m : Slot) (h : q ≠ o) : (s.putSlot o m).slot q = s.slot q :=
  tget_tset_ne _ _ _ h

/-- Tensor t of slot o changed by f. -/
def State.modTensor (s : State) (o t : Nat) (f : Tensor → Tensor) : State :=
  s.putSlot o { s.slot o with tensors := lmod (s.slot o).tensors t f }

/-- FALLBACK marks the tensor; the format block and the event log tell of it. -/
theorem State.enterFallback_eq (s : State) (o t : Nat) :
    s.enterFallback o t =
      let s := s.modTensor o t (fun x => { x with fallback := true })
      let s := { s with fmt := { s.fmt with fbLast := BitVec.ofNat 32 (t * 65536 + o) } }
      if flag s.fmt.ctl 0 then s.event 0x0031 0 10 o t 0 else s := rfl

theorem State.putShadow_eq (s : State) (o t : Nat) (bs : List Byte) :
    s.putShadow o t bs = s.modTensor o t (fun x => { x with shadow := bs }) := rfl

/-- What neither a change of a tensor, nor the counts of conversions, nor an event touches, FALLBACK leaves alone. -/
theorem State.enterFallback_keeps {β : Type} (g : State → β) (o t : Nat) (hTensor : ∀ s f, g (State.modTensor s o t f) = g s)
    (hFmt : ∀ s x, g { s with fmt := x } = g s) (hEvent : ∀ s code sev kind unit d0 d1, g (State.event s code sev kind unit d0 d1) = g s)
    (s : State) : g (s.enterFallback o t) = g s := by
  rw [State.enterFallback_eq]
  dsimp only
  split
  · rw [hEvent, hFmt, hTensor]
  · rw [hFmt, hTensor]

/-- What no change of the slot's tensors touches, the end of a load leaves alone. -/
theorem State.loadTensor_keeps {β : Type} (g : State → β) (o t : Nat) (hTensor : ∀ s f, g (State.modTensor s o t f) = g s)
    (hFmt : ∀ s x, g { s with fmt := x } = g s) (hFree : ∀ s k, g { s with freeCtr := k } = g s)
    (hEvent : ∀ s code sev kind unit d0 d1, g (State.event s code sev kind unit d0 d1) = g s)
    (s : State) (img e : List Byte) : g (s.loadTensor o img t e) = g s := by
  unfold State.loadTensor
  dsimp only
  split
  · rfl
  split
  · rw [State.fmtCount, hFmt, State.putShadow_eq, hTensor]
  · rw [State.enterFallback_keeps g o t hTensor hFmt hEvent, State.fmtCount, hFmt, State.putShadow_eq, hTensor]
    exact (hFree _ _).trans (hFree _ _)

/-- The slots with the tensors of slot o left out: a load's end changes nothing else of them. -/
def State.besideTensors (s : State) (o q : Nat) : Slot :=
  if q = o then { s.slot q with tensors := [] } else s.slot q

theorem State.modTensor_besideTensors (s : State) (o t q : Nat) (f : Tensor → Tensor) :
    (s.modTensor o t f).besideTensors o q = s.besideTensors o q := by
  unfold State.modTensor State.besideTensors
  by_cases h : q = o
  · simp [h]
  · simp [h, State.slot_putSlot_ne]

/-- Every tensor of a slot loaded. -/
def State.loadTensors (s : State) (o : Nat) (img : List Byte) (es : List (List Byte)) : State :=
  es.zipIdx.foldl (fun s e => s.loadTensor o img e.2 e.1) s

section
variable (s : State) (o : Nat) (img : List Byte) (es : List (List Byte))

theorem State.loadTensors_besideTensors (q : Nat) : (s.loadTensors o img es).besideTensors o q = s.besideTensors o q :=
  foldl_keeps (fun s : State => s.besideTensors o q) _ _ _ (fun s e => State.loadTensor_keeps (fun s : State => s.besideTensors o q) o e.2
    (fun s f => s.modTensor_besideTensors o e.2 q f) (fun _ _ => rfl) (fun _ _ => rfl)
    (fun _ _ _ _ _ _ _ => by simp [State.besideTensors, State.slot]) s img e.1)

@[simp] theorem State.loadTensors_sch : (s.loadTensors o img es).sch = s.sch :=
  foldl_keeps State.sch _ _ _ (fun s e => State.loadTensor_keeps State.sch o e.2 (fun _ _ => rfl) (fun _ _ => rfl) (fun _ _ => rfl)
    State.event_sch s img e.1)

@[simp] theorem State.loadTensors_qm : (s.loadTensors o img es).qm = s.qm :=
  foldl_keeps State.qm _ _ _ (fun s e => State.loadTensor_keeps State.qm o e.2 (fun _ _ => rfl) (fun _ _ => rfl) (fun _ _ => rfl)
    State.event_qm s img e.1)

theorem State.loadTensors_slot_ne {q : Nat} (h : q ≠ o) :
    (s.loadTensors o img es).slot q = s.slot q := by
  simpa [State.besideTensors, h] using s.loadTensors_besideTensors o img es q

/-- The slot itself keeps all but its tensors. -/
theorem State.loadTensors_slot :
    { (s.loadTensors o img es).slot o with tensors := [] } = { s.slot o with tensors := [] } := by
  simpa [State.besideTensors] using s.loadTensors_besideTensors o img es o

end

/-! ### A model loaded, and a slot freed -/

/-- The slot READY, with its MODEL_ID and the tier it is read from. -/
def State.readySlot (s : State) (c : Cmd) (m : Slot) : Slot :=
  { m with state := .ready, modelId := modelIdOf m.hdr m.image (m.tensors.map Tensor.entry),
           inPlace := m.far && decide (s.modelArea c.part < m.weights) }

/-- A model loaded: its slot READY and its shadows written. -/
def State.loaded (s : State) (c : Cmd) : State :=
  let o := dObject c.desc
  let m := s.slot o
  (s.putSlot o (s.readySlot c m)).loadTensors o m.image (m.tensors.map Tensor.entry)

section
variable (s : State) {c : Cmd}

theorem State.loaded_slot_ne {q : Nat} (h : q ≠ dObject c.desc) : (s.loaded c).slot q = s.slot q :=
  (State.loadTensors_slot_ne _ _ _ _ h).trans (s.slot_putSlot_ne _ h)

/-- Of its slot a loaded model leaves open the tensors alone. -/
theorem State.loaded_slot : { (s.loaded c).slot (dObject c.desc) with tensors := [] } =
    { s.readySlot c (s.slot (dObject c.desc)) with tensors := [] } := by
  simp [State.loaded, State.loadTensors_slot]

theorem State.loaded_sch : (s.loaded c).sch = s.sch := State.loadTensors_sch _ _ _ _

theorem State.loaded_qm : (s.loaded c).qm = s.qm := State.loadTensors_qm _ _ _ _

theorem State.mem_slotFree_slots {o : Nat} {x : Nat × Slot} : x ∈ (s.slotFree o).models.slots ↔ x ∈ s.models.slots ∧ x.1 ≠ o := by
  simp [State.slotFree, tdel]

theorem State.mem_slotFree_active {o : Nat} {x : Nat × Nat} : x ∈ (s.slotFree o).models.active ↔ x ∈ s.models.active ∧ x.2 ≠ o := by
  simp [State.slotFree]

end

/-! ### MODEL_LOAD -/

/-- The slot that a load leaves: LOADING, with the image and its tensors. -/
def Cmd.laidSlot (c : Cmd) (h dir img : List Byte) (rs : List Extent) : Slot :=
  { state := .loading, owner := c.part, hdr := h, image := img,
    tensors := (dirEntries h dir).map (fun e => { entry := e, bytes := tLen e + tTable e }),
    far := bitsOf (dSubop c.desc) 0 1 == 1, runs := rs }

/-- The command that a load leaves running, with one unit per MiB of the image (R322). -/
def Cmd.copying (c x : Cmd) : Cmd :=
  let t := cdiv (dfld c.desc 0x10 0 32) (2 ^ 20)
  { x with run := .running, spec0 := unitsSpec 0 t, job := some { total := t } }

section
variable {s : State} {n : Nat} {c : Cmd} (hc : s.ready? n (· == opModelLoad) = some c)
include hc

/-- A MODEL_LOAD that runs again copies one MiB, once the regulator of its tier is open. -/
theorem modelLoad_of_job (hLoad : bitsOf (dSubop c.desc) 1 1 = 0) (hJob : c.job ≠ none) :
    modelLoad n s = if (s.copyGo n c.part (bitsOf (dSubop c.desc) 0 1 == 1)).1
      then (s.copyGo n c.part (bitsOf (dSubop c.desc) 0 1 == 1)).2.unitStep n
      else (s.copyGo n c.part (bitsOf (dSubop c.desc) 0 1 == 1)).2 := by
  simp [modelLoad, hc, hLoad, Option.isSome_iff_ne_none.mpr hJob]

section
variable (hLoad : bitsOf (dSubop c.desc) 1 1 = 0) (hJob : c.job = none)
include hLoad hJob

theorem modelLoad_of_used (hState : (s.slot (dObject c.desc)).state ≠ .free)
    (hUsed : s.slotUsed c (dObject c.desc) = true) : modelLoad n s = s.refuse c stBusy := by
  simp [modelLoad, hc, hLoad, hJob, State.tget_slots, hState, hUsed]

variable {h : List Byte} (hSlot : (s.slot (dObject c.desc)).state = .free ∨ s.slotUsed c (dObject c.desc) = false)
  (hRead : s.bufRead (dDevAddr c.desc) (dfld c.desc 0x08 0 64) 256 = .ok h)
include hSlot hRead

theorem modelLoad_of_badHeader (hBad : headerOk h (dfld c.desc 0x10 0 32) = false) : modelLoad n s = s.refuse c stBadContent := by
  have hFree : ¬ ((s.slot (dObject c.desc)).state ≠ .free ∧ s.slotUsed c (dObject c.desc) = true) := by
    grind
  simp [modelLoad, hc, hLoad, hJob, State.tget_slots, hFree, hRead, hBad]

theorem modelLoad_of_fits {dir img : List Byte} {rs : List Extent} {s1 : State} (hOk : headerOk h (dfld c.desc 0x10 0 32) = true)
    (hDir : s.bufRead (dDevAddr c.desc) (dfld c.desc 0x08 0 64 + hdrDir h) (64 * hdrTensors h) = .ok dir)
    (hTensors : (dirEntries h dir).all (tensorOk · (dfld c.desc 0x10 0 32)) = true)
    (hSpace : (s.slotFree (dObject c.desc)).orDropReplicas (fun x => x.modelSpace (bitsOf (dSubop c.desc) 0 1 == 1)
      (weightBytes (dirEntries h dir) + shadowTotal (dirEntries h dir)) (hdrPool h * 2 ^ 20)) = some (rs, s1))
    (hImage : s1.bufRead (dDevAddr c.desc) (dfld c.desc 0x08 0 64) (dfld c.desc 0x10 0 32) = .ok img) :
    modelLoad n s = (s1.putSlot (dObject c.desc) (c.laidSlot h dir img rs)).modCmd n c.copying := by
  have hFree : ¬ ((s.slot (dObject c.desc)).state ≠ .free ∧ s.slotUsed c (dObject c.desc) = true) := by
    grind
  simp only [modelLoad, hc, hLoad, hJob, State.tget_slots, hFree, hRead, hOk, hDir, hTensors, hSpace, hImage, Nat.zero_ne_one,
    Option.isSome_none, Bool.false_eq_true, Bool.not_true, if_false]
  rfl

end

/-! ### MODEL_LOAD_DONE -/

/-- A command marked with whether its model uses FALLBACK tensors. -/
def Cmd.marked (b : Bool) (c : Cmd) : Cmd := { c with fallback := b }

theorem modelLoadDone_of_loading (hJob : c.job ≠ none) (hState : (s.slot (dObject c.desc)).state = .loading) :
    ∃ (b : Bool) (spec0 : Nat), modelLoadDone n s = ((s.loaded c).modCmd n (Cmd.marked b)).complete
      (c.marked b) stOk spec0 0 false false := by
  have hCmd : (s.loaded c).cmd? n = some c := by
    unfold State.cmd?
    rw [State.loaded_qm]
    exact (State.cmd?_of_ready? hc).1
  have hDone : modelLoadDone n s = ((s.loaded c).modCmd n
      (Cmd.marked (((s.loaded c).slot (dObject c.desc)).marks.any id))).doneUnits n 0 := by
    have hRun : ¬ (c.job.isNone = true ∨ (s.slot (dObject c.desc)).state ≠ .loading) := by
      simp [hJob, hState]
    simp only [modelLoadDone, hc, State.tget_slots, hRun, if_false]
    rfl
  rw [hDone, State.doneUnits, State.cmd?_modCmd_same _ _ (Cmd.marked _) (fun _ => rfl), hCmd]
  exact ⟨_, _, rfl⟩

/-- Where the partition is not DRAINING, the models are those of the load. -/
theorem modelLoadDone_models (hJob : c.job ≠ none) (hState : (s.slot (dObject c.desc)).state = .loading)
    (hPart : (s.part c.part).state ≠ .draining) : (modelLoadDone n s).models = (s.loaded c).models := by
  obtain ⟨b, spec0, hDone⟩ := modelLoadDone_of_loading hc hJob hState
  rw [hDone]
  refine State.complete_models _ _ _ _ _ _ _ ?_
  simpa [State.part, Cmd.marked, State.loaded_sch] using hPart

/-! ### MODEL_UNLOAD -/

section
variable (hUnload : bitsOf (dSubop c.desc) 1 1 = 1)
include hUnload

theorem modelUnload_of_used (hUsed : s.slotUsed c (dObject c.desc) = true) : modelUnload n s = s.refuse c stBusy := by
  simp [modelUnload, hc, hUnload, hUsed]

theorem modelUnload_of_unused (hUsed : s.slotUsed c (dObject c.desc) = false) :
    modelUnload n s = (s.slotFree (dObject c.desc)).complete c stOk 0 0 false false := by
  simp [modelUnload, hc, hUnload, hUsed]

end

end

end Sys2Proof.Machine
end

section
/-!
SUPPORT. MODEL_ACTIVATE (R323, R325): the tiles of the group and the models active after it.
-/

namespace Sys2Proof.Machine

/-! ### Pinned tensors in the tiles of a group -/

section
variable (s : State)

/-- A tile that no change of a list names stays as it is. -/
theorem State.tile_foldl_modTile_ne {α : Type} (key : α → Nat) (f : α → Tile → Tile) {l : List α} {x : Nat} (h : ∀ a ∈ l, x ≠ key a) :
    (l.foldl (fun s a => s.modTile (key a) (f a)) s).tile x = s.tile x := by
  induction l generalizing s with
  | nil => rfl
  | cons a l ih =>
    rw [List.foldl_cons, ih _ (fun b hb => h b (List.mem_cons_of_mem _ hb))]
    exact State.tile_modTile_ne _ _ (h a List.mem_cons_self)

/-- Where every change of a list leaves a tile with one view, each tile that it names has that view. -/
theorem State.tile_foldl_modTile_view {α β : Type} (key : α → Nat) (f : α → Tile → Tile) (view : Tile → β) {v : β}
    (hv : ∀ a t, view (f a t) = v) {l : List α} {x : Nat} (h : ∃ a ∈ l, x = key a) :
    view ((l.foldl (fun s a => s.modTile (key a) (f a)) s).tile x) = v := by
  induction l generalizing s with
  | nil => simp at h
  | cons a l ih =>
    rw [List.foldl_cons]
    by_cases hl : ∃ b ∈ l, x = key b
    · exact ih _ hl
    · have hx : x = key a := by
        obtain ⟨b, hb, rfl⟩ := h
        rcases List.mem_cons.mp hb with rfl | hb
        · rfl
        · exact absurd ⟨b, hb, rfl⟩ hl
      rw [State.tile_foldl_modTile_ne _ key f (fun b hb hx => hl ⟨b, hb, hx⟩), hx, State.tile_modTile_same]
      exact hv _ _

variable (p g o : Nat)

/-- What no change of a tile touches, pinning leaves alone. -/
theorem State.pinGroup_keeps {β : Type} (view : State → β) (hTile : ∀ s t f, view (State.modTile s t f) = view s) :
    view (s.pinGroup p g o) = view s := foldl_keeps view _ _ _ (fun _ _ => hTile _ _ _)

theorem State.pinGroup_eq : s.pinGroup p g o = { s with tiles := (s.pinGroup p g o).tiles } :=
  congrArg (fun y : State => { y with tiles := (s.pinGroup p g o).tiles })
    (s.pinGroup_keeps p g o (fun y : State => { y with tiles := [] }) (fun _ _ _ => rfl))

theorem exists_mem_zipIdx_fst_iff {x : Nat} {ts : List Nat} : (∃ a ∈ ts.zipIdx, x = a.1) ↔ x ∈ ts := by
  refine Iff.trans ?_ (iff_of_eq (congrArg (x ∈ ·) (List.zipIdx_map_fst 0 ts)))
  simp only [List.mem_map, eq_comm]

/-- Every tile of the group holds the model's pinned tensors. -/
theorem State.pinGroup_pins {x : Nat} (h : x ∈ groupTiles (s.part p).place g) :
    ((s.pinGroup p g o).tile x).pins = (s.slot o).pinned.map (fun y => (o, y.2)) := by
  refine State.tile_foldl_modTile_view s Prod.fst _ Tile.pins ?_ (exists_mem_zipIdx_fst_iff.mpr h)
  exact fun _ _ => rfl

theorem State.pinGroup_tile_of_not_mem {x : Nat} (h : x ∉ groupTiles (s.part p).place g) : (s.pinGroup p g o).tile x = s.tile x :=
  State.tile_foldl_modTile_ne s Prod.fst _ (fun _ ha hx => h (exists_mem_zipIdx_fst_iff.mp ⟨_, ha, hx⟩))

/-! ### Activation -/

/-- Slot o active on group g of partition p. -/
def State.activate : State :=
  ({ s with models := { s.models with active := tset s.models.active (64 * p + g) o } } : State).pinGroup p g o

theorem State.activate_eq : s.activate p g o =
    { s with tiles := (s.activate p g o).tiles, models := { s.models with active := tset s.models.active (64 * p + g) o } } :=
  State.pinGroup_eq _ p g o

theorem State.activate_pins {x : Nat} (h : x ∈ groupTiles (s.part p).place g) :
    ((s.activate p g o).tile x).pins = (s.slot o).pinned.map (fun y => (o, y.2)) := State.pinGroup_pins _ p g o h

theorem State.activate_tile_of_not_mem {x : Nat} (h : x ∉ groupTiles (s.part p).place g) : (s.activate p g o).tile x = s.tile x :=
  State.pinGroup_tile_of_not_mem _ p g o h

/-! ### MODEL_ACTIVATE -/

/-- MODEL_ACTIVATE applies: the model is READY, of the partition, which is ACTIVE with the group in its placement. -/
def State.MayActivate : Prop :=
  (s.slot o).state = .ready ∧ (s.slot o).owner = p ∧ (s.part p).state = .active ∧ (s.part p).place.any (fun e => e.2 == g) = true

/-- The model can be read from where it lies, or has its working copy. -/
def State.ModelHere : Prop :=
  (s.slot o).far = false ∨ (s.slot o).inPlace = true ∨ s.models.copies.any (fun w => w.slot == o && w.part == p) = true

/-- The state with a working copy of slot o in the model area of p. -/
def State.addCopy : State :=
  { s with models := { s.models with copies := s.models.copies ++ [{ slot := o, part := p, stepped := s.hif.timer }] } }

/-- Bytes of the working copies in the model area of p. -/
def State.copyBytes : Nat := sumN ((s.models.copies.filter (fun w => w.part == p)).map (fun w => (s.slot w.slot).weights))

theorem State.not_mayActivate_iff : ¬ s.MayActivate p g o ↔ ((s.slot o).state ≠ .ready ∨ (s.slot o).owner ≠ p ∨
    (s.part p).state ≠ .active ∨ (!(s.part p).place.any (fun e => e.2 == g)) = true) := by
  simp only [State.MayActivate, Classical.not_and_iff_not_or_not, Bool.not_eq_true, Bool.not_eq_true']

theorem modelActivate_of_not (h : ¬ s.MayActivate p g o) : modelActivate p g o s = s := if_pos ((s.not_mayActivate_iff p g o).mp h)

/-- With room already, no copy is evicted. -/
theorem State.copyRoom_of_room {b k : Nat} (h : s.copyBytes p + b ≤ s.modelArea p) : State.copyRoom p b (k + 1) s = some s := if_pos h

section
variable {s p g o} (hMay : s.MayActivate p g o)
include hMay

theorem modelActivate_of_here (hHere : s.ModelHere p o) : modelActivate p g o s = s.activate p g o := by
  refine (if_neg (fun h => (s.not_mayActivate_iff p g o).mpr h hMay)).trans (if_pos ?_)
  simpa [State.ModelHere, State.slot] using hHere

section
variable (hAway : ¬ s.ModelHere p o) (hRoom : s.copyBytes p + (s.slot o).weights ≤ s.modelArea p)
include hAway hRoom

/-- With room in the model area, the copy waits for the regulators of both tiers. -/
theorem modelActivate_of_away : modelActivate p g o s =
    let r := s.bwRequest p [] [(3, (s.slot o).weights), (1, (s.slot o).weights)]
    if !r.1 then s else (r.2.addCopy p o).activate p g o := by
  have hNotHere : ¬ ((!(s.slot o).far) = true ∨ (s.slot o).inPlace = true ∨
      s.models.copies.any (fun w => w.slot == o && w.part == p) = true) := by
    simpa [State.ModelHere] using hAway
  refine (if_neg (fun h => (s.not_mayActivate_iff p g o).mpr h hMay)).trans ((if_neg hNotHere).trans ?_)
  have hCopy := s.copyRoom_of_room p (k := s.models.copies.length) hRoom
  rw [State.slot] at hCopy
  rw [hCopy]
  rfl

end

end

end

end Sys2Proof.Machine
end

section
/-!
SUPPORT. The statement of MODEL_LOAD, MODEL_LOAD_DONE, MODEL_UNLOAD and MODEL_ACTIVATE.
-/

namespace Sys2Proof.Machine

theorem exec_modelLoad (n : Nat) (s : State) : exec (.modelLoad n) s = .next (modelLoad n s) := rfl
theorem exec_modelLoadDone (n : Nat) (s : State) : exec (.modelLoadDone n) s = .next (modelLoadDone n s) := rfl
theorem exec_modelUnload (n : Nat) (s : State) : exec (.modelUnload n) s = .next (modelUnload n s) := rfl
theorem exec_modelActivate (part : BitVec 4) (group : Fin 64) (slot : BitVec 8) (s : State) :
    exec (.modelActivate part group slot) s = .next (modelActivate part.toNat group.val slot.toNat s) := rfl

/-- What a load leaves: the slot LOADING with the image, every other slot, host memory and the journal as they were. -/
theorem modelLaid_leaves (s : State) (n : Nat) (c : Cmd) (h dir img : List Byte) (rs : List Extent) :
    ∃ t k, (s.putSlot (dObject c.desc) (c.laidSlot h dir img rs)).modCmd n c.copying = t ∧ t.slot (dObject c.desc) = k ∧
      k.state = .loading ∧ k.owner = c.part ∧ k.hdr = h ∧ k.image = img ∧ k.far = (bitsOf (dSubop c.desc) 0 1 == 1) ∧ k.runs = rs ∧
      k.tensors.map Tensor.entry = dirEntries h dir ∧ (∀ q, q ≠ dObject c.desc → t.slot q = s.slot q) ∧
      t.hostMem = s.hostMem ∧ t.jrn = s.jrn := by
  have hEntries : (c.laidSlot h dir img rs).tensors.map Tensor.entry = dirEntries h dir := by
    simp [Cmd.laidSlot, Function.comp_def]
  exact ⟨_, _, rfl, s.slot_putSlot_same _ _, rfl, rfl, rfl, rfl, rfl, rfl, hEntries, fun q hq => s.slot_putSlot_ne _ hq, rfl, rfl⟩

/-- What the end of a load leaves: the slot READY with its MODEL_ID, every other slot as it was, the command gone. -/
theorem modelLoadDone_leaves {s : State} {n : Nat} {c : Cmd} (hc : s.ready? n (· == opModelLoad) = some c) (hJob : c.job ≠ none)
    (hState : (s.slot (dObject c.desc)).state = .loading) (hPart : (s.part c.part).state ≠ .draining) :
    let m := s.slot (dObject c.desc)
    ∃ t k, modelLoadDone n s = t ∧ t.slot (dObject c.desc) = k ∧ k.state = .ready ∧ k.owner = m.owner ∧ k.image = m.image ∧
      k.modelId = modelIdOf m.hdr m.image (m.tensors.map Tensor.entry) ∧ (∀ q, q ≠ dObject c.desc → t.slot q = s.slot q) ∧
      (∀ x ∈ t.qm.cmds, x.seq ≠ n) := by
  intro m
  have hModels := modelLoadDone_models hc hJob hState hPart
  have hSlot (q : Nat) : (modelLoadDone n s).slot q = (s.loaded c).slot q := State.slot_of_models hModels q
  obtain ⟨hReady, hOwner, -, hImage, hId, -⟩ := Slot.mk.inj (s.loaded_slot (c := c))
  have hGone : ∀ x ∈ (modelLoadDone n s).qm.cmds, x.seq ≠ n := by
    obtain ⟨b, spec0, hDone⟩ := modelLoadDone_of_loading hc hJob hState
    intro x hx
    rw [hDone] at hx
    have hNe : x.seq ≠ (c.marked b).seq := State.seq_ne_of_mem_complete _ hx
    rwa [Cmd.marked, State.seq_of_ready? hc] at hNe
  exact ⟨_, _, rfl, hSlot _, hReady, hOwner, hImage, hId, fun q hq => (hSlot q).trans (s.loaded_slot_ne hq), hGone⟩

/-- No slot or activation of an unloaded model is left. -/
theorem modelUnload_leaves_none (s : State) (c : Cmd) (o st : Nat) :
    (∀ x ∈ ((s.slotFree o).complete c st 0 0 false false).models.slots, x.1 ≠ o) ∧
      (∀ x ∈ ((s.slotFree o).complete c st 0 0 false false).models.active, x.2 ≠ o) := by
  obtain ⟨hSlots, hActive⟩ := (s.slotFree o).complete_models_subset c st 0 0 false false
  exact ⟨fun x hx => ((State.mem_slotFree_slots s).mp (hSlots x hx)).2, fun x hx => ((State.mem_slotFree_active s).mp (hActive x hx)).2⟩

/-- An activation with a new working copy, as the statement writes it. -/
theorem activate_addCopy_eq (s : State) (p g o : Nat) (ws rs : List (Nat × Nat)) :
    let r := (s.bwRequest p ws rs).2
    (r.addCopy p o).activate p g o = { r with
      tiles := ((r.addCopy p o).activate p g o).tiles
      models := { s.models with
        active := tset s.models.active (64 * p + g) o
        copies := s.models.copies ++ [{ slot := o, part := p, stepped := s.hif.timer }] } } := by
  intro r
  have hModels : r.models = s.models := s.bwRequest_models p ws rs
  have hHif : r.hif = s.hif := s.bwRequest_hif p ws rs
  rw [← hModels, ← hHif]
  exact State.activate_eq _ p g o

/-- Settles O42: what MODEL_LOAD, its end and MODEL_UNLOAD leave of the slots, and the group's tiles once a model is active. -/
theorem modelsLoadAndBecomeActive : Obligations.ModelsLoadAndBecomeActive := by
  unfold Obligations.ModelsLoadAndBecomeActive
  refine ⟨fun s n c hc => ?_, fun s part group slot => ?_⟩
  · refine ⟨fun hLoad hJob => ⟨fun hState hUsed => ?_, fun hSlot h hRead => ⟨fun hBad => ?_, fun hOk => ?_⟩⟩, fun hLoad hJob => ?_,
      fun hJob hState hPart => ?_, fun hUnload => ⟨fun hUsed => ?_, fun hUsed => ?_⟩⟩
    · rw [exec_modelLoad, modelLoad_of_used hc hLoad hJob hState hUsed]
    · rw [exec_modelLoad, modelLoad_of_badHeader hc hLoad hJob hSlot hRead hBad]
    · intro dir img rs s1 hDir hTensors hSpace hImage
      rw [exec_modelLoad, modelLoad_of_fits hc hLoad hJob hSlot hRead hOk hDir hTensors hSpace hImage]
      obtain ⟨t, k, ht, hLaid⟩ := modelLaid_leaves s1 n c h dir img rs
      exact ⟨t, k, congrArg _ ht, hLaid⟩
    · rw [exec_modelLoad, modelLoad_of_job hc hLoad hJob]
    · obtain ⟨t, k, ht, hEnded⟩ := modelLoadDone_leaves hc hJob hState hPart
      exact ⟨t, k, (exec_modelLoadDone n s).trans (congrArg _ ht), hEnded⟩
    · rw [exec_modelUnload, modelUnload_of_used hc hUnload hUsed]
    · rw [exec_modelUnload, modelUnload_of_unused hc hUnload hUsed]
      exact ⟨_, rfl, rfl, modelUnload_leaves_none s c _ stOk⟩
  · rw [exec_modelActivate]
    intro p o m may here used on
    refine ⟨fun hMay => ?_, ?_⟩
    · rw [modelActivate_of_not s p group.val o hMay]
    intro tiles pinned g
    have hPinned (t : State) (hTiles : t.tiles = s.tiles) (hPlace : (t.part p).place = (s.part p).place) (hSlots : t.slot o = s.slot o) :
        pinned (t.activate p group.val o) := by
      refine ⟨fun x hx => ?_, fun x hx => ?_⟩
      · rw [State.activate_pins _ _ _ _ (hPlace ▸ hx), hSlots]
        rfl
      · rw [State.activate_tile_of_not_mem _ _ _ _ (hPlace ▸ hx), State.tile, hTiles]
        rfl
    refine ⟨fun hMay hHere => ?_, fun hMay hAway hRoom => ⟨fun hClosed => ?_, fun hOpen => ?_⟩⟩
    · rw [modelActivate_of_here hMay hHere]
      exact ⟨_, rfl, hPinned s rfl rfl rfl, s.activate_eq p group.val o⟩
    · rw [modelActivate_of_away hMay hAway hRoom]
      exact congrArg _ (if_pos (congrArg not hClosed))
    · rw [modelActivate_of_away hMay hAway hRoom]
      have hGo : ¬ (!g.1) = true := by simp [hOpen]
      have hTiles : (g.2.addCopy p o).tiles = s.tiles := s.bwRequest_tiles p _ _
      have hPlace : ((g.2.addCopy p o).part p).place = (s.part p).place := s.bwRequest_part Partition.place (fun _ _ => rfl) p _ _ p
      have hSlots : (g.2.addCopy p o).slot o = s.slot o := State.slot_of_models (s.bwRequest_models p _ _) o
      exact ⟨_, congrArg _ (if_neg hGo), hPinned _ hTiles hPlace hSlots, activate_addCopy_eq s p group.val o _ _⟩

end Sys2Proof.Machine
end

section
/-!
SUPPORT. The batch step of a command whose tokens are read (R326 to R330): what its begin, its writes and its end leave alone.
-/

namespace Sys2Proof.Machine

/-! ### What a step asks for -/

/-- What a command asks for, which no change of its progress touches. -/
def Cmd.asked (c : Cmd) : Nat × Nat × Desc × List Byte := (c.part, c.ctx, c.desc, c.block)

/-- What no change of a tile touches, an invocation's begin leaves alone (R323). -/
theorem State.repin_keeps {β : Type} (view : State → β) (hTile : ∀ s t f, view (State.modTile s t f) = view s) (s : State) (p o : Nat) :
    view (s.repin p o) = view s :=
  foldl_keeps view _ _ _ (fun s g => s.pinGroup_keeps p g o view hTile)

/-- The invocation of a model's slot by command c begun: it has started, and the model's regions are pinned. -/
def State.invoked (s : State) (c : Cmd) : State := (s.start c.seq).repin c.part (dObject c.desc)

/-- A batch step of command c begun: its model is invoked, and the command marked. -/
def State.beginStep (s : State) (c : Cmd) : State :=
  (s.invoked c).modCmd c.seq (Cmd.marked (((s.invoked c).slot (dObject c.desc)).marks.any id))

/-- The command of a batch step begun. -/
def State.stepCmd (s : State) (c : Cmd) : Cmd := ((s.beginStep c).cmd? c.seq).getD c

section
variable (s : State) (c : Cmd)

theorem State.invoked_slot (o : Nat) : (s.invoked c).slot o = s.slot o :=
  State.slot_of_models (State.repin_keeps State.models (fun _ _ _ => rfl) (s.start c.seq) _ _) o

@[simp] theorem State.beginStep_models : (s.beginStep c).models = s.models :=
  State.repin_keeps State.models (fun _ _ _ => rfl) (s.start c.seq) _ _

@[simp] theorem State.beginStep_sch : (s.beginStep c).sch = s.sch := State.repin_keeps State.sch (fun _ _ _ => rfl) (s.start c.seq) _ _

theorem State.beginStep_asked (n : Nat) : ((s.beginStep c).cmd? n).map Cmd.asked = (s.cmd? n).map Cmd.asked := by
  have hBegun := (s.invoked c).cmd?_map_modCmd Cmd.asked n c.seq
    (f := Cmd.marked (((s.invoked c).slot (dObject c.desc)).marks.any id)) (fun _ => rfl) (fun _ => rfl)
  refine hBegun.trans ((State.repin_keeps (fun s : State => (s.cmd? n).map Cmd.asked) (fun _ _ _ => rfl) _ _ _).trans ?_)
  exact s.cmd?_map_modCmd Cmd.asked _ _ (fun _ => rfl) (fun _ => rfl)

theorem State.bwRequest_asked (p n : Nat) (ws rs : List (Nat × Nat)) :
    ((s.bwRequest p ws rs).2.cmd? n).map Cmd.asked = (s.cmd? n).map Cmd.asked :=
  State.bwRequest_keeps (fun s : State => (s.cmd? n).map Cmd.asked) (fun _ _ _ => rfl)
    (fun s _ _ _ => s.cmd?_map_modCmd Cmd.asked _ _ (fun _ => rfl) (fun _ => rfl))
    (fun s _ _ _ => s.cmd?_map_modCmd Cmd.asked _ _ (fun _ => rfl) (fun _ => rfl)) s p ws rs

variable {s c}

/-- The command of a begun step asks for what it asked before. -/
theorem State.stepCmd_asked (h : (s.cmd? c.seq).map Cmd.asked = some c.asked) : (s.stepCmd c).asked = c.asked := by
  obtain ⟨c0, hc0, hAsked⟩ := Option.map_eq_some_iff.mp ((s.beginStep_asked c c.seq).trans h)
  rw [State.stepCmd, hc0]
  exact hAsked

end

/-! ### Writing the outputs -/

theorem State.devWrite_keeps {β : Type} (view : State → β) (hMem : ∀ s m, view { s with mem := m } = view s) (s : State) (a : Nat)
    (bs : List Byte) : view (s.devWrite a bs) = view s := by
  unfold State.devWrite State.devMemPut
  exact (foldl_keeps view _ _ _ (fun s _ => hMem s _)).trans ((hMem _ _).trans (State.wcbWrite_keeps view hMem s a bs.length))

/-- What neither device memory nor a write of host memory touches, buffers written leave alone. -/
theorem State.writeAll_keeps {β : Type} (view : State → β) (hMem : ∀ s m, view { s with mem := m } = view s)
    (hHost : ∀ s a bs, view (State.hostWrite s a bs) = view s) {dev : Bool} {ws : List (Nat × List Byte)} {s t : State}
    (h : s.writeAll dev ws = some t) : view t = view s := by
  induction ws generalizing s with
  | nil => exact congrArg view (Option.some.inj h).symm
  | cons w ws ih =>
    have hWrite (u : State) (hu : s.bufWrite dev w.1 w.2 = some u) : view u = view s := by
      unfold State.bufWrite at hu
      split at hu
      · exact Option.some.inj hu ▸ s.devWrite_keeps view hMem w.1 w.2
      · split at hu
        · exact Option.some.inj hu ▸ hHost s w.1 w.2
        · cases hu
    unfold State.writeAll at h
    split at h
    · cases h
    next u hu => exact (ih h).trans (hWrite u hu)

/-! ### The faults of a step -/

/-- Without a sequence that fails, a batch step reports no fault (R329). -/
theorem stepRun_faults (m : Slot) (o x : Nat) (qs : List Seq) (b : List Byte) (js : List (Join × List Nat × List Nat)) :
    (stepRun m o x qs b [] js).faults = [] := by
  have hLeave (r : StepRun) (e : Nat × Nat) : (r.leave o x e).faults = r.faults := by
    unfold StepRun.leave
    split <;> rfl
  have hJoin (r : StepRun) (e : (Join × List Nat × List Nat) × Nat) : (r.join m o x e).faults = r.faults := by
    unfold StepRun.join
    dsimp only
    repeat' split
    all_goals rfl
  have hGo (r : StepRun) (q : Seq) : (r.go m [] q).faults = r.faults := rfl
  calc
    _ = _ := foldl_keeps StepRun.faults _ _ _ hGo
    _ = _ := foldl_keeps StepRun.faults _ _ _ hJoin
    _ = _ := foldl_keeps StepRun.faults _ _ _ hLeave

/-! ### The batch step (R329) -/

/-- What a batch step of command c computes. -/
def State.stepResult (s : State) (c : Cmd) (bad : List Nat) (ts : List (Join × List Nat × List Nat)) : StepRun :=
  stepRun (s.slot (dObject c.desc)) (dObject c.desc) c.ctx s.models.seqs c.block bad ts

/-- The buffers that a step writes: its encoders' outputs, then its records after their count (Table 11.7). -/
def StepRun.buffers (r : StepRun) (c : Cmd) : List (Nat × List Byte) :=
  r.outs ++ [(dfld c.desc 0x18 0 64, natBytes 4 r.recs.length ++ natBytes 60 0 ++ r.recs.flatten)]

/-- A step of slot o whose buffers are written ends: the sequences are its own, the working copy is stamped, and c completes. -/
def State.endStep (s : State) (o : Nat) (c : Cmd) (r : StepRun) : State :=
  (({ s with models := { s.models with seqs := r.seqs } } : State).stampCopy c.part o).complete c
    (if r.deferred = 0 then stOk else stOkDeferred) r.spec0 r.tokens true false

/-- A step with no hard error of slot o, which holds m, goes on: it writes its buffers, records the sequences that failed, and ends. -/
def State.goOn (s : State) (o : Nat) (m : Slot) (c : Cmd) (bad : List Nat) (ts : List (Join × List Nat × List Nat)) : State :=
  let r := stepRun m o c.ctx s.models.seqs c.block bad ts
  match s.writeAll (dDevAddr c.desc) (r.buffers c) with
  | none => s.refuse c stHostMemFault
  | some s1 =>
    ((r.faults.foldl (fun s q => s.event 0x0032 2 10 o q 0) ({ s1 with models := { s1.models with seqs := r.seqs } } : State)).stampCopy
      c.part o).complete c (if r.deferred = 0 then stOk else stOkDeferred) r.spec0 r.tokens true false

section
variable {s : State} {o : Nat} {m : Slot} {c : Cmd} {ts : List (Join × List Nat × List Nat)}

theorem State.goOn_of_unwritten {bad : List Nat} (hWrite : s.writeAll (dDevAddr c.desc)
    ((stepRun m o c.ctx s.models.seqs c.block bad ts).buffers c) = none) : s.goOn o m c bad ts = s.refuse c stHostMemFault := by
  unfold State.goOn
  dsimp only
  rw [hWrite]

theorem State.goOn_of_written {s1 : State} (hWrite : s.writeAll (dDevAddr c.desc)
    ((stepRun m o c.ctx s.models.seqs c.block [] ts).buffers c) = some s1) :
    s.goOn o m c [] ts = s1.endStep o c (stepRun m o c.ctx s.models.seqs c.block [] ts) := by
  unfold State.goOn
  dsimp only
  rw [hWrite, stepRun_faults]
  rfl

end

section
variable {s : State} {c : Cmd} {ts : List (Join × List Nat × List Nat)}

theorem batchStep_of_hard (bad : List Nat) :
    s.batchStep c { hard := true, seqs := bad } ts = (s.beginStep c).refuse (s.stepCmd c) stUncorrectable := by
  unfold State.batchStep
  exact if_pos rfl

theorem batchStep_of_soft (bad : List Nat) : s.batchStep c { seqs := bad } ts =
    (s.beginStep c).goOn (dObject c.desc) ((s.invoked c).slot (dObject c.desc)) (s.stepCmd c) bad ts := by
  unfold State.batchStep
  exact if_neg Bool.false_ne_true

end

section
variable {s : State} {c : Cmd} {ts : List (Join × List Nat × List Nat)} (hAsked : (s.cmd? c.seq).map Cmd.asked = some c.asked)
include hAsked

theorem State.stepCmd_views : (s.stepCmd c).part = c.part ∧ (s.stepCmd c).ctx = c.ctx ∧ (s.stepCmd c).desc = c.desc ∧
    (s.stepCmd c).block = c.block := by
  simpa [Cmd.asked] using State.stepCmd_asked hAsked

/-- The command of a begun step computes what was asked for. -/
theorem State.stepResult_eq (bad : List Nat) :
    stepRun ((s.invoked c).slot (dObject c.desc)) (dObject c.desc) (s.stepCmd c).ctx (s.beginStep c).models.seqs (s.stepCmd c).block bad
      ts = s.stepResult c bad ts := by
  obtain ⟨-, hCtx, -, hBlock⟩ := State.stepCmd_views hAsked
  rw [State.invoked_slot, hCtx, State.beginStep_models, hBlock]
  rfl

theorem batchStep_of_unwritten (hWrite : (s.beginStep c).writeAll (dDevAddr c.desc) ((s.stepResult c [] ts).buffers c) = none) :
    s.batchStep c {} ts = (s.beginStep c).refuse (s.stepCmd c) stHostMemFault := by
  obtain ⟨-, -, hDesc, -⟩ := State.stepCmd_views hAsked
  refine (batchStep_of_soft []).trans (State.goOn_of_unwritten ?_)
  rw [State.stepResult_eq hAsked, hDesc, StepRun.buffers, hDesc]
  exact hWrite

theorem batchStep_of_written {s1 : State}
    (hWrite : (s.beginStep c).writeAll (dDevAddr c.desc) ((s.stepResult c [] ts).buffers c) = some s1) :
    s.batchStep c {} ts = s1.endStep (dObject c.desc) (s.stepCmd c) (s.stepResult c [] ts) := by
  obtain ⟨-, -, hDesc, -⟩ := State.stepCmd_views hAsked
  rw [← State.stepResult_eq hAsked]
  refine (batchStep_of_soft []).trans (State.goOn_of_written ?_)
  rw [State.stepResult_eq hAsked, hDesc, StepRun.buffers, hDesc]
  exact hWrite

end

end Sys2Proof.Machine
end

section
/-!
SUPPORT. MODEL_STEP (R326 to R330): its refusals in their order, its wait for regulators and the step it makes.
-/

namespace Sys2Proof.Machine

/-- MODEL_STEP of command c may step: its model is READY and active in the partition, and no step of its slot and context is before it. -/
def State.MayStep (s : State) (c : Cmd) : Prop :=
  (s.slot (dObject c.desc)).state = .ready ∧ s.modelActive c.part (dObject c.desc) = true ∧
    s.earlier c (fun y => dOpcode y.desc == opModelStep && dObject y.desc == dObject c.desc && y.ctx == c.ctx) = false

/-- The joins of a step's buffer. -/
def Cmd.stepJoins (c : Cmd) : List Join := (List.range (Machine.stepJoins c.block)).map (joinAt c.block)

/-- Some token of a step's joins is at or above the vocabulary of m. -/
def Slot.wrongToken (m : Slot) (ts : List (Join × List Nat × List Nat)) : Bool :=
  ts.any (fun t => (t.2.1 ++ t.2.2).any (fun k => decide (hdrVocab m.hdr ≤ k)))

/-- The request of a step for the weights it streams (R352). -/
def State.stepAsk (s : State) (n : Nat) (c : Cmd) : Bool × State :=
  s.bwRequest c.part [(n, wholeInv)] (s.weightReads [dObject c.desc])

section
variable {s : State} {n : Nat} {c : Cmd} {e : Sys2Proof.ModelMeet} (hc : s.ready? n (· == opModelStep) = some c) (hMay : s.MayStep c)
include hc hMay

theorem modelStep_of_internal {code : Word32} (he : e.internal = some code) : modelStep n e s = s.internalStop c code := by
  obtain ⟨hReady, hActive, hFirst⟩ := hMay
  rw [State.slot] at hReady
  simp [modelStep, hc, hReady, hActive, hFirst, he]

variable (he : e.internal = none)
include he

theorem modelStep_of_badBuffer (hBad : s.stepOk (s.slot (dObject c.desc)) (dObject c.desc) c.ctx c.block = false) :
    modelStep n e s = s.refuse c stBadContent := by
  obtain ⟨hReady, hActive, hFirst⟩ := hMay
  rw [State.slot] at hReady hBad
  simp [modelStep, hc, hReady, hActive, hFirst, he, hBad]

variable {ts : List (Join × List Nat × List Nat)} (hOk : s.stepOk (s.slot (dObject c.desc)) (dObject c.desc) c.ctx c.block = true)
  (hRead : s.readJoins (dDevAddr c.desc) c.stepJoins = .ok ts)
include hOk hRead

/-- A good buffer whose tokens are read: one out of the vocabulary refuses, else the step waits for its regulators or goes on. -/
theorem modelStep_of_read : modelStep n e s =
    if (s.slot (dObject c.desc)).wrongToken ts = true then s.refuse c stBadContent
    else if (s.stepAsk n c).1 then (s.stepAsk n c).2.batchStep c e ts else (s.stepAsk n c).2 := by
  obtain ⟨hReady, hActive, hFirst⟩ := hMay
  have hSteps : ¬ ((s.slot (dObject c.desc)).state ≠ .ready ∨ (!s.modelActive c.part (dObject c.desc)) = true ∨
      s.earlier c (fun y => dOpcode y.desc == opModelStep && dObject y.desc == dObject c.desc && y.ctx == c.ctx) = true) := by
    simp [hReady, hActive, hFirst]
  have hGood : ¬ (!s.stepOk (s.slot (dObject c.desc)) (dObject c.desc) c.ctx c.block) = true := by simp [hOk]
  unfold modelStep
  rw [hc]
  refine (if_neg hSteps).trans ?_
  rw [he]
  refine (if_neg hGood).trans ?_
  rw [Cmd.stepJoins] at hRead
  rw [hRead]
  rfl

theorem modelStep_of_wrongToken (hWrong : (s.slot (dObject c.desc)).wrongToken ts = true) : modelStep n e s = s.refuse c stBadContent :=
  (modelStep_of_read hc hMay he hOk hRead).trans (if_pos hWrong)

section
variable (hRight : (s.slot (dObject c.desc)).wrongToken ts = false)
include hRight

theorem modelStep_of_closed (hClosed : (s.stepAsk n c).1 = false) : modelStep n e s = (s.stepAsk n c).2 := by
  rw [modelStep_of_read hc hMay he hOk hRead, if_neg (ne_true_of_eq_false hRight), if_neg (ne_true_of_eq_false hClosed)]

theorem modelStep_of_open (hOpen : (s.stepAsk n c).1 = true) : modelStep n e s = (s.stepAsk n c).2.batchStep c e ts := by
  rw [modelStep_of_read hc hMay he hOk hRead, if_neg (ne_true_of_eq_false hRight), if_pos hOpen]

end

end

/-! ### The step made -/

/-- Of the models a step's end changes the sequences, and stamps the working copies. -/
theorem State.endStep_models {s : State} {o : Nat} {c : Cmd} {r : StepRun} (h : (s.part c.part).state ≠ .draining) :
    ∃ cs, (s.endStep o c r).models = { s.models with seqs := r.seqs, copies := cs } :=
  ⟨_, State.complete_models _ c _ _ _ _ _ h⟩

/-- A begun step as the statement writes it. -/
theorem State.beginStep_eq (s : State) (c : Cmd) : s.beginStep c = ((s.start c.seq).repin c.part (dObject c.desc)).modCmd c.seq
    (fun x => { x with fallback := (s.slot (dObject c.desc)).marks.any id }) := by
  rw [State.beginStep, State.invoked_slot]
  rfl

section
variable {s : State} {n : Nat} {c : Cmd} (hc : s.ready? n (· == opModelStep) = some c)
include hc

theorem State.stepAsk_asked : ((s.stepAsk n c).2.cmd? c.seq).map Cmd.asked = some c.asked := by
  rw [State.stepAsk, State.bwRequest_asked, State.seq_of_ready? hc, (State.cmd?_of_ready? hc).1]
  rfl

omit hc in
@[simp] theorem State.stepAsk_models : (s.stepAsk n c).2.models = s.models := s.bwRequest_models _ _ _

omit hc in
theorem State.stepAsk_result (bad : List Nat) (ts : List (Join × List Nat × List Nat)) :
    (s.stepAsk n c).2.stepResult c bad ts = s.stepResult c bad ts := by
  rw [State.stepResult, State.slot_of_models State.stepAsk_models, State.stepAsk_models]
  rfl

/-- A step whose sequences end in a partition that is not DRAINING leaves the models but for the sequences and the stamps of copies. -/
theorem State.endStep_stepAsk_models {o : Nat} {dev : Bool} {ws : List (Nat × List Byte)} {s1 : State} {r : StepRun}
    (hPart : (s.part c.part).state ≠ .draining) (hWrite : ((s.stepAsk n c).2.beginStep c).writeAll dev ws = some s1) :
    (s1.endStep o ((s.stepAsk n c).2.stepCmd c) r).models.seqs = r.seqs ∧
      (s1.endStep o ((s.stepAsk n c).2.stepCmd c) r).models.slots = s.models.slots ∧
      (s1.endStep o ((s.stepAsk n c).2.stepCmd c) r).models.active = s.models.active := by
  obtain ⟨hCmdPart, -, -, -⟩ := State.stepCmd_views (State.stepAsk_asked hc)
  have hModels : s1.models = s.models :=
    (State.writeAll_keeps State.models (fun _ _ => rfl) State.hostWrite_models hWrite).trans (by simp)
  have hSch : s1.sch = (s.stepAsk n c).2.sch :=
    (State.writeAll_keeps State.sch (fun _ _ => rfl) State.hostWrite_sch hWrite).trans (by simp)
  have hState : (s1.part c.part).state = (s.part c.part).state :=
    (congrArg (fun y : Sch => (tget {} y.parts c.part : Partition).state) hSch).trans (s.bwRequest_part_state _ _ _ _)
  obtain ⟨cs, hEnd⟩ := State.endStep_models (s := s1) (o := o) (c := (s.stepAsk n c).2.stepCmd c) (r := r)
    (by rw [hCmdPart, hState]; exact hPart)
  rw [hEnd, hModels]
  exact ⟨rfl, rfl, rfl⟩

end

theorem exec_modelStep (n : Nat) (e : Sys2Proof.ModelMeet) (s : State) : exec (.modelStep n e) s = .next (modelStep n e s) := rfl

/-- Settles O43: the refusals of MODEL_STEP in their order, its wait, and the step that it makes whole or not at all. -/
theorem modelStepsEmitTheirRecords : Obligations.ModelStepsEmitTheirRecords := by
  unfold Obligations.ModelStepsEmitTheirRecords
  intro s n c hc o m dev js hReady hActive hFirst
  have hMay : s.MayStep c := ⟨hReady, hActive, hFirst⟩
  refine ⟨fun e code he => ?_, fun hBad e he => ?_, fun hOk ts hRead => ?_⟩
  · rw [exec_modelStep, modelStep_of_internal hc hMay he]
    rfl
  · rw [exec_modelStep, modelStep_of_badBuffer hc hMay he hBad]
  obtain rfl := State.seq_of_ready? hc
  intro wrong g s0 c0 r out
  have hAsk : s.stepAsk c.seq c = g := rfl
  have hBegin : g.2.beginStep c = s0 := by
    rw [State.beginStep_eq, State.slot_of_models (hAsk ▸ State.stepAsk_models)]
    rfl
  have hCmd : g.2.stepCmd c = c0 := by rw [State.stepCmd, hBegin]
  have hRun : g.2.stepResult c [] ts = r := hAsk ▸ State.stepAsk_result [] ts
  have hBuffers : r.buffers c = r.outs ++ [(dfld c.desc 0x18 0 64, out)] := rfl
  clear_value out r c0 s0 g
  subst hAsk hBegin hCmd hRun
  rw [← hBuffers]
  refine ⟨fun hWrong e he => ?_, fun hRight hClosed e he => ?_, fun hRight hOpen => ⟨fun bad => ?_, fun hWrite => ?_, ?_⟩⟩
  · rw [exec_modelStep, modelStep_of_wrongToken hc hMay he hOk hRead hWrong]
  · rw [exec_modelStep, modelStep_of_closed hc hMay he hOk hRead hRight hClosed]
  · rw [exec_modelStep, modelStep_of_open hc hMay rfl hOk hRead hRight hOpen, batchStep_of_hard]
  · rw [exec_modelStep, modelStep_of_open hc hMay rfl hOk hRead hRight hOpen,
      batchStep_of_unwritten (State.stepAsk_asked hc) hWrite]
  · intro hPart s1 hWrite
    obtain ⟨hSeqs, hSlots, hActives⟩ :=
      State.endStep_stepAsk_models (o := o) (r := (s.stepAsk c.seq c).2.stepResult c [] ts) hc hPart hWrite
    obtain ⟨hCmdPart, -, -, -⟩ := State.stepCmd_views (State.stepAsk_asked hc)
    rw [exec_modelStep, modelStep_of_open hc hMay rfl hOk hRead hRight hOpen,
      batchStep_of_written (State.stepAsk_asked hc) hWrite]
    refine ⟨s1.endStep o ((s.stepAsk c.seq c).2.stepCmd c) ((s.stepAsk c.seq c).2.stepResult c [] ts), rfl, hSeqs, hSlots, hActives, ?_⟩
    rw [State.endStep, hCmdPart]

end Sys2Proof.Machine
end

section
/-!
SUPPORT. The scrub patrol, what the repair ladder leaves alone, and the rebuild of missing blocks (R394 to R399, R401).
-/

namespace Sys2Proof.Machine

/-! ### The scrub patrol (R399) -/

section
variable {s : State} {a : Nat}

theorem scrubPatrol_of_off (e : Sys2Proof.MemErr)
    (hOff : flag (lget 0 s.mem.scrub (if s.unitOfLine (a / 64 * 64) < 12 then 0 else 1)) 31 = false) : scrubPatrol a e s = s := by
  simp only [scrubPatrol]
  rw [if_pos (.inl (by rw [hOff]; rfl))]

/-- A line that the patrol reads goes by what the read meets. -/
theorem scrubPatrol_of_on (e : Sys2Proof.MemErr)
    (hOn : flag (lget 0 s.mem.scrub (if s.unitOfLine (a / 64 * 64) < 12 then 0 else 1)) 31 = true)
    (hUsable : s.usable (a / 64 * 64) = true) (hTest : s.margining (s.unitOfLine (a / 64 * 64)) = false) :
    scrubPatrol a e s = match e with
      | .none => if s.mem.bad.contains (a / 64 * 64) then s.meetBad (a / 64 * 64) else s
      | .corrected => s.meetCorrected (a / 64 * 64)
      | .uncorrectable => s.meetBad (a / 64 * 64) := by
  simp only [scrubPatrol, hOn, hUsable, hTest]
  rfl

end

/-! ### What the repair ladder keeps (R394 to R396) -/

/-- What every rung of the repair ladder keeps from s to t: the lines known to be bad, and every event number taken. -/
def State.Repairs (s t : State) : Prop := t.mem.bad = s.mem.bad ∧ s.mgt.nextEvt ≤ t.mgt.nextEvt

/-- An event takes one number. -/
@[simp] theorem State.event_nextEvt (s : State) (code sev kind unit d0 d1 : Nat) :
    (s.event code sev kind unit d0 d1).mgt.nextEvt = s.mgt.nextEvt + 1 := by
  unfold State.event
  dsimp only
  split
  · rw [State.msixSend_mgt]
    rfl
  · rfl

theorem State.Repairs.refl (s : State) : s.Repairs s := ⟨rfl, Nat.le_refl _⟩

theorem State.Repairs.trans {s t u : State} (h : s.Repairs t) (h' : t.Repairs u) : s.Repairs u :=
  ⟨h'.1.trans h.1, Nat.le_trans h.2 h'.2⟩

/-- A step that keeps the bad lines and the management block is one of the ladder's. -/
theorem State.Repairs.of_eq {s t u : State} (h : s.Repairs t) (hBad : u.mem.bad = t.mem.bad) (hMgt : u.mgt = t.mgt) : s.Repairs u :=
  h.trans ⟨hBad, Nat.le_of_eq (congrArg Mgt.nextEvt hMgt.symm)⟩

section
variable {s t : State} (h : s.Repairs t)
include h

theorem State.Repairs.event (code sev kind unit d0 d1 : Nat) : s.Repairs (t.event code sev kind unit d0 d1) :=
  h.trans ⟨by rw [State.event_mem], by rw [State.event_nextEvt]; exact Nat.le_succ _⟩

theorem State.Repairs.errLog (u type ch addr : Nat) : s.Repairs (t.errLog u type ch addr) := h.of_eq rfl rfl

theorem State.Repairs.modUnit (u : Nat) (f : MemUnit → MemUnit) : s.Repairs (t.modUnit u f) := h.of_eq rfl rfl

theorem State.Repairs.life (i n : Nat) : s.Repairs (t.life i n) := h.trans ⟨rfl, Nat.le_refl _⟩

theorem State.Repairs.missBlock (room : Bool) (b : Nat) : s.Repairs (t.missBlock room b) := by
  unfold State.missBlock
  dsimp only
  split
  · exact h
  have hMissing : s.Repairs { t with mem := { t.mem with missing := t.mem.missing ++ [{ block := b, source := t.rebuildable b, room := room }] } } :=
    h.of_eq rfl rfl
  split
  · exact hMissing.event ..
  · split
    · exact hMissing.event ..
    · exact hMissing

theorem State.Repairs.missBlocks (room : Bool) (bs : List Nat) : s.Repairs (bs.foldl (State.missBlock · room) t) := by
  induction bs generalizing t with
  | nil => exact h
  | cons b bs ih => exact ih (h.missBlock room b)

theorem State.Repairs.stackOut (u cause : Nat) : s.Repairs (t.stackOut u cause) := ((h.modUnit ..).errLog ..).event ..

theorem State.Repairs.mapOut (u ch : Nat) : s.Repairs (t.mapOut u ch) := by
  unfold State.mapOut
  extract_lets m top0 narrowed top lo low missed mem cut counted logged raised left
  have hNarrowed : s.Repairs narrowed := iteInduction (fun _ => h.modUnit ..) (fun _ => h.modUnit ..)
  clear_value narrowed
  have hMissed : s.Repairs missed := (hNarrowed.missBlocks false _).missBlocks true _
  clear_value missed
  have hCut : s.Repairs cut := hMissed.of_eq rfl rfl
  clear_value cut
  have hRaised : s.Repairs raised := (((hCut.life 14 1).errLog u 7 ch 0).event ..).event ..
  clear_value raised
  exact iteInduction (fun _ => hRaised.stackOut u 2) (fun _ => hRaised)

theorem State.Repairs.channelFail (u ch : Nat) : s.Repairs (t.channelFail u ch) := by
  unfold State.channelFail
  dsimp only
  split
  · exact (((h.modUnit ..).life ..).errLog ..).event ..
  · exact h.mapOut ..

theorem State.Repairs.rowRepair (line : Nat) : s.Repairs (t.rowRepair line) := by
  unfold State.rowRepair
  extract_lets u ch row m moved bank level1 level2 logged2 page retired mem paged
  have hMoved {x : State} (hx : s.Repairs x) : s.Repairs (moved x) := hx.of_eq rfl rfl
  refine iteInduction (fun _ => ?level1) (fun _ => iteInduction (fun _ => ?level2) (fun _ => ?page))
  case level1 => exact ((hMoved (h.modUnit u _)).life 12 1).errLog u 3 ch line
  case level2 =>
    have hLogged : s.Repairs logged2 := ((hMoved (h.modUnit u _)).life 12 1).errLog u 4 ch line
    exact iteInduction (fun _ => hLogged.channelFail u ch) (fun _ => hLogged)
  case page =>
    have hPaged : s.Repairs paged := State.Repairs.of_eq (t := retired) (h.modUnit u _) rfl rfl
    exact (((hPaged.life 13 1).errLog u 5 ch page).event ..).missBlock ..

end

/-! ### A read of a line that is uncorrectable (R394, R398) -/

section
variable (s : State) (line : Nat)

/-- The line is known to be bad, and the event is logged. -/
def State.badLogged : State :=
  { s with mem := { s.mem with bad := if s.mem.bad.contains line then s.mem.bad else s.mem.bad ++ [line] } }.errLog
    (s.unitOfLine line) 1 (s.chanOfLine line) line

/-- The record of a line's first such read, and the repair of its row. -/
def State.badRepaired : State :=
  ((s.badLogged line).event 0x0020 2 (unitKind (s.unitOfLine line)) (unitNum (s.unitOfLine line)) (s.chanOfLine line) line).rowRepair line

@[simp] theorem State.badLogged_told : (s.badLogged line).mem.told = s.mem.told := rfl
@[simp] theorem State.badLogged_dev : (s.badLogged line).mem.dev = s.mem.dev := rfl
@[simp] theorem State.badLogged_mgt : (s.badLogged line).mgt = s.mgt := rfl
@[simp] theorem State.badLogged_hif : (s.badLogged line).hif = s.hif := rfl

theorem State.mem_badLogged_bad (l : Nat) : l ∈ (s.badLogged line).mem.bad ↔ l ∈ s.mem.bad ∨ l = line := by
  show l ∈ (if s.mem.bad.contains line then s.mem.bad else s.mem.bad ++ [line]) ↔ _
  split
  next hKnown =>
    have hMem : line ∈ s.mem.bad := List.contains_iff_mem.mp hKnown
    exact ⟨.inl, fun h => h.elim id (fun e => e ▸ hMem)⟩
  · simp

theorem State.badRepaired_repairs :
    (s.badLogged line).Repairs (s.badRepaired line) ∧ s.mgt.nextEvt < (s.badRepaired line).mgt.nextEvt := by
  have hRow := (State.Repairs.refl ((s.badLogged line).event 0x0020 2 (unitKind (s.unitOfLine line)) (unitNum (s.unitOfLine line))
    (s.chanOfLine line) line)).rowRepair line
  refine ⟨((State.Repairs.refl _).event ..).trans hRow, Nat.lt_of_lt_of_le ?_ hRow.2⟩
  rw [State.event_nextEvt, State.badLogged_mgt]
  exact Nat.lt_succ_self _

variable {s line}

/-- A line already recorded is only logged. -/
theorem State.meetBad_of_told (hTold : line ∈ s.mem.told) : s.meetBad line = s.badLogged line :=
  if_pos (List.contains_iff_mem.mpr hTold)

theorem State.meetBad_of_untold (hTold : line ∉ s.mem.told) : s.meetBad line =
    { s.badRepaired line with mem := { (s.badRepaired line).mem with told := (s.badRepaired line).mem.told ++ [line] } } :=
  if_neg (fun h => hTold (List.contains_iff_mem.mp h))

theorem State.meetBad_bad : (s.meetBad line).mem.bad = (s.badLogged line).mem.bad := by
  by_cases hTold : line ∈ s.mem.told
  · rw [State.meetBad_of_told hTold]
  · rw [State.meetBad_of_untold hTold]
    exact (s.badRepaired_repairs line).1.1

theorem State.told_meetBad : line ∈ (s.meetBad line).mem.told := by
  by_cases hTold : line ∈ s.mem.told
  · rwa [State.meetBad_of_told hTold]
  · rw [State.meetBad_of_untold hTold]
    exact List.mem_append_right _ (List.mem_singleton_self line)

/-- The record of a line's first such read takes an event number. -/
theorem State.nextEvt_lt_meetBad (hTold : line ∉ s.mem.told) : s.mgt.nextEvt < (s.meetBad line).mgt.nextEvt := by
  rw [State.meetBad_of_untold hTold]
  exact (s.badRepaired_repairs line).2

end

/-! ### Missing blocks (R396) -/

section
variable {s : State} {m : Missing}

theorem blockRebuild_of_none (h : s.mem.missing.filter s.canRebuild = []) : blockRebuild s = s := by
  rw [blockRebuild, h]
  rfl

theorem blockRebuild_of_one (h : s.mem.missing.filter s.canRebuild = [m]) (hRoom : m.room = false) :
    blockRebuild s = { s with mem := { s.mem with
      missing := s.mem.missing.map (fun x => if x.block = m.block then { x with running := true } else x) } } := by
  rw [blockRebuild, h]
  exact if_neg (ne_true_of_eq_false hRoom)

theorem blockRebuildDone_of_running (h : s.mem.missing.find? (fun m => m.running) = some m) :
    blockRebuildDone s = s.blockBack m.block := by
  rw [blockRebuildDone, h]

end

theorem State.mem_blockBack_missing (s : State) (b : Nat) (x : Missing) :
    x ∈ (s.blockBack b).mem.missing ↔ x ∈ s.mem.missing ∧ x.block ≠ b := by
  simp [State.blockBack]

theorem State.mem_blockBack_bad (s : State) (b l : Nat) :
    l ∈ (s.blockBack b).mem.bad ↔ l ∈ s.mem.bad ∧ l / blockBytes ≠ b := by
  simp [State.blockBack]

/-! ### The statement -/

theorem exec_scrubPatrol (line : Word64) (e : Sys2Proof.MemErr) (s : State) :
    exec (.scrubPatrol line e) s = .next (scrubPatrol line.toNat e s) := rfl
theorem exec_lineInitialisation (s : State) : exec .lineInitialisation s = .next (lineInitialisation s) := rfl
theorem exec_blockRebuild (s : State) : exec .blockRebuild s = .next (blockRebuild s) := rfl
theorem exec_blockRebuildDone (s : State) : exec .blockRebuildDone s = .next (blockRebuildDone s) := rfl

/-- Settles O26: the patrol case by case, what a read of an uncorrectable line leaves, and the two ends of a rebuild. -/
theorem scrubAndRebuild : Obligations.ScrubAndRebuild := by
  unfold Obligations.ScrubAndRebuild
  refine ⟨⟨fun s line => ⟨fun hOn hUsable hTest => ?patrol, fun hOff e => ?off⟩, exec_lineInitialisation⟩, fun s line => ?bad,
    fun s h => ?none, fun s m h hRoom => ?one, fun s m h => ?done⟩
  case patrol =>
    have hRead (e : Sys2Proof.MemErr) := (exec_scrubPatrol line e s).trans (congrArg _ (scrubPatrol_of_on e hOn hUsable hTest))
    exact ⟨fun h => (hRead .none).trans (congrArg _ (if_neg (fun hc => h (List.contains_iff_mem.mp hc)))),
      fun h => (hRead .none).trans (congrArg _ (if_pos (List.contains_iff_mem.mpr h))), hRead .corrected, hRead .uncorrectable⟩
  case off => rw [exec_scrubPatrol, scrubPatrol_of_off e hOff]
  case bad =>
    have hBad (l : Nat) : l ∈ (s.meetBad line).mem.bad ↔ l ∈ s.mem.bad ∨ l = line := by
      rw [State.meetBad_bad, State.mem_badLogged_bad]
    refine ⟨(hBad line).mpr (.inr rfl), State.told_meetBad, fun l h => (hBad l).mpr (.inl h), fun hTold => ?_, State.nextEvt_lt_meetBad⟩
    rw [State.meetBad_of_told hTold]
    exact ⟨rfl, rfl, rfl⟩
  case none => rw [exec_blockRebuild, blockRebuild_of_none h]
  case one => rw [exec_blockRebuild, blockRebuild_of_one h hRoom]
  case done =>
    rw [exec_blockRebuildDone, blockRebuildDone_of_running h]
    exact ⟨_, rfl, fun x hx => ((s.mem_blockBack_missing _ x).mp hx).2, fun x hx hb => (s.mem_blockBack_missing _ x).mpr ⟨hx, hb⟩,
      s.mem_blockBack_bad _, rfl, rfl⟩

end Sys2Proof.Machine
end

section
/-!
SUPPORT. Memory units: what a replay, a retrain and an evacuation leave of the one they are about (R393 to R395).
-/

namespace Sys2Proof.Machine

/-! ### Units -/

section
variable (s : State) (u : Nat) (f : MemUnit → MemUnit)

@[simp] theorem State.memUnit_modUnit_same : (s.modUnit u f).memUnit u = f (s.memUnit u) := tget_tset_same _ _ _ _

@[simp] theorem State.memUnit_errLog (v type ch addr : Nat) : (s.errLog v type ch addr).memUnit u = s.memUnit u := rfl

@[simp] theorem State.memUnit_event (code sev kind unit d0 d1 : Nat) :
    (s.event code sev kind unit d0 d1).memUnit u = s.memUnit u := by
  rw [State.memUnit, State.event_mem, State.memUnit]

/-- A stack out of service stays marked so. -/
theorem State.stackOut_oos (cause : Nat) : ((s.stackOut u cause).memUnit u).oos = true := by
  rw [State.stackOut, State.memUnit_event, State.memUnit_errLog, State.memUnit_modUnit_same]

end

/-! ### Replays (R393) -/

section
variable {s : State} {u : Nat} (hIn : (s.memUnit u).oos = false) (hLink : (s.memUnit u).retrain = false)
include hIn hLink

/-- A replay on a unit in service counts against it or clears its count; the eighth failure in a row retrains it. -/
theorem linkReplay_of_inService (ok : Bool) : linkReplay u ok [] s =
    if ok then s.modUnit u (fun m => { m with replays := 0 })
    else if (s.memUnit u).replays + 1 < 8 then s.modUnit u (fun m => { m with replays := m.replays + 1 })
    else (s.modUnit u (fun m => { m with replays := 0, retrain := true })).errLog u 2 0 0 :=
  if_neg (by simp [State.linkDelay, hIn, hLink])

theorem linkReplay_of_success : linkReplay u true [] s = s.modUnit u (fun m => { m with replays := 0 }) :=
  linkReplay_of_inService hIn hLink true

theorem linkReplay_of_failure (h : (s.memUnit u).replays < 7) :
    linkReplay u false [] s = s.modUnit u (fun m => { m with replays := m.replays + 1 }) :=
  (linkReplay_of_inService hIn hLink false).trans (if_pos (Nat.succ_lt_succ h))

theorem linkReplay_of_lastFailure (h : 7 ≤ (s.memUnit u).replays) :
    linkReplay u false [] s = (s.modUnit u (fun m => { m with replays := 0, retrain := true })).errLog u 2 0 0 :=
  (linkReplay_of_inService hIn hLink false).trans (if_neg (Nat.not_lt.mpr (Nat.succ_le_succ h)))

end

/-! ### Retraining and evacuation (R393 to R395) -/

section
variable {s : State} {u : Nat}

theorem retrainDone_of_retraining (ok : Bool) (h : (s.memUnit u).retrain = true) : retrainDone u ok s =
    if ok then s.modUnit u (fun m => { m with retrain := false })
    else if u < 12 then (s.modUnit u (fun m => { m with retrain := false })).stackOut u 1
    else (s.modUnit u (fun m => { m with retrain := false })).channelFail u 0 :=
  if_neg (by simp [h])

theorem evacuationDone_of_evacuating (lost : List Nat) (h : (s.memUnit u).evac ≠ none) : evacuationDone u lost s =
    lost.foldl (State.missBlock · false) (s.modUnit u (fun m => { m with evac := none })) :=
  if_neg h

end

/-! ### The statement -/

theorem exec_linkReplay (u : Fin 20) (ok : Bool) (delay : List (Nat × Nat)) (s : State) :
    exec (.linkReplay u ok delay) s = .next (linkReplay u.val ok delay s) := rfl
theorem exec_retrainDone (u : Fin 20) (ok : Bool) (s : State) : exec (.retrainDone u ok) s = .next (retrainDone u.val ok s) := rfl
theorem exec_evacuationDone (st : Fin 12) (lost : List Nat) (s : State) :
    exec (.evacuationDone st lost) s = .next (evacuationDone st.val lost s) := rfl

/-- Settles O25: a replay's three outcomes, a retrain's three, and the end of an evacuation. -/
theorem linksReplayAndRetrain : Obligations.LinksReplayAndRetrain := by
  unfold Obligations.LinksReplayAndRetrain
  refine ⟨fun s u hIn hLink => ⟨?success, fun h => ?failure, fun h => ?eighth⟩,
    fun s u h => ⟨?trained, fun hStack => ⟨?stack, ?out⟩, fun hFar => ?channel⟩, fun s st lost h => ⟨?kept, ?lost⟩⟩
  case success => rw [exec_linkReplay, linkReplay_of_success hIn hLink]
  case failure => rw [exec_linkReplay, linkReplay_of_failure hIn hLink h]
  case eighth =>
    rw [exec_linkReplay, linkReplay_of_lastFailure hIn hLink h]
    refine ⟨_, rfl, rfl, ?_, rfl, rfl⟩
    rw [State.memUnit_errLog, State.memUnit_modUnit_same]
  case trained => rw [exec_retrainDone, retrainDone_of_retraining true h, if_pos rfl]
  case stack => rw [exec_retrainDone, retrainDone_of_retraining false h, if_neg Bool.false_ne_true, if_pos hStack]
  case out => exact State.stackOut_oos _ u.val 1
  case channel =>
    rw [exec_retrainDone, retrainDone_of_retraining false h, if_neg Bool.false_ne_true, if_neg (Nat.not_lt.mpr hFar)]
  case kept => rw [exec_evacuationDone, evacuationDone_of_evacuating [] h, List.foldl_nil]
  case lost => rw [exec_evacuationDone, evacuationDone_of_evacuating lost h]

end Sys2Proof.Machine
end

section
/-!
SUPPORT. Fields of a register bit by bit, the order of channels, and the control registers of the memory tiers (R373 to R375, R397,
R400).
-/

namespace Sys2Proof.Machine

/-! ### Fields bit by bit (R3) -/

/-- A field is known by its flags. -/
theorem fld_congr {w : Nat} {r q : BitVec w} {lo n : Nat} (h : ∀ i, lo ≤ i → i < lo + n → flag r i = flag q i) :
    fld r lo n = fld q lo n := by
  refine Nat.eq_of_testBit_eq fun i => ?_
  simp only [fld, bitsOf, Nat.testBit_mod_two_pow, Nat.testBit_shiftRight]
  by_cases hi : i < n
  · exact congrArg _ (h (lo + i) (Nat.le_add_right lo i) (Nat.add_lt_add_left hi lo))
  · simp [hi]

/-- A field that is set has the flags of its value; every other flag stays. -/
theorem flag_setFld {w : Nat} (r : BitVec w) (lo n v : Nat) {i : Nat} (hi : i < w) :
    flag (setFld r lo n v) i = if lo ≤ i ∧ i < lo + n then v.testBit (i - lo) else flag r i := by
  have hMask : (BitVec.ofNat w ((2 ^ n - 1) <<< lo)).getLsbD i = decide (lo ≤ i ∧ i < lo + n) := by
    rw [BitVec.getLsbD_ofNat, Nat.testBit_shiftLeft, Nat.testBit_two_pow_sub_one]
    grind
  have hValue : (BitVec.ofNat w ((v % 2 ^ n) <<< lo)).getLsbD i = (decide (lo ≤ i ∧ i < lo + n) && v.testBit (i - lo)) := by
    rw [BitVec.getLsbD_ofNat, Nat.testBit_shiftLeft, Nat.testBit_mod_two_pow]
    grind
  simp only [flag, setFld, BitVec.getLsbD_or, BitVec.getLsbD_and, BitVec.getLsbD_not, hMask, hValue, hi]
  by_cases h : lo ≤ i ∧ i < lo + n <;> simp [h]

/-- A field of n + 1 bits is that of n bits and its top flag. -/
theorem fld_succ {w : Nat} (r : BitVec w) (lo n : Nat) : fld r lo (n + 1) = fld r lo n + 2 ^ n * bit (flag r (lo + n)) := by
  have hTop : bit (flag r (lo + n)) = (r.toNat.testBit (lo + n)).toNat := by
    rw [flag, BitVec.getLsbD]
    cases r.toNat.testBit (lo + n) <;> rfl
  rw [hTop, fld, fld, bitsOf, bitsOf, Nat.mod_pow_succ, ← Nat.toNat_testBit, Nat.testBit_shiftRight]

section
variable {w : Nat} (r : BitVec w) (lo n v : Nat)

theorem fld_setFld_same (h : lo + n ≤ w) : fld (setFld r lo n v) lo n = v % 2 ^ n := by
  refine Nat.eq_of_testBit_eq fun i => ?_
  simp only [fld, bitsOf, Nat.testBit_mod_two_pow, Nat.testBit_shiftRight]
  by_cases hi : i < n
  · have hFlag := flag_setFld r lo n v (i := lo + i) (by omega)
    rw [if_pos (by omega), Nat.add_sub_cancel_left] at hFlag
    exact congrArg _ hFlag
  · simp [hi]

theorem fld_setFld_of_disjoint {lo' n' : Nat} (hFits : lo' + n' ≤ w) (h : lo' + n' ≤ lo ∨ lo + n ≤ lo') :
    fld (setFld r lo n v) lo' n' = fld r lo' n' :=
  fld_congr fun i hlo hhi => by rw [flag_setFld r lo n v (by omega), if_neg (by omega)]

end

/-! ### Elements of a list -/

theorem lget_lmod_ne {α : Type} (d : α) (l : List α) {i j : Nat} (f : α → α) (h : j ≠ i) : lget d (lmod l i f) j = lget d l j := by
  simp [lget, List.getD_eq_getElem?_getD, getElem?_lmod_ne l f h]

theorem insertBy_perm {α : Type} (lt : α → α → Bool) (x : α) (l : List α) : (insertBy lt x l).Perm (x :: l) := by
  induction l with
  | nil => exact .refl _
  | cons y l ih =>
    rw [insertBy]
    split
    · exact .refl _
    · exact (ih.cons y).trans (.swap x y l)

theorem sortBy_perm {α : Type} (lt : α → α → Bool) (l : List α) : (sortBy lt l).Perm l := by
  have hFold (acc : List α) : (l.foldl (fun acc x => insertBy lt x acc) acc).Perm (l ++ acc) := by
    induction l generalizing acc with
    | nil => exact .refl _
    | cons x l ih => exact (ih _).trans (((insertBy_perm lt x acc).append_left l).trans List.perm_middle)
  simpa [sortBy] using hFold []

/-! ### The channel of a line (R374) -/

theorem channelOrder_perm (r n : Nat) : (channelOrder r n).Perm (List.range n) := sortBy_perm _ _

theorem lget_channelOrder_lt (r : Nat) {n i : Nat} (h : i < n) : lget 0 (channelOrder r n) i < n := by
  have hLen : i < (channelOrder r n).length := by rwa [(channelOrder_perm r n).length_eq, List.length_range]
  rw [lget, List.getD_eq_getElem?_getD, List.getElem?_eq_getElem hLen, Option.getD_some]
  exact List.mem_range.mp ((channelOrder_perm r n).subset (List.getElem_mem hLen))

theorem lineChannel_of_stack {line : Nat} (h : line < farBase) :
    lineChannel line = lget 0 (channelOrder (line / 65536) 16) (line / 4096 % 16) := by
  simp only [lineChannel, if_pos h]

/-- With its first sixteen channels active, a stack holds each line in the line's own channel. -/
theorem State.chanOfLine_of_allActive {s : State} {line : Nat} (h : line < farBase) (hActive : (s.memUnit (line / stackBytes)).active = 0xFFFF) :
    s.chanOfLine line = lineChannel line := by
  have hChan : lineChannel line < 16 := by
    rw [lineChannel_of_stack h]
    exact lget_channelOrder_lt _ (Nat.mod_lt _ (by decide))
  have hBit : ∀ k < 16, bitsOf 0xFFFF k 1 = 1 := by decide
  simp only [State.chanOfLine, if_neg (Nat.not_le.mpr h), hActive, if_pos (hBit _ hChan)]

/-! ### Channels to be tried again (R397) -/

section
variable {s : State} {v : Word32} (hReset : s.hif.inReset = none)
include hReset

theorem repairCtl_of_badKey (far : Bool) (hKey : fld v 16 16 ≠ 0x7C2E) : repairCtl far v s = s.hifErr 2 := by
  simp [repairCtl, hReset, hKey]

theorem repairCtl_of_stack (hKey : fld v 16 16 = 0x7C2E) (hRetest : flag v 15 = true) (hStack : fld v 0 4 < 12) :
    repairCtl false v s = s.modUnit (fld v 0 4) (fun m => { m with retest := m.retest ||| 2 ^ fld v 8 5 }) := by
  have hUnit : ¬ (20 ≤ fld v 0 4 ∨ 12 ≤ fld v 0 4) := by omega
  simp only [repairCtl, hReset, hKey, hRetest]
  exact (if_neg Bool.false_ne_true).trans ((if_neg (fun h => h rfl)).trans (if_neg (by simpa using hUnit)))

theorem repairCtl_of_far (hKey : fld v 16 16 = 0x7C2E) (hRetest : flag v 15 = true) (hFar : fld v 8 5 < 8) :
    repairCtl true v s = s.modUnit (12 + fld v 8 5) (fun m => { m with retest := m.retest ||| 1 }) := by
  have hUnit : ¬ 20 ≤ 12 + fld v 8 5 := by omega
  simp only [repairCtl, hReset, hKey, hRetest]
  exact (if_neg Bool.false_ne_true).trans ((if_neg (fun h => h rfl)).trans (if_neg (by simpa using hUnit)))

end

/-! ### The word of a margin control register (R400) -/

/-- The word that a write keeps: the RW fields of v, RESULT and BUSY of the old word. -/
def marginKept (old v : Word32) : Word32 := (v &&& 0x0FFFC000) ||| (old &&& 0x70000000)

theorem flag_marginMasks : ∀ i < 32, flag (0x0FFFC000 : Word32) i = decide (14 ≤ i ∧ i < 28) ∧
    flag (0x70000000 : Word32) i = decide (28 ≤ i ∧ i < 31) ∧ flag (0x40000000 : Word32) i = decide (i = 30) := by decide

section
variable (old v : Word32)

theorem flag_marginKept {i : Nat} (hi : i < 32) :
    flag (marginKept old v) i = (flag v i && decide (14 ≤ i ∧ i < 28) || flag old i && decide (28 ≤ i ∧ i < 31)) := by
  obtain ⟨hRw, hRo, -⟩ := flag_marginMasks i hi
  rw [← hRw, ← hRo]
  simp only [flag, marginKept, BitVec.getLsbD_or, BitVec.getLsbD_and]

/-- The bits of RESULT and BUSY that a write keeps. -/
theorem fld_marginKept_status : fld (marginKept old v) 28 3 = fld old 28 3 := by
  refine fld_congr fun i hlo hhi => ?_
  rw [flag_marginKept old v (by omega)]
  grind

theorem fld_marginKept_fields : fld (marginKept old v) 14 14 = fld v 14 14 := by
  refine fld_congr fun i hlo hhi => ?_
  rw [flag_marginKept old v (by omega)]
  grind

end

/-- Setting RESULT leaves BUSY above it. -/
theorem fld_status_setFld_result (x : Word32) (r : Nat) : fld (setFld x 28 2 r) 28 3 = r % 4 + 4 * bit (flag x 30) := by
  rw [fld_succ, fld_setFld_same _ _ _ _ (by decide), flag_setFld _ _ _ _ (by decide)]
  rfl

theorem fld_status_refused {old v : Word32} (hIdle : flag old 30 = false) : fld (setFld (marginKept old v) 28 2 3) 28 3 = 3 := by
  rw [fld_status_setFld_result, flag_marginKept old v (by decide), hIdle]
  simp [bit]

theorem fld_status_started (old v : Word32) : fld (setFld (marginKept old v ||| 0x40000000) 28 2 0) 28 3 = 4 := by
  have hBusy : flag (marginKept old v ||| 0x40000000) 30 = true := by
    rw [flag, BitVec.getLsbD_or, Bool.or_eq_true]
    exact .inr (by decide)
  rw [fld_status_setFld_result, hBusy]
  rfl

theorem fld_fields_started (old v : Word32) : fld (setFld (marginKept old v ||| 0x40000000) 28 2 0) 14 14 = fld v 14 14 := by
  rw [fld_setFld_of_disjoint _ _ _ _ (by decide) (by decide), ← fld_marginKept_fields old v]
  refine fld_congr fun i hlo hhi => ?_
  have hBusy : flag (0x40000000 : Word32) i = false := by
    rw [(flag_marginMasks i (by omega)).2.2]
    exact decide_eq_false (by omega)
  rw [flag] at hBusy
  rw [flag, BitVec.getLsbD_or, hBusy, Bool.or_false, flag]

theorem fld_status_done (c : Word32) (r : Nat) : fld (setFld (setFld c 30 1 0) 28 2 r) 28 3 = r % 4 := by
  rw [fld_status_setFld_result, flag_setFld _ _ _ _ (by decide)]
  rfl

/-! ### Margin tests (R400) -/

/-- The margin control word of a tier is w, and `on` are the units under test. -/
def State.putMargin (s : State) (i : Nat) (w : Word32) (on : List (Option Nat)) : State :=
  { s with mem := { s.mem with margin := lmod s.mem.margin i (fun _ => w), marginOn := on } }

section
variable (s : State) (w : Word32) (on : List (Option Nat))

theorem State.putMargin_same {i : Nat} (h : i < s.mem.margin.length) : lget 0 (s.putMargin i w on).mem.margin i = w :=
  lget_lmod_same 0 _ h

theorem State.putMargin_ne {i j : Nat} (h : j ≠ i) : lget 0 (s.putMargin i w on).mem.margin j = lget 0 s.mem.margin j :=
  lget_lmod_ne 0 _ _ h

end

section
variable {s : State} {far : Bool} {v : Word32} {i : Nat} (hTier : i = if far then 1 else 0) (hReset : s.hif.inReset = none)
include hTier hReset

theorem marginTest_of_idle (h : ¬ (flag v 31 = true ∧ flag (lget 0 s.mem.margin i) 30 = false)) :
    marginTest far v s = s.putMargin i (marginKept (lget 0 s.mem.margin i) v) s.mem.marginOn := by
  subst hTier
  simp only [marginTest, hReset]
  exact (if_neg Bool.false_ne_true).trans (if_pos (by grind))

section
variable (hGo : flag v 31 = true) (hIdle : flag (lget 0 s.mem.margin i) 30 = false)
include hGo hIdle

theorem marginTest_of_refused (h : s.marginRefused far v = true) :
    marginTest far v s = s.putMargin i (setFld (marginKept (lget 0 s.mem.margin i) v) 28 2 3) s.mem.marginOn := by
  subst hTier
  simp only [marginTest, hReset, hGo, hIdle, h]
  rfl

theorem marginTest_of_accepted (h : s.marginRefused far v = false) :
    marginTest far v s = s.putMargin i (setFld (marginKept (lget 0 s.mem.margin i) v ||| 0x40000000) 28 2 0)
      (lmod s.mem.marginOn i (fun _ => some (fld v 24 4))) := by
  subst hTier
  simp only [marginTest, hReset, hGo, hIdle, h]
  rfl

end

end

theorem marginTestDone_of_busy {s : State} {far : Bool} {i : Nat} (hTier : i = if far then 1 else 0) (lines errors : Nat)
    (h : flag (lget 0 s.mem.margin i) 30 = true) : marginTestDone far lines errors s = { s with mem := { s.mem with
      margin := lmod s.mem.margin i (fun _ => setFld (setFld (lget 0 s.mem.margin i) 30 1 0) 28 2 (if errors = 0 then 1 else 2)),
      marginOn := lmod s.mem.marginOn i (fun _ => none), marginRes := lmod s.mem.marginRes i (fun _ => (lines, errors)) } } := by
  subst hTier
  simp only [marginTestDone, h]
  rfl

/-! ### The host region (R375) -/

section
variable {s : State} {v : Word32} (hReset : s.hif.inReset = none)
include hReset

theorem farHostWrite_of_granted (hOff : flag s.hif.control 0 = false) (h : fld v 0 16 ≤ s.farHostMax) : farHostWrite v s =
    { s with mem := { s.mem with farHost := fld v 0 16, farRefused := s.mem.farRefused && !flag v 31 } } := by
  simp only [farHostWrite, hReset, hOff, if_neg (Nat.not_lt.mpr h)]
  rfl

theorem farHostWrite_of_refused (hOff : flag s.hif.control 0 = false) (h : s.farHostMax < fld v 0 16) : farHostWrite v s =
    { s with mem := { s.mem with farRefused := true } } := by
  simp only [farHostWrite, hReset, hOff, if_pos h]
  rfl

theorem farHostWrite_of_enabled (hOn : flag s.hif.control 0 = true) : farHostWrite v s =
    { s with mem := { s.mem with farRefused := s.mem.farRefused && !flag v 31 } } := by
  simp only [farHostWrite, hReset, hOn]
  rfl

end

/-! ### The statement -/

theorem exec_repairCtlRetest (far : Bool) (v : Word32) (s : State) : exec (.repairCtlRetest far v) s = .next (repairCtl far v s) := rfl
theorem exec_marginTest (far : Bool) (v : Word32) (s : State) : exec (.marginTest far v) s = .next (marginTest far v s) := rfl
theorem exec_marginTestDone (far : Bool) (lines errors : Word32) (s : State) :
    exec (.marginTestDone far lines errors) s = .next (marginTestDone far lines.toNat errors.toNat s) := rfl
theorem exec_farHostWrite (v : Word32) (s : State) : exec (.farHostWrite v) s = .next (farHostWrite v s) := rfl

/-- Settles O27: the channels of a range, the repair keys, a margin test from its GO to its end, and the grant of the host region. -/
theorem marginsAndHostRegion : Obligations.MarginsAndHostRegion := by
  unfold Obligations.MarginsAndHostRegion
  refine ⟨⟨channelOrder_perm, fun s line hLine hActive => ?channel⟩,
    ⟨fun s v hReset => ⟨fun hKey hRetest hStack => ?stack, fun hKey hRetest hFar => ?far, fun far hKey => ?key⟩,
      fun s far v hReset hLen hOnLen => ?test, fun s far lines errors hLen hResLen => ?ended⟩,
    fun s v hReset => ⟨fun hOff h => ?granted, fun hOff h => ?refused, fun hOn => ?enabled⟩⟩
  case channel => rw [State.chanOfLine_of_allActive hLine hActive, lineChannel_of_stack hLine, lget]
  case stack => rw [exec_repairCtlRetest, repairCtl_of_stack hReset hKey hRetest hStack]
  case far => rw [exec_repairCtlRetest, repairCtl_of_far hReset hKey hRetest hFar]
  case key => rw [exec_repairCtlRetest, repairCtl_of_badKey hReset far hKey]
  case test =>
    intro i go
    have hTier : i = if far then 1 else 0 := rfl
    have hPair : i < 2 ∧ 1 - i ≠ i := by cases far <;> decide
    clear_value i
    obtain ⟨hi, hOther⟩ := hPair
    rw [← hLen] at hi
    by_cases hGo : go
    · obtain ⟨hSet, hIdle⟩ := id hGo
      cases hRef : s.marginRefused far v with
      | true =>
        rw [exec_marginTest, marginTest_of_refused hTier hReset hSet hIdle hRef]
        refine ⟨_, rfl, fun h => absurd hGo h, fun _ _ => ⟨?_, rfl⟩, fun _ h => absurd h Bool.false_ne_true.symm, ?_,
          s.putMargin_ne _ _ hOther, rfl⟩
        · rw [s.putMargin_same _ _ hi, fld_status_refused hIdle]
        · rw [s.putMargin_same _ _ hi, fld_setFld_of_disjoint _ _ _ _ (by decide) (by decide), fld_marginKept_fields]
      | false =>
        rw [exec_marginTest, marginTest_of_accepted hTier hReset hSet hIdle hRef]
        refine ⟨_, rfl, fun h => absurd hGo h, fun _ h => absurd h Bool.false_ne_true, fun _ _ => ⟨?_, ?_, ?_⟩, ?_,
          s.putMargin_ne _ _ hOther, rfl⟩
        · rw [s.putMargin_same _ _ hi, fld_status_started]
        · exact lget_lmod_same none _ (by rwa [hOnLen, ← hLen])
        · exact lget_lmod_ne none _ _ hOther
        · rw [s.putMargin_same _ _ hi, fld_fields_started]
    · rw [exec_marginTest, marginTest_of_idle hTier hReset hGo]
      refine ⟨_, rfl, fun _ => ⟨?_, rfl⟩, fun h => absurd h hGo, fun h => absurd h hGo, ?_, s.putMargin_ne _ _ hOther, rfl⟩
      · rw [s.putMargin_same _ _ hi, fld_marginKept_status]
      · rw [s.putMargin_same _ _ hi, fld_marginKept_fields]
  case ended =>
    intro i hBusy
    have hTier : i = if far then 1 else 0 := rfl
    have hi : i < 2 := by cases far <;> decide
    clear_value i
    rw [exec_marginTestDone, marginTestDone_of_busy hTier _ _ hBusy]
    refine ⟨_, rfl, ?_, lget_lmod_same (0, 0) _ (by rwa [hResLen]), fun h => lget_lmod_same none _ h, rfl⟩
    rw [lget_lmod_same 0 _ (by rwa [hLen]), fld_status_done]
    have hNone : errors.toNat = 0 ↔ errors = 0 := BitVec.toNat_inj (y := 0)
    simp only [hNone]
    split <;> rfl
  case granted =>
    rw [exec_farHostWrite, farHostWrite_of_granted hReset hOff h]
    exact ⟨_, rfl, rfl, fun hClear => by simp [hClear], rfl⟩
  case refused => rw [exec_farHostWrite, farHostWrite_of_refused hReset hOff h]
  case enabled =>
    rw [exec_farHostWrite, farHostWrite_of_enabled hReset hOn]
    exact ⟨_, rfl, rfl⟩

end Sys2Proof.Machine
end

section
/-!
SUPPORT. The banks of firmware components, what staging, an image and an activation leave of them, and the statement about firmware
updates (R480, R483).
-/

namespace Sys2Proof.Machine

/-! ### A list changed by position -/

theorem getElem?_map_zip_range {α β : Type} (f : Nat × α → β) (l : List α) (k : Nat) :
    (((List.range l.length).zip l).map f)[k]? = l[k]?.map (fun x => f (k, x)) := by
  by_cases h : k < l.length <;> simp [h]

/-- An element within the list is changed by the function at its position. -/
theorem lget_map_zip_range {α : Type} (d : α) (f : Nat × α → α) {l : List α} {k : Nat} (h : k < l.length) :
    lget d (((List.range l.length).zip l).map f) k = f (k, lget d l k) := by
  simp [lget, List.getD_eq_getElem?_getD, h]

/-- Where the function keeps every element of a position, that element stays, past the end too. -/
theorem lget_map_zip_range_of_keeps {α : Type} (d : α) {f : Nat × α → α} (l : List α) {k : Nat} (h : ∀ x, f (k, x) = x) :
    lget d (((List.range l.length).zip l).map f) k = lget d l k := by
  rw [lget, lget, List.getD_eq_getElem?_getD, List.getD_eq_getElem?_getD, getElem?_map_zip_range, funext h, Option.map_id']

theorem length_map_zip_range {α β : Type} (f : Nat × α → β) (l : List α) :
    (((List.range l.length).zip l).map f).length = l.length := by
  simp

/-- A view that the function keeps is the view of the list. -/
theorem map_view_map_zip_range {α β : Type} (view : α → β) {f : Nat × α → α} (l : List α) (h : ∀ p, view (f p) = view p.2) :
    (((List.range l.length).zip l).map f).map view = l.map view := by
  have hView : view ∘ f = view ∘ Prod.snd := funext h
  rw [List.map_map, hView, ← List.map_map, List.map_snd_zip (by simp)]

/-- A change of one element that keeps its view keeps the view of the list. -/
theorem map_view_lmod {α β : Type} (view : α → β) {f : α → α} (l : List α) (i : Nat) (h : ∀ x, view (f x) = view x) :
    (lmod l i f).map view = l.map view := by
  induction l generalizing i with
  | nil => rfl
  | cons x l ih => cases i with
    | zero => rw [lmod, List.map_cons, List.map_cons, h]
    | succ i => rw [lmod, List.map_cons, List.map_cons, ih]

/-! ### Banks (R483) -/

section
variable (c : Comp) (b : Bank)

/-- No write of the inactive bank changes the running one. -/
@[simp] theorem Comp.setInactive_run : (c.setInactive b).run = c.run := by
  cases h : c.runB <;> simp [Comp.setInactive, Comp.run, h]

@[simp] theorem Comp.setInactive_inactive : (c.setInactive b).inactive = b := by
  cases h : c.runB <;> simp [Comp.setInactive, Comp.inactive, h]

end

/-- A component whose staging starts: its inactive bank is being written. -/
def Comp.wiped (c : Comp) : Comp :=
  { c.setInactive { c.inactive with sound := false } with staged := false, activate := false }

@[simp] theorem Comp.wiped_run (c : Comp) : c.wiped.run = c.run := Comp.setInactive_run _ _

@[simp] theorem Comp.wiped_inactive_sound (c : Comp) : c.wiped.inactive.sound = false :=
  congrArg Bank.sound (Comp.setInactive_inactive c _)

/-! ### Staging starts (R483) -/

section
variable (x : Sec) (comps : Nat) (oob : Bool) (len : Nat)

theorem Sec.stage_comps : (x.stage comps oob len).comps =
    ((List.range x.comps.length).zip x.comps).map (fun p => if bitsOf comps p.1 1 = 1 then p.2.wiped else p.2) := rfl

theorem Sec.stage_runs : (x.stage comps oob len).comps.map Comp.run = x.comps.map Comp.run := by
  rw [Sec.stage_comps]
  refine map_view_map_zip_range Comp.run _ (fun p => ?_)
  split
  · exact p.2.wiped_run
  · rfl

theorem Sec.stage_named {k : Nat} (hk : k < x.comps.length) (h : bitsOf comps k 1 = 1) :
    lget {} (x.stage comps oob len).comps k = (lget {} x.comps k).wiped := by
  rw [Sec.stage_comps, lget_map_zip_range _ _ hk, if_pos h]

theorem Sec.stage_other {k : Nat} (h : bitsOf comps k 1 = 0) : lget {} (x.stage comps oob len).comps k = lget {} x.comps k := by
  rw [Sec.stage_comps]
  exact lget_map_zip_range_of_keeps _ _ (fun c => if_neg (by simp [h]))

end

section
variable {s : State} (hReset : s.hif.inReset = none) (hPrimrose : s.primrose = true) (comps : Nat)
include hReset hPrimrose

theorem fwuGo_of_staging (h : s.sec.fwuState = 1) : fwuGo comps s = { s with sec := { s.sec with fwuErr := 1 } } := by
  simp [fwuGo, State.bar0Off_of_noReset hReset, hPrimrose, h]

theorem fwuGo_of_idle (h : s.sec.fwuState ≠ 1) : fwuGo comps s = { s with sec := s.sec.stage comps false s.sec.fwuLen.toNat } := by
  simp [fwuGo, State.bar0Off_of_noReset hReset, hPrimrose, h]

end

/-! ### Out of band (R483) -/

section
variable {s : State} {i3c : Bool} (f : State → State)

theorem State.pldm_of_reaches (h : s.reaches (1 + bit i3c) = true) : s.pldm i3c f = f s := by
  simp [State.pldm, h]

theorem State.pldm_of_not_reaches (h : s.reaches (1 + bit i3c) = false) : s.pldm i3c f = s := by
  simp [State.pldm, h]

end

section
variable {s : State} {i3c : Bool} (hReaches : s.reaches (1 + bit i3c) = true)
include hReaches

theorem pldmFirmwareUpdate_of_staging (comps len : Nat) (h : s.sec.fwuState = 1) :
    pldmFirmwareUpdate i3c comps len s = s.reply (.pldm pldmAlready) := by
  rw [pldmFirmwareUpdate, State.pldm_of_reaches _ hReaches, if_pos h]

theorem pldmFirmwareUpdate_of_idle (comps len : Nat) (h : s.sec.fwuState ≠ 1) :
    pldmFirmwareUpdate i3c comps len s = ({ s with sec := s.sec.stage comps true len } : State).reply (.pldm pldmOk) := by
  rw [pldmFirmwareUpdate, State.pldm_of_reaches _ hReaches, if_neg h]

theorem activateFirmware_of_none (h : s.sec.comps.any Comp.staged = false) :
    activateFirmware i3c s = s.reply (.pldm pldmState) := by
  rw [activateFirmware, State.pldm_of_reaches _ hReaches, if_neg (by simp [h])]

theorem activateFirmware_of_staged (h : s.sec.comps.any Comp.staged = true) :
    activateFirmware i3c s = ({ s with sec := { s.sec with
      comps := s.sec.comps.map (fun (c : Comp) => { c with activate := c.activate || c.staged }) } } : State).reply (.pldm pldmOk) := by
  rw [activateFirmware, State.pldm_of_reaches _ hReaches, if_pos h]

end

/-! ### Staging ends (R480, R491) -/

/-- The registers at the end of staging, with its error; 0 says that every image is staged. -/
def Sec.stagingEnds (x : Sec) (e : Nat) : Sec :=
  { x with fwuState := if e = 0 then 2 else 3, fwuErr := e, fwuOob := false, fwuMib := satN 16 (x.fwuTotal / 1048576) }

/-- The images of a package are written one after another. -/
def Sec.putImages (x : Sec) (images : List Sys2Proof.FwImage) : Sec := images.foldl Sec.putImage x

/-- Every image of the package is staged in its component. -/
def Sec.allStaged (x : Sec) (images : List Sys2Proof.FwImage) : Bool :=
  images.all (fun im => (lget {} x.comps im.comp.val).staged)

theorem Sec.allStaged_iff (x : Sec) (images : List Sys2Proof.FwImage) :
    x.allStaged images = true ↔ ∀ im ∈ images, (lget {} x.comps im.comp.val).staged = true := List.all_eq_true

/-- The registers after the images of a package that was read and is well-formed. -/
def Sec.packageEnds (x : Sec) (images : List Sys2Proof.FwImage) : Sec :=
  (x.putImages images).stagingEnds (if (x.putImages images).allStaged images then 0 else 3)

theorem Sec.putImage_runs (x : Sec) (im : Sys2Proof.FwImage) : (x.putImage im).comps.map Comp.run = x.comps.map Comp.run :=
  map_view_lmod Comp.run _ _ (fun c => c.setInactive_run _)

theorem Sec.putImages_runs (images : List Sys2Proof.FwImage) (x : Sec) :
    (x.putImages images).comps.map Comp.run = x.comps.map Comp.run :=
  foldl_keeps (fun x : Sec => x.comps.map Comp.run) _ _ _ Sec.putImage_runs

section
variable {s : State} (malformed : Bool) (images : List Sys2Proof.FwImage)

theorem fwuStagingDone_of_idle (h : s.sec.fwuState ≠ 1 ∨ s.primrose = false) : fwuStagingDone malformed images s = s :=
  if_pos (h.imp_right (by simp [·]))

variable (hState : s.sec.fwuState = 1) (hPrimrose : s.primrose = true)
include hState hPrimrose

theorem fwuStagingDone_of_unread (hIn : s.sec.fwuOob = false) (hHost : s.hostOk s.sec.fwuBase s.sec.fwuTotal = false) :
    fwuStagingDone malformed images s = { s with sec := s.sec.stagingEnds 4 } := by
  simp [fwuStagingDone, hState, hPrimrose, hIn, hHost, Sec.stagingEnds]

variable (hRead : s.sec.fwuOob = true ∨ s.hostOk s.sec.fwuBase s.sec.fwuTotal = true)
include hRead

theorem fwuStagingDone_of_malformed : fwuStagingDone true images s = { s with sec := s.sec.stagingEnds 2 } := by
  rcases hRead with h | h <;> simp [fwuStagingDone, hState, hPrimrose, h, Sec.stagingEnds]

theorem fwuStagingDone_of_read : fwuStagingDone false images s = { s with sec := s.sec.packageEnds images } := by
  rcases hRead with h | h <;>
    simp [fwuStagingDone, hState, hPrimrose, h, Sec.packageEnds, Sec.stagingEnds, Sec.allStaged, Sec.putImages]

end

/-- A package that is read and well-formed ends DONE with no error where every image is staged, else FAILED with ERR 3. -/
theorem Sec.packageEnds_cases (x : Sec) (images : List Sys2Proof.FwImage) :
    ((x.putImages images).allStaged images = true ∧ (x.packageEnds images).fwuState = 2 ∧ (x.packageEnds images).fwuErr = 0) ∨
    ((x.putImages images).allStaged images = false ∧ (x.packageEnds images).fwuState = 3 ∧ (x.packageEnds images).fwuErr = 3) := by
  cases h : (x.putImages images).allStaged images <;> simp [Sec.packageEnds, Sec.stagingEnds, h]

/-! ### Abort and activation (R483, R491) -/

theorem fwuAbort_of_staging {s : State} (hReset : s.hif.inReset = none) (h : s.sec.fwuState = 1) :
    fwuAbort s = { s with sec := { s.sec with fwuState := 3, fwuErr := 5, fwuOob := false } } := by
  simp [fwuAbort, State.bar0Off_of_noReset hReset, h]

theorem fwuAbort_of_idle {s : State} (h : s.sec.fwuState ≠ 1) : fwuAbort s = s := if_pos (.inr h)

/-- The components after FWU_ACTIVATE: those that it names and that are staged are marked. -/
def activateMarks (mask : Nat) (cs : List Comp) : List Comp :=
  ((List.range cs.length).zip cs).map (fun p => if bitsOf mask p.1 1 = 1 ∧ p.2.staged then { p.2 with activate := true } else p.2)

/-- FWU_ACTIVATE names a component that is not staged. -/
def activateUnstaged (mask : Nat) (cs : List Comp) : Bool :=
  ((List.range cs.length).zip cs).any (fun p => bitsOf mask p.1 1 == 1 && !p.2.staged)

theorem fwuActivate_of_noReset {s : State} (h : s.hif.inReset = none) (mask : Nat) :
    fwuActivate mask s = { s with sec := { s.sec with
      comps := activateMarks mask s.sec.comps, fwuErr := if activateUnstaged mask s.sec.comps then 6 else s.sec.fwuErr } } := by
  rw [fwuActivate, State.bar0Off_of_noReset h]
  rfl

theorem activateMarks_activate (mask : Nat) {cs : List Comp} {k : Nat} (hk : k < cs.length) :
    (lget {} (activateMarks mask cs) k).activate = ((lget {} cs k).activate || (bitsOf mask k 1 == 1 && (lget {} cs k).staged)) := by
  rw [activateMarks, lget_map_zip_range _ _ hk]
  by_cases hNamed : bitsOf mask k 1 = 1 <;> cases hStaged : (lget {} cs k).staged <;> simp [hNamed, hStaged]

theorem activateUnstaged_of_named {mask : Nat} {cs : List Comp} {k : Nat} (hk : k < cs.length) (hNamed : bitsOf mask k 1 = 1)
    (hStaged : (lget {} cs k).staged = false) : activateUnstaged mask cs = true := by
  refine List.any_eq_true.mpr ⟨(k, lget {} cs k), ?_, by simp [hNamed, hStaged]⟩
  refine List.mem_of_getElem? (i := k) ?_
  simp [lget, List.getD_eq_getElem?_getD, hk]

/-! ### The steps -/

theorem exec_fwuGo (comps : BitVec 4) (s : State) : exec (.fwuGo comps) s = .next (fwuGo comps.toNat s) := rfl
theorem exec_fwuAbort (s : State) : exec .fwuAbort s = .next (fwuAbort s) := rfl
theorem exec_fwuActivate (mask : BitVec 4) (s : State) : exec (.fwuActivate mask) s = .next (fwuActivate mask.toNat s) := rfl
theorem exec_fwuStagingDone (bad : Bool) (images : List Sys2Proof.FwImage) (s : State) :
    exec (.fwuStagingDone bad images) s = .next (fwuStagingDone bad images s) := rfl
theorem exec_pldmFirmwareUpdate (i3c : Bool) (comps : BitVec 4) (len : Word32) (s : State) :
    exec (.pldmFirmwareUpdate i3c comps len) s = .next (pldmFirmwareUpdate i3c comps.toNat len.toNat s) := rfl
theorem exec_activateFirmware (i3c : Bool) (s : State) : exec (.activateFirmware i3c) s = .next (activateFirmware i3c s) := rfl

/-- Settles O58: GO, the out-of-band requests, ABORT, the end of staging and ACTIVATE, case by case; no case writes a running bank. -/
theorem firmwareIsStagedAndActivated : Obligations.FirmwareIsStagedAndActivated := by
  unfold Obligations.FirmwareIsStagedAndActivated
  refine ⟨fun s comps hReset hPrimrose => ⟨fun hStaging => ?again, fun hIdle => ?go⟩,
    fun s i3c comps len => ⟨fun hAway => ?away, fun hReaches => ⟨?already, ?update, ?unstaged, ?activates⟩⟩,
    fun s hReset => ⟨fun hStaging => ?aborts, fun hIdle => ?noAbort⟩,
    fun s bad images => ⟨fun hIdle => ?noEnd, fun hState hPrimrose => ?ends⟩, fun s mask hReset => ?marks⟩
  case again => rw [exec_fwuGo, fwuGo_of_staging hReset hPrimrose _ hStaging]
  case go =>
    rw [exec_fwuGo, fwuGo_of_idle hReset hPrimrose _ hIdle]
    refine ⟨_, rfl, rfl, rfl, rfl, length_map_zip_range _ _, Sec.stage_runs _ _ _ _, fun k hk h => ?_,
      fun k h => Sec.stage_other _ _ _ _ h, rfl⟩
    dsimp only
    rw [Sec.stage_named _ _ _ _ hk h]
    exact ⟨rfl, rfl, Comp.wiped_inactive_sound _⟩
  case away =>
    rw [exec_pldmFirmwareUpdate, exec_activateFirmware, pldmFirmwareUpdate, activateFirmware, State.pldm_of_not_reaches _ hAway,
      State.pldm_of_not_reaches _ hAway]
    exact ⟨rfl, rfl⟩
  case already => exact fun h => congrArg _ (pldmFirmwareUpdate_of_staging hReaches _ _ h)
  case update => exact fun h => congrArg _ (pldmFirmwareUpdate_of_idle hReaches _ _ h)
  case unstaged => exact fun h => congrArg _ (activateFirmware_of_none hReaches h)
  case activates => exact fun h => congrArg _ (activateFirmware_of_staged hReaches h)
  case aborts => rw [exec_fwuAbort, fwuAbort_of_staging hReset hStaging]
  case noAbort => rw [exec_fwuAbort, fwuAbort_of_idle hIdle]
  case noEnd => rw [exec_fwuStagingDone, fwuStagingDone_of_idle _ _ hIdle]
  case ends =>
    intro read
    rw [exec_fwuStagingDone]
    by_cases hRead : read
    · cases bad with
      | true =>
        rw [fwuStagingDone_of_malformed _ hState hPrimrose hRead]
        exact ⟨_, rfl, rfl, rfl, fun h => absurd hRead h, fun _ _ => ⟨rfl, rfl, rfl⟩, fun _ h => absurd h (by decide),
          fun _ h => absurd h (by decide)⟩
      | false =>
        rw [fwuStagingDone_of_read _ hState hPrimrose hRead]
        refine ⟨_, rfl, Sec.putImages_runs _ _, rfl, fun h => absurd hRead h, fun _ h => absurd h (by decide), fun _ _ => ?_, fun _ _ => ?_⟩
        · refine Iff.trans ?_ ((s.sec.putImages images).allStaged_iff images)
          obtain ⟨hAll, hEnd, hErr⟩ | ⟨hAll, hEnd, hErr⟩ := s.sec.packageEnds_cases images <;> simp [hAll, hEnd, hErr]
        · obtain ⟨-, hEnd, hErr⟩ | ⟨-, hEnd, hErr⟩ := s.sec.packageEnds_cases images <;> simp [hEnd, hErr]
    · obtain ⟨hIn, hHost⟩ := not_or.mp hRead
      rw [fwuStagingDone_of_unread _ _ hState hPrimrose (Bool.eq_false_of_not_eq_true hIn) (Bool.eq_false_of_not_eq_true hHost)]
      exact ⟨_, rfl, rfl, rfl, fun _ => ⟨rfl, rfl, rfl⟩, fun h => absurd h hRead, fun h => absurd h hRead, fun h => absurd h hRead⟩
  case marks =>
    rw [exec_fwuActivate, fwuActivate_of_noReset hReset]
    refine ⟨_, rfl, length_map_zip_range _ _, fun k hk => activateMarks_activate _ hk, ?_, rfl⟩
    rintro ⟨k, hk, hNamed, hStaged⟩
    exact if_pos (activateUnstaged_of_named hk hNamed hStaged)

end Sys2Proof.Machine
end

section
/-!
SUPPORT. A request by the progress it needs, what a signed response leaves, and the statement about SPDM (R475 to R478, R484, R485).
-/

namespace Sys2Proof.Machine

/-! ### Requests by their progress (R484, R485) -/

section
variable {s : State} {t : Nat} (f : State → State)

theorem State.spdm_of_not_reaches (need : Nat) (h : s.reaches t = false) : s.spdm t need f = s := by
  simp [State.spdm, h]

variable (hReaches : s.reaches t = true) {need : Nat}
include hReaches

theorem State.spdm_of_early (h : s.conn t < need) : s.spdm t need f = s.reply (.error spdmUnexpected) := by
  simp [State.spdm, hReaches, h]

theorem State.spdm_of_ready (h : need ≤ s.conn t) : s.spdm t need f = f s := by
  simp [State.spdm, hReaches, Nat.not_lt.mpr h]

variable {n : Nat} {up : Bool} (hReady : 3 ≤ s.conn t)
include hReady

theorem State.inSession_of_session (h : s.session? t n up = true) : s.inSession t n up f = f s := by
  rw [State.inSession, State.spdm_of_ready _ hReaches hReady, if_pos h]

theorem State.inSession_of_none (h : s.session? t n up = false) : s.inSession t n up f = s.reply (.error spdmSession) := by
  rw [State.inSession, State.spdm_of_ready _ hReaches hReady, if_neg (by simp [h])]

end

/-- A request of a session is one that needs ALGORITHMS. -/
theorem State.inSession_eq_spdm (s : State) (t n : Nat) (up : Bool) (f : State → State) :
    ∃ g, s.inSession t n up f = s.spdm t 3 g := ⟨_, rfl⟩

/-- The requests that need ALGORITHMS. -/
def algorithmsRequests (tr : Fin 3) (slot : BitVec 4) (w : BitVec 8) (sg : Bool) (n : Nat) (h : Bool) : List Instr :=
  [.getDigests tr, .getCertificate tr slot, .challenge tr slot, .getMeasurements tr w sg, .keyExchange tr, .finish tr n h,
   .keyUpdate tr n, .heartbeat tr n, .endSession tr n, .respondIfReady tr]

section
variable {tr : Fin 3} {slot : BitVec 4} {w : BitVec 8} {sg h common : Bool} {n : Nat} {i : Instr}

theorem exec_of_mem_algorithmsRequests (hi : i ∈ algorithmsRequests tr slot w sg n h) (s : State) :
    ∃ f, exec i s = .next (s.spdm tr.val 3 f) := by
  simp only [algorithmsRequests, List.mem_cons, List.not_mem_nil, or_false] at hi
  have hSession {up : Bool} {f : State → State} : ∃ g, Host.Outcome.next (φ := Fault) (ρ := Refusal) (s.inSession tr.val n up f) =
      .next (s.spdm tr.val 3 g) := (s.inSession_eq_spdm _ _ _ _).imp (fun _ h => congrArg _ h)
  rcases hi with rfl | rfl | rfl | rfl | rfl | hi
  iterate 5 exact ⟨_, rfl⟩
  rcases hi with rfl | rfl | rfl | rfl | rfl
  iterate 4 exact hSession
  exact ⟨_, rfl⟩

/-- Every request is bound to its transport and to some progress. -/
theorem exec_of_mem_spdmRequests (s : State)
    (hi : i ∈ .getVersion tr :: .getCapabilities tr :: .negotiateAlgorithms tr common :: algorithmsRequests tr slot w sg n h) :
    ∃ need f, exec i s = .next (s.spdm tr.val need f) := by
  simp only [List.mem_cons] at hi
  rcases hi with rfl | rfl | rfl | hi
  · exact ⟨0, _, rfl⟩
  · exact ⟨1, _, rfl⟩
  · exact ⟨2, _, rfl⟩
  · exact ⟨3, exec_of_mem_algorithmsRequests hi s⟩

end

/-! ### Signed responses (R475 to R478) -/

/-- The signed response to a request, with the AAK index that it takes. -/
def State.signedReply (s : State) : Asked → Reply
  | .challenge => .challengeAuth s.sec.aakGen s.sec.aakNext
  | .measurements w => s.measured w (some (s.sec.aakGen, s.sec.aakNext))
  | .keyExchange => .keyExchange s.sec.nextSession s.sec.aakGen s.sec.aakNext

section
variable (s : State) (t : Nat) (a : Asked)

theorem State.signed_reply : (s.signed t a).sec.reply = some (s.signedReply a) := by cases a <;> rfl
theorem State.signed_aakNext : (s.signed t a).sec.aakNext = s.sec.aakNext + 1 := by cases a <;> rfl
theorem State.signed_tokens : (s.signed t a).sec.tokens = s.sec.tokens - 1 := by cases a <;> rfl
theorem State.signed_dikNext : (s.signed t a).sec.dikNext = s.sec.dikNext := by cases a <;> rfl
theorem State.signed_eq : s.signed t a = { s with sec := (s.signed t a).sec } := by cases a <;> rfl

/-- Index 1,023 starts the next key while the DIK has an index. -/
theorem State.signed_aakBusy : (s.signed t a).sec.aakBusy = true ↔ 1023 ≤ s.sec.aakNext ∧ s.sec.dikNext < 65536 := by
  have hSign : (s.signed t a).sec.aakBusy = s.sec.sign.aakBusy := by cases a <;> rfl
  rw [hSign, Sec.sign, Sec.noted_aakBusy, decide_eq_true_iff]
  omega

/-- Only a KEY_EXCHANGE opens a session. -/
theorem State.signed_sessions (h : a ≠ .keyExchange) : (s.signed t a).sec.sessions = s.sec.sessions := by
  cases a with
  | challenge => rfl
  | measurements => rfl
  | keyExchange => exact absurd rfl h

theorem State.signed_keyExchange_sessions :
    (s.signed t .keyExchange).sec.sessions = s.sec.sessions ++ [{ id := s.sec.nextSession, transport := t, up := false }] := rfl

end

section
variable {s : State} (t : Nat) (a : Asked)

theorem State.signRequest_of_exhausted (h : s.sec.exhausted = true) : s.signRequest t a = s.reply (.error spdmUnspecified) := if_pos h

variable (hLeft : s.sec.exhausted = false)
include hLeft

theorem State.signRequest_of_generating (h : s.sec.aakBusy = true) : s.signRequest t a =
    ({ s with sec := { s.sec with delayed := tset s.sec.delayed t a } } : State).reply (.error spdmNotReady) := by
  simp [State.signRequest, hLeft, h]

variable (hKey : s.sec.aakBusy = false)
include hKey

theorem State.signRequest_of_empty (h : s.sec.tokens = 0) : s.signRequest t a = s.reply (.error spdmBusy) := by
  simp [State.signRequest, hLeft, hKey, h]

theorem State.signRequest_of_token (h : 0 < s.sec.tokens) : s.signRequest t a = s.signed t a := by
  simp [State.signRequest, hLeft, hKey, Nat.ne_of_gt h]

end

/-! ### Requests once the algorithms are negotiated (Table 17.2) -/

section
variable {s : State} {t : Nat} (hReaches : s.reaches t = true) (hReady : 3 ≤ s.conn t)
include hReaches hReady

theorem getDigests_of_ready : getDigests t s = s.reply (.digests s.sec.aakGen) := State.spdm_of_ready _ hReaches hReady

theorem getCertificate_of_ready (slot : Nat) :
    getCertificate t slot s = s.reply (if slot = 0 then .certificate s.sec.aakGen else .error spdmInvalid) :=
  State.spdm_of_ready _ hReaches hReady

theorem challenge_of_ready (slot : Nat) :
    challenge t slot s = if slot = 0 then s.signRequest t .challenge else s.reply (.error spdmInvalid) :=
  State.spdm_of_ready _ hReaches hReady

theorem getMeasurements_of_badIndex {w : Nat} (sg : Bool) (h : 8 < w ∧ w ≠ 0xFF) :
    getMeasurements t w sg s = s.reply (.error spdmInvalid) :=
  (State.spdm_of_ready _ hReaches hReady).trans (if_pos h)

theorem getMeasurements_of_index {w : Nat} (sg : Bool) (h : w ≤ 8 ∨ w = 0xFF) :
    getMeasurements t w sg s = if sg then s.signRequest t (.measurements w) else s.reply (s.measured w none) :=
  (State.spdm_of_ready _ hReaches hReady).trans (if_neg (by omega))

theorem keyExchange_of_full (h : 4 ≤ s.sec.sessions.length) : keyExchange t s = s.reply (.error spdmSessionLimit) :=
  (State.spdm_of_ready _ hReaches hReady).trans (if_pos h)

theorem keyExchange_of_room (h : s.sec.sessions.length < 4) : keyExchange t s = s.signRequest t .keyExchange :=
  (State.spdm_of_ready _ hReaches hReady).trans (if_neg (Nat.not_le.mpr h))

theorem respondIfReady_of_none (h : s.sec.delayed.find? (fun d => d.1 == t) = none) :
    respondIfReady t s = s.reply (.error spdmUnexpected) := by
  rw [respondIfReady, State.spdm_of_ready _ hReaches hReady, h]

theorem respondIfReady_of_delayed {a : Asked} (h : s.sec.delayed.find? (fun d => d.1 == t) = some (t, a)) :
    respondIfReady t s = ({ s with sec := { s.sec with delayed := tdel s.sec.delayed t } } : State).signRequest t a := by
  rw [respondIfReady, State.spdm_of_ready _ hReaches hReady, h]

end

/-! ### The steps -/

section
variable (tr : Fin 3) (s : State) (slot : BitVec 4) (w : BitVec 8) (sg : Bool)

theorem exec_getDigests : exec (.getDigests tr) s = .next (getDigests tr.val s) := rfl
theorem exec_challenge : exec (.challenge tr slot) s = .next (challenge tr.val slot.toNat s) := rfl
theorem exec_getMeasurements : exec (.getMeasurements tr w sg) s = .next (getMeasurements tr.val w.toNat sg s) := rfl
theorem exec_keyExchange : exec (.keyExchange tr) s = .next (keyExchange tr.val s) := rfl
theorem exec_respondIfReady : exec (.respondIfReady tr) s = .next (respondIfReady tr.val s) := rfl

end

/-- Settles O57: each request by its transport and progress, and the four answers to a signed request. -/
theorem spdmAnswersAndSigns : Obligations.SpdmAnswersAndSigns := by
  unfold Obligations.SpdmAnswersAndSigns
  refine ⟨fun s tr => ⟨fun hAway common sg h slot w n i hi => ?away, fun hReaches => ⟨?version, fun h => ?earlyCapabilities,
    fun h => ?capabilities, fun h b => ?earlyAlgorithms, fun h => ?algorithms, fun hEarly sg h slot w n i hi => ?early,
    fun hReady => ⟨?digests, ?certificate, fun slot hSlot => ?badSlot, fun w hw => ?measured, fun w sg hw hAll => ?badIndex,
      fun n => ⟨fun h => ?finish, fun h hmac => ?noFinish, fun h => ?session, fun h => ?noSession⟩⟩⟩⟩,
    fun s tr w hReaches hReady hw => ?signed⟩
  case away =>
    obtain ⟨need, f, hExec⟩ := exec_of_mem_spdmRequests s hi
    rw [hExec, State.spdm_of_not_reaches f need hAway]
  case version => exact congrArg _ (State.spdm_of_ready _ hReaches (Nat.zero_le _))
  case earlyCapabilities => exact congrArg _ (State.spdm_of_early _ hReaches h)
  case capabilities => exact congrArg _ (State.spdm_of_ready _ hReaches h)
  case earlyAlgorithms => exact congrArg _ (State.spdm_of_early _ hReaches h)
  case algorithms => exact ⟨congrArg _ (State.spdm_of_ready _ hReaches h), congrArg _ (State.spdm_of_ready _ hReaches h)⟩
  case early =>
    obtain ⟨f, hExec⟩ := exec_of_mem_algorithmsRequests hi s
    exact hExec.trans (congrArg _ (State.spdm_of_early f hReaches hEarly))
  case digests => rw [exec_getDigests, getDigests_of_ready hReaches hReady]
  case certificate => exact congrArg _ (getCertificate_of_ready hReaches hReady 0)
  case badSlot =>
    have hNat : slot.toNat ≠ 0 := fun h => hSlot (BitVec.eq_of_toNat_eq h)
    exact ⟨congrArg _ ((getCertificate_of_ready hReaches hReady _).trans (by rw [if_neg hNat])),
      congrArg _ ((challenge_of_ready hReaches hReady _).trans (if_neg hNat))⟩
  case measured => exact congrArg _ (getMeasurements_of_index hReaches hReady false hw)
  case badIndex => exact congrArg _ (getMeasurements_of_badIndex hReaches hReady sg ⟨hw, hAll⟩)
  case finish =>
    exact ⟨congrArg _ (State.inSession_of_session _ hReaches hReady h), congrArg _ (State.inSession_of_session _ hReaches hReady h)⟩
  case noFinish => exact congrArg _ (State.inSession_of_none _ hReaches hReady h)
  case session =>
    exact ⟨congrArg _ (State.inSession_of_session _ hReaches hReady h), congrArg _ (State.inSession_of_session _ hReaches hReady h),
      congrArg _ (State.inSession_of_session _ hReaches hReady h)⟩
  case noSession =>
    exact ⟨congrArg _ (State.inSession_of_none _ hReaches hReady h), congrArg _ (State.inSession_of_none _ hReaches hReady h),
      congrArg _ (State.inSession_of_none _ hReaches hReady h)⟩
  case signed =>
    intro t x asks
    have hAsks : ∀ i a, exec i s = .next (s.signRequest t a) → asks i a (s.signedReply a) := by
      intro i a hExec
      refine ⟨fun h => ?_, fun hLeft h => ?_, fun hLeft hKey h => ?_, fun hLeft hKey h => ?_⟩
      · rw [hExec, State.signRequest_of_exhausted t a h]
      · rw [hExec, State.signRequest_of_generating t a hLeft h]
      · rw [hExec, State.signRequest_of_empty t a hLeft hKey h]
      · rw [hExec, State.signRequest_of_token t a hLeft hKey h]
        refine ⟨_, rfl, s.signed_reply t a, s.signed_aakNext t a, s.signed_tokens t a, s.signed_aakBusy t a, s.signed_dikNext t a,
          s.signed_eq t a, ?_, s.signed_sessions t a⟩
        rintro rfl
        exact s.signed_keyExchange_sessions t
    refine ⟨hAsks _ _ ?_, hAsks _ _ ?_, fun hFull => ?_, fun hRoom => hAsks _ _ ?_, fun a h => ?_, fun h => ?_⟩
    · rw [exec_challenge]
      exact congrArg _ (challenge_of_ready hReaches hReady 0)
    · rw [exec_getMeasurements, getMeasurements_of_index hReaches hReady true hw, if_pos rfl]
    · rw [exec_keyExchange, keyExchange_of_full hReaches hReady hFull]
    · rw [exec_keyExchange, keyExchange_of_room hReaches hReady hRoom]
    · rw [exec_respondIfReady, respondIfReady_of_delayed hReaches hReady h]
    · rw [exec_respondIfReady, respondIfReady_of_none hReaches hReady h]

end Sys2Proof.Machine
end

section
/-!
SUPPORT. Boosts that end, the reports of rails and of the input, the alert wire and the ramps, and the statement about them (R404 to R406,
R410, R413, R414, R424, R426).
-/

namespace Sys2Proof.Machine

/-! ### Boosts that end (R410) -/

section
variable {s : State}

/-- A boost stays where it was and where no reason throttles its cluster, whose partition is dynamic. -/
theorem State.mem_boostDrop {e : Nat × Nat} :
    e ∈ s.boostDrop.pwr.boost ↔ e ∈ s.pwr.boost ∧ (s.dynPart e.1).isSome = true ∧ s.throttled e.1 = false := by
  simp [State.boostDrop]

/-- Which clusters are throttled does not depend on the boosts, so that no throttled one keeps its boost. -/
theorem State.boostDrop_kept {e : Nat × Nat} (h : e ∈ s.boostDrop.pwr.boost) : e ∈ s.pwr.boost ∧ s.boostDrop.throttled e.1 = false := by
  obtain ⟨hBoost, -, hFree⟩ := State.mem_boostDrop.mp h
  exact ⟨hBoost, hFree⟩

end

/-! ### The report of a rail (R404, R405) -/

section
variable {lim current : Nat} (mv : Nat) (r : Rail)

theorem railWindow_bubble_above (h : lim < current) : (railWindow lim current mv r).bubble = min 224 (r.bubble + 16) := if_pos h

theorem railWindow_bubble_below (h : current ≤ lim) (hLow : 10 * current < 9 * lim) :
    (railWindow lim current mv r).bubble = r.bubble - 4 :=
  (if_neg (Nat.not_lt.mpr h)).trans (if_pos hLow)

theorem railWindow_bubble_between (h : current ≤ lim) (hHigh : 9 * lim ≤ 10 * current) :
    (railWindow lim current mv r).bubble = r.bubble :=
  (if_neg (Nat.not_lt.mpr h)).trans (if_neg (Nat.not_lt.mpr hHigh))

end

section
variable {s : State} {rail current mv : Nat}

/-- The state with a rail's window taken, before the boosts follow. -/
def State.railTaken (s : State) (rail current mv : Nat) : State :=
  { s with pwr := { s.pwr with rails := lmod s.pwr.rails rail (railWindow (railLimit rail) current mv) } }

theorem railCurrentReport_of_off (h : s.module.rails = false) : railCurrentReport rail current mv s = s := by
  simp [railCurrentReport, h]

theorem railCurrentReport_of_on (h : s.module.rails = true) :
    railCurrentReport rail current mv s = (s.railTaken rail current mv).boostDrop := if_pos h

theorem State.railTaken_same (h : rail < s.pwr.rails.length) : lget {} (s.railTaken rail current mv).boostDrop.pwr.rails rail =
    railWindow (railLimit rail) current mv (lget {} s.pwr.rails rail) := lget_lmod_same ({} : Rail) _ h

theorem State.railTaken_ne {i : Nat} (h : i ≠ rail) :
    lget {} (s.railTaken rail current mv).boostDrop.pwr.rails i = lget {} s.pwr.rails i := lget_lmod_ne ({} : Rail) _ _ h

end

/-! ### The report of the input (R404, R413, R414) -/

/-- The word that shows the input: its power below its voltage. -/
def inputWord (power vin : Nat) : Word32 := BitVec.ofNat 32 (satN 16 vin * 65536 + satN 16 power)

theorem fld_inputWord (power vin : Nat) :
    fld (inputWord power vin) 0 16 = min power 65535 ∧ fld (inputWord power vin) 16 16 = min vin 65535 := by
  have hPower : satN 16 power < 65536 := Nat.lt_succ_of_le (Nat.min_le_right _ _)
  have hVin : satN 16 vin < 65536 := Nat.lt_succ_of_le (Nat.min_le_right _ _)
  have hWord : satN 16 vin * 65536 + satN 16 power < 2 ^ 32 := by omega
  simp only [inputWord, fld, bitsOf, BitVec.toNat_ofNat, Nat.mod_eq_of_lt hWord, Nat.shiftRight_eq_div_pow]
  exact ⟨(by omega : _ = satN 16 power), (by omega : _ = satN 16 vin)⟩

/-- The energy of a report, charged to the ring pairs of its entries. -/
def State.chargeRings (s : State) (energy : List (Nat × Nat × Nat)) : State :=
  energy.foldl (fun s x => s.modRing x.2.1 (fun r => { r with energy := (r.energy + x.2.2) % 2 ^ 64 })) s

/-- Nothing but the ring pairs changes, and without entries not even they. -/
theorem State.chargeRings_eq (s : State) (energy : List (Nat × Nat × Nat)) :
    ∃ rings, s.chargeRings energy = { s with qm := { s.qm with rings := rings } } ∧ (energy = [] → rings = s.qm.rings) := by
  cases energy with
  | nil => exact ⟨_, rfl, fun _ => rfl⟩
  | cons e l =>
    refine Exists.imp (fun _ h => ⟨h, fun h => absurd h (List.cons_ne_nil e l)⟩) ?_
    generalize e :: l = energy
    induction energy generalizing s with
    | nil => exact ⟨_, rfl⟩
    | cons e l ih => exact ih (s.modRing e.2.1 (fun r => { r with energy := (r.energy + e.2.2) % 2 ^ 64 }))

/-- The power registers that a report of the input writes, with its word w, before the cap follows. -/
def State.inputTaken (s : State) (w : Word32) (u : Nat) (meas energy : List (Nat × Nat × Nat)) (un : Nat) (miss : Bool) : Pwr :=
  { s.pwr with
    input := w, u := u
    overshoot := u - 10 * (capLimit s.pwr.cap - capGuard s.pwr.cap), paceMiss := miss
    est := meas.foldl (fun (e : List (Nat × Word32)) (m : Nat × Nat × Nat) => tset e (6 * m.1 + m.2.1) (s.learn m.1 m.2.1 m.2.2)) s.pwr.est
    energyPart := energy.foldl (fun (e : List (Nat × Nat)) (x : Nat × Nat × Nat) => tset e x.1 ((tget 0 e x.1 + x.2.2) % 2 ^ 64)) s.pwr.energyPart
    energyUn := (s.pwr.energyUn + un) % 2 ^ 64 }

/-- The cap follows the active phases, then each cluster's boost. -/
def State.capAndBoosts (s : State) : State :=
  let c := s.capUpdate
  { c with pwr := { c.pwr with boost := (List.range 16).map (fun k => (k, c.boostNext k)) } }

/-- The cap and the boosts change nothing else, and with the cap off no fraction is left. -/
theorem State.capAndBoosts_eq (s : State) : ∃ keys dyn fix boost, s.capAndBoosts = { s with pwr := { s.pwr with
    activeKey := keys, capDyn := dyn, capFix := fix, boost := boost } } ∧ (pwrCapEn s.pwr.ctl = false → dyn = 0 ∧ fix = 0) := by
  refine ⟨_, (s.capFractions s.activePhases).1, (s.capFractions s.activePhases).2, _, rfl, fun h => ?_⟩
  have hOff : s.capFractions s.activePhases = (0, 0) := if_pos (.inl (by simp [h]))
  rw [hOff]
  exact ⟨rfl, rfl⟩

theorem inputPowerReport_eq (s : State) (power vin u : Nat) (meas energy : List (Nat × Nat × Nat)) (un : Nat) (miss : Bool) :
    inputPowerReport power vin u meas energy un miss s =
      (({ s with pwr := s.inputTaken (inputWord power vin) u meas energy un miss } : State).chargeRings energy).capAndBoosts := rfl

/-! ### The alert wire (R406) -/

theorem vrAlertAssert_of_noEvent {s : State} (h : pwrThrEvt s.pwr.ctl = false) :
    vrAlertAssert s = { s with pwr := { s.pwr with alert := true, alertFrac := 224, boost := [] } } := by
  simp [vrAlertAssert, h]

theorem vrAlertAssert_pwr (s : State) : (vrAlertAssert s).pwr = { s.pwr with alert := true, alertFrac := 224, boost := [] } := by
  unfold vrAlertAssert
  dsimp only
  split
  · exact State.event_pwr _ _ _ _ _ _ _
  · rfl

theorem vrAlertDeassert_of_clear {s : State} (h : s.pwr.alert = false) : vrAlertDeassert s = s := by simp [vrAlertDeassert, h]

/-! ### Ramps (R424, R426) -/

/-- What PARK_QUEUE_JOIN needs of tile n. -/
def State.parkJoins (s : State) (n : Nat) : Prop :=
  rampHold s.pwr.ramp = false ∧ (s.tile n).running = none ∧ (s.unit n).state = .active ∧ n ∉ s.pwr.parkQ ∧ n ∉ s.pwr.parked ∧
    (s.tile n).workSince + 1000 * rampIdle s.pwr.ramp ≤ s.hif.timer

section
variable {s : State} {n : Nat}

theorem parkQueueJoin_of_joins (h : s.parkJoins n) : parkQueueJoin n s = { s with pwr := { s.pwr with parkQ := s.pwr.parkQ ++ [n] } } := by
  obtain ⟨hHold, hIdle, hActive, hQueued, hParked, hTime⟩ := h
  simp [parkQueueJoin, hHold, hIdle, hActive, hQueued, hParked, Nat.not_lt.mpr hTime]

theorem parkQueueJoin_of_stays (h : ¬ s.parkJoins n) : parkQueueJoin n s = s := by
  refine if_pos ?_
  by_contra hNot
  simp only [not_or, not_not, Nat.not_lt, Bool.not_eq_true, List.contains_iff_mem, Option.isSome_eq_false_iff,
    Option.isNone_iff_eq_none] at hNot
  exact h hNot

end

/-- The tiles parked after a step of the ramp: those before it and the first of the park queue, but for the first of the
unpark queue. -/
theorem mem_rampStep_parked {s : State} {n : Nat} : n ∈ (rampStep s).pwr.parked ↔
    (n ∈ s.pwr.parked ∨ n ∈ (sortBy (fun (a b : Nat) => decide (a < b)) s.pwr.parkQ).take (rampGroup s.pwr.ramp)) ∧
    n ∉ (sortBy (fun (a b : Nat) => decide (a < b)) s.pwr.unparkQ).take (rampGroup s.pwr.ramp) := by
  simp [rampStep, or_and_right]

/-! ### The steps -/

section
variable (s : State)

theorem exec_railCurrentReport (rail : Fin 45) (current mv : BitVec 16) :
    exec (.railCurrentReport rail current mv) s = .next (railCurrentReport rail.val current.toNat mv.toNat s) := rfl
theorem exec_inputPowerReport (power vin u : Nat) (meas energy : List (Nat × Nat × Nat)) (un : Nat) (miss : Bool) :
    exec (.inputPowerReport power vin u meas energy un miss) s = .next (inputPowerReport power vin u meas energy un miss s) := rfl
theorem exec_vrAlertAssert : exec .vrAlertAssert s = .next (vrAlertAssert s) := rfl
theorem exec_vrAlertDeassert : exec .vrAlertDeassert s = .next (vrAlertDeassert s) := rfl
theorem exec_parkQueueJoin (tile : Fin 272) : exec (.parkQueueJoin tile) s = .next (parkQueueJoin tile.val s) := rfl
theorem exec_rampStep : exec .rampStep s = .next (rampStep s) := rfl

end

/-- Settles O54: a rail's fraction by its current, what an input report takes, and the wire and the ramps case by case. -/
theorem powerReportsAndRamps : Obligations.PowerReportsAndRamps := by
  unfold Obligations.PowerReportsAndRamps
  refine ⟨⟨fun s rail current mv hLen => ⟨fun hOff => ?off, fun hOn => ?rail⟩, fun s power vin u meas energy un miss => ?input⟩,
    fun s => ?asserted, fun s => ⟨fun hAlert => ?deasserted, fun hClear => ?clear⟩,
    fun s tile => ⟨fun hJoins => ?joins, fun hStays => ?stays⟩, fun s => ?ramp⟩
  case off => rw [exec_railCurrentReport, railCurrentReport_of_off hOff]
  case rail =>
    rw [exec_railCurrentReport, railCurrentReport_of_on hOn]
    refine ⟨_, rfl, rfl, fun e he => State.boostDrop_kept he, ?_⟩
    rw [State.railTaken_same (rail.isLt.trans_eq hLen.symm)]
    exact ⟨rfl, fun i hi => State.railTaken_ne hi, railWindow_bubble_above _ _, railWindow_bubble_below _ _, railWindow_bubble_between _ _⟩
  case input =>
    obtain ⟨hPower, hVin⟩ := fld_inputWord power vin
    rw [exec_inputPowerReport, inputPowerReport_eq]
    generalize inputWord power vin = w at hPower hVin ⊢
    obtain ⟨rings, hCharged, hRings⟩ := ({ s with pwr := s.inputTaken w u meas energy un miss } : State).chargeRings_eq energy
    obtain ⟨keys, dyn, fix, boost, hCap, hOff⟩ :=
      ({ s with pwr := s.inputTaken w u meas energy un miss, qm := { s.qm with rings := rings } } : State).capAndBoosts_eq
    rw [hCharged, hCap]
    refine ⟨_, rfl, hPower, hVin, rfl, rfl, rfl, rfl, hOff, ?_, rfl⟩
    rintro rfl
    rw [hRings rfl]
    exact ⟨rfl, rfl⟩
  case asserted =>
    rw [exec_vrAlertAssert]
    refine ⟨_, rfl, ?_⟩
    rw [vrAlertAssert_pwr]
    exact ⟨rfl, rfl, rfl, vrAlertAssert_of_noEvent⟩
  case deasserted => exact congrArg _ (if_pos hAlert)
  case clear => rw [exec_vrAlertDeassert, vrAlertDeassert_of_clear hClear]
  case joins => rw [exec_parkQueueJoin, parkQueueJoin_of_joins hJoins]
  case stays => rw [exec_parkQueueJoin, parkQueueJoin_of_stays hStays]
  case ramp =>
    rw [exec_rampStep]
    exact ⟨_, rfl, rfl, rfl, fun n => mem_rampStep_parked, rfl⟩

end Sys2Proof.Machine
end

section
/-!
SUPPORT. What a temperature report stores and what its records leave alone, a loss of input that flushes, and the statement about
temperature reports (R415, R416, R418, R501, R504).
-/

namespace Sys2Proof.Machine

/-! ### What a report stores (R415, R416) -/

/-- The THM block with a report's temperatures, maxima and fractions. -/
def Thm.reported (x : Thm) (hub base dram far : List Int) (nand inlet : Int) : Thm :=
  { x with
    hub := hub, base := base, dram := dram, far := padTo 0 8 far, nand := nand, inlet := inlet
    hubMax := List.zipWith max x.hubMax hub, dramMax := List.zipWith max x.dramMax dram
    hubFrac := hub.map (fun t => heatFrac (t - 4 * (thmHubThrot x.ctl : Int)))
    stkFrac := base.map (fun t => heatFrac (t - 4 * (thmHubThrot x.ctl : Int)))
    dramHot := dram.map (fun t => if 420 < t then 224 else heatFrac (t - 4 * (thmStkThrot x.ctl : Int))) }

/-- The state with a report stored and the boosts of throttled clusters ended. -/
def State.heatTaken (s : State) (hub base dram far : List Int) (nand inlet : Int) : State :=
  ({ s with thm := s.thm.reported hub base dram far nand inlet } : State).boostDrop

/-- A cluster that no reason throttles is not throttled by heat. -/
theorem State.hubFrac_of_not_throttled {s : State} {c : Nat} (h : s.throttled c = false) : lget 0 s.thm.hubFrac c = 0 := by
  simp only [State.throttled, Bool.or_eq_false_iff, decide_eq_false_iff_not, not_or, Nat.not_lt, Nat.le_zero] at h
  obtain ⟨⟨-, -, hHeat, -⟩, -⟩ := h
  exact hHeat

/-! ### Flags, records and cycles (R451, R470) -/

/-- What the records of a report leave alone: the THM block but for its flags, and the blocks besides it. -/
def State.besideHeatRecords (s : State) : Module × List (Nat × Coll) × Jrn × Mem × List (Nat × Tile) × Qm × Pwr × Thm :=
  (s.module, s.colls, s.jrn, s.mem, s.tiles, s.qm, s.pwr, { s.thm with status := 0 })

theorem State.thmFlag_besideHeatRecords (s : State) (b : Nat) : (s.thmFlag b).besideHeatRecords = s.besideHeatRecords := by
  unfold State.thmFlag
  dsimp only
  split
  · simp [State.besideHeatRecords]
  · rfl

/-- The flags of a report raised: of reasons 3 and 4 as they become active, and of a critical stack as it first shows. -/
def State.heatFlagged (s : State) (was3 was4 crit : Bool) : State :=
  let s := if s.reasonActive 3 && !was3 then s.thmFlag 0 else s
  let s := if s.reasonActive 4 && !was4 then s.thmFlag 1 else s
  if crit then s.thmFlag 2 else s

theorem State.heatFlagged_besideHeatRecords (s : State) (was3 was4 crit : Bool) :
    (s.heatFlagged was3 was4 crit).besideHeatRecords = s.besideHeatRecords := by
  have hIf (p : Bool) (s : State) (b : Nat) : (if p then s.thmFlag b else s).besideHeatRecords = s.besideHeatRecords := by
    cases p
    · rfl
    · exact s.thmFlag_besideHeatRecords b
  exact (hIf _ _ _).trans ((hIf _ _ _).trans (hIf _ _ _))

theorem State.cycles_besideHeatRecords (s : State) : s.cycles.besideHeatRecords = s.besideHeatRecords := rfl

/-! ### A loss of input (R282, R501, R504) -/

section
variable {s : State}

/-- A loss of input while the rails are on starts the flush. -/
theorem State.powerLoss_flushing (hRails : s.module.rails = true) : s.powerLoss.module.flushing = true := by
  unfold State.powerLoss
  split
  next h => simpa [hRails] using h
  next => rfl

theorem State.thermTripN_of_thermal (h : s.module.latch = .thermal) : s.thermTripN ≠ some true := by
  simp [State.thermTripN, h]

theorem State.pwrGood_of_flushing (h : s.module.flushing = true) : s.pwrGood ≠ some true := by
  simp [State.pwrGood, h]

end

/-- A trip: the event waits for the next start, the module stops as at a loss of input and is latched, and its SPDM sessions end. -/
def State.tripped (s : State) (e : Event) : State :=
  let s := (({ s with mgt := { s.mgt with pendingStart := s.mgt.pendingStart ++ [e] } } : State).life 7 1).powerLoss
  { s with module := { s.module with latch := .thermal, tripped := true }, sec := { s.sec with sessions := [] } }

/-! ### The report -/

/-- The state after a report is stored and its records are made, before a trip. -/
def State.heatReported (s : State) (hub base dram far : List Int) (nand inlet : Int) : State :=
  ((s.heatTaken hub base dram far nand inlet).heatFlagged (s.reasonActive 3) (s.reasonActive 4)
    (dram.any (fun t => decide (420 < t)) && !s.thm.dram.any (fun t => decide (420 < t)))).cycles

section
variable {s : State} {hub base dram far : List Int} {nand inlet : Int}

theorem State.heatReported_besideHeatRecords : (s.heatReported hub base dram far nand inlet).besideHeatRecords =
    (s.heatTaken hub base dram far nand inlet).besideHeatRecords :=
  (State.cycles_besideHeatRecords _).trans (State.heatFlagged_besideHeatRecords _ _ _ _)

theorem thermalReport_of_off (h : ¬ (s.module.rails = true ∧ s.module.flushing = false)) :
    thermalReport hub base dram far nand inlet s = s := by
  refine if_pos ?_
  grind

variable (hRails : s.module.rails = true) (hFlush : s.module.flushing = false)
include hRails hFlush

theorem thermalReport_of_noTrip (h : tripTemp (padTo 0 16 hub) (padTo 0 12 base) (padTo 0 12 dram) = none) :
    thermalReport hub base dram far nand inlet s =
      s.heatReported (padTo 0 16 hub) (padTo 0 12 base) (padTo 0 12 dram) far nand inlet := by
  rw [thermalReport, if_neg (by simp [hRails, hFlush])]
  simp only [h]
  rfl

theorem thermalReport_of_trip {x : Int} (h : tripTemp (padTo 0 16 hub) (padTo 0 12 base) (padTo 0 12 dram) = some x) :
    ∃ e, thermalReport hub base dram far nand inlet s =
      (s.heatReported (padTo 0 16 hub) (padTo 0 12 base) (padTo 0 12 dram) far nand inlet).tripped e := by
  rw [thermalReport, if_neg (by simp [hRails, hFlush])]
  simp only [h]
  exact ⟨_, rfl⟩

end

theorem exec_thermalReport (hub base dram far : List Int) (nand inlet : Int) (s : State) :
    exec (.thermalReport hub base dram far nand inlet) s = .next (thermalReport hub base dram far nand inlet s) := rfl

/-- Settles O55: without a trip the report is stored and only records follow; a trip is a loss of input that latches. -/
theorem thermalReportsThrottleAndTrip : Obligations.ThermalReportsThrottleAndTrip := by
  unfold Obligations.ThermalReportsThrottleAndTrip
  intro s hub base dram far nand inlet h b d on
  refine ⟨fun hOff => ?off, fun hOn hNone => ?stored, fun hOn x hTrip => ?trip⟩
  case off => rw [exec_thermalReport, thermalReport_of_off hOff]
  case stored =>
    obtain ⟨hRails, hFlush⟩ := hOn
    rw [exec_thermalReport, thermalReport_of_noTrip hRails hFlush hNone]
    have hKept := State.heatReported_besideHeatRecords (s := s) (hub := h) (base := b) (dram := d) (far := far) (nand := nand)
      (inlet := inlet)
    generalize s.heatReported h b d far nand inlet = t at hKept
    simp only [State.besideHeatRecords, Prod.mk.injEq] at hKept
    obtain ⟨hModule, hColls, hJrn, hMem, hTiles, hQm, hPwr, hThm⟩ := hKept
    have hField {β : Type} (g : Thm → β) (hg : ∀ x : Thm, g { x with status := 0 } = g x) :
        g t.thm = g (s.thm.reported h b d far nand inlet) := by
      rw [← hg t.thm, hThm]
      exact hg _
    refine ⟨t, rfl, hField Thm.hub (fun _ => rfl), hField Thm.base (fun _ => rfl), hField Thm.dram (fun _ => rfl),
      hField Thm.nand (fun _ => rfl), hField Thm.inlet (fun _ => rfl), hField Thm.hubFrac (fun _ => rfl),
      hField Thm.stkFrac (fun _ => rfl), hField Thm.hubMax (fun _ => rfl), hModule, hColls, hJrn, hMem, hTiles, hQm, ?_, ?_⟩
    · rw [hPwr]
      rfl
    · intro e he
      rw [hPwr] at he
      obtain ⟨hBoost, hFree⟩ := State.boostDrop_kept he
      rw [hField Thm.hubFrac (fun _ => rfl)]
      exact ⟨hBoost, State.hubFrac_of_not_throttled hFree⟩
  case trip =>
    obtain ⟨hRails, hFlush⟩ := hOn
    obtain ⟨e, hTripped⟩ := thermalReport_of_trip (far := far) (nand := nand) (inlet := inlet) hRails hFlush hTrip
    have hPowered : (s.heatReported h b d far nand inlet).module.rails = true :=
      (congrArg (fun v => v.1.rails) State.heatReported_besideHeatRecords).trans hRails
    have hFlushing : ((s.heatReported h b d far nand inlet).tripped e).module.flushing = true := State.powerLoss_flushing hPowered
    rw [exec_thermalReport, hTripped]
    exact ⟨_, rfl, rfl, rfl, hFlushing, State.thermTripN_of_thermal rfl, State.pwrGood_of_flushing hFlushing, rfl⟩

end Sys2Proof.Machine
end

section
/-!
SUPPORT. Primrose's seconds, calendar, tokens and key generation case by case, and the statement about them (R469 to R471, R476, R477).
-/

namespace Sys2Proof.Machine

/-! ### Seconds and the calendar (R469 to R471) -/

section
variable {s : State}

theorem prSecTick_of_noStandby (h : s.module.standby = false) : prSecTick s = s := by simp [prSecTick, h]

/-- A second of standby power is counted among those of powered or of standby life. -/
theorem prSecTick_of_standby (h : s.module.standby = true) : ∃ powered30, prSecTick s = { s with mgt := { s.mgt with
    prSec := (s.mgt.prSec + 1) % 2 ^ 32, powered30 := powered30
    life := lmod s.mgt.life (if s.module.inputValid then 0 else 1) (· + 1) } } := by
  rw [prSecTick, if_neg (by simp [h])]
  exact ⟨_, rfl⟩

theorem prSecStore_of_due (h : s.module.standby = true) (hDue : s.mgt.prStored + 60 ≤ s.mgt.prSec) :
    prSecStore s = { s with mgt := { s.mgt with prStored := s.mgt.prSec } } := if_pos ⟨h, hDue⟩

theorem prSecStore_of_not_due (h : ¬ (s.module.standby = true ∧ s.mgt.prStored + 60 ≤ s.mgt.prSec)) : prSecStore s = s := if_neg h

theorem calendarRecompute_of_hour (h : s.module.standby = true) (hHour : s.mgt.prSec % 3600 = 0) :
    calendarRecompute s = { s with mgt := { s.mgt with cal := s.calendar } } := if_pos ⟨h, hHour⟩

theorem calendarRecompute_of_not_hour (h : ¬ (s.module.standby = true ∧ s.mgt.prSec % 3600 = 0)) : calendarRecompute s = s := if_neg h

/-! ### Tokens and keys (R476, R477) -/

theorem signTokenRefill_of_due (h : s.module.standby = true) (hDue : s.sec.tokenSec + 8 ≤ s.mgt.prSec) : signTokenRefill s =
    { s with sec := { s.sec with tokens := min 1024 (s.sec.tokens + 1), tokenSec := s.sec.tokenSec + 8 } } := by
  simp [signTokenRefill, h, hDue]

theorem signTokenRefill_of_not_due (h : ¬ (s.module.standby = true ∧ s.sec.tokenSec + 8 ≤ s.mgt.prSec)) : signTokenRefill s = s :=
  if_neg (by simpa using h)

theorem aakGenerationDone_of_busy (h : s.primrose = true) (hBusy : s.sec.aakBusy = true) : aakGenerationDone s =
    { s with sec := s.sec.noted { s.sec with
        aakBusy := false, aakNext := 0, aakGen := min (s.sec.aakGen + 1) 65535, dikNext := s.sec.dikNext + 1 } } := by
  rw [aakGenerationDone, if_pos (by simp [h, hBusy])]
  rfl

theorem aakGenerationDone_of_idle (h : s.primrose = false ∨ s.sec.aakBusy = false) : aakGenerationDone s = s :=
  if_neg (by rcases h with h | h <;> simp [h])

end

/-! ### The steps -/

section
variable (s : State)

theorem exec_prSecTick : exec .prSecTick s = .next (prSecTick s) := rfl
theorem exec_prSecStore : exec .prSecStore s = .next (prSecStore s) := rfl
theorem exec_calendarRecompute : exec .calendarRecompute s = .next (calendarRecompute s) := rfl
theorem exec_signTokenRefill : exec .signTokenRefill s = .next (signTokenRefill s) := rfl
theorem exec_aakGenerationDone : exec .aakGenerationDone s = .next (aakGenerationDone s) := rfl

end

/-- Settles O56: each count where it is due and not before, and nothing without standby power. -/
theorem standbyClockCounts : Obligations.StandbyClockCounts := by
  unfold Obligations.StandbyClockCounts
  intro s
  rw [exec_prSecTick, exec_prSecStore, exec_calendarRecompute, exec_signTokenRefill, exec_aakGenerationDone]
  refine ⟨fun h => ?unpowered, fun h => ⟨?tick, fun hDue => ?stored, fun hEarly => ?kept, fun hHour => ?hour, fun hNot => ?between,
    fun hDue => ?refilled, fun hEarly => ?waits⟩, fun h hBusy => ?key, fun h => ?noKey⟩
  case unpowered =>
    have hOff {p : Prop} : ¬ (s.module.standby = true ∧ p) := fun hOn => Bool.false_ne_true (h.symm.trans hOn.1)
    rw [prSecTick_of_noStandby h, prSecStore_of_not_due hOff, calendarRecompute_of_not_hour hOff, signTokenRefill_of_not_due hOff]
    exact ⟨rfl, rfl, rfl, rfl⟩
  case tick =>
    obtain ⟨powered30, hTick⟩ := prSecTick_of_standby h
    rw [hTick]
    exact ⟨_, rfl, rfl, rfl, rfl⟩
  case stored => rw [prSecStore_of_due h hDue]
  case kept => rw [prSecStore_of_not_due (fun hDue => absurd hDue.2 (Nat.not_le.mpr hEarly))]
  case hour => rw [calendarRecompute_of_hour h hHour]
  case between => rw [calendarRecompute_of_not_hour (fun hHour => hNot hHour.2)]
  case refilled => rw [signTokenRefill_of_due h hDue]
  case waits => rw [signTokenRefill_of_not_due (fun hDue => absurd hDue.2 (Nat.not_le.mpr hEarly))]
  case key => rw [aakGenerationDone_of_busy h hBusy]
  case noKey => rw [aakGenerationDone_of_idle h]

end Sys2Proof.Machine
end

section
/-!
SUPPORT. PLDM requests, sideband addresses, the fields of SEC_IDE_STATUS, the requests that an IDE failure holds, and the statement
about them (R428, R486 to R490).
-/

namespace Sys2Proof.Machine

/-! ### PLDM and the addresses (R428, R488, R490) -/

/-- The nearest end of a range. -/
theorem clampN_eq {lo hi : Nat} (h : lo ≤ hi) (v : Nat) : clampN lo hi v = if v < lo then lo else if hi < v then hi else v := by
  unfold clampN
  grind

/-- PWR_CAP with a new LIMIT_W, within the bits of its field, and its GUARD_W. -/
theorem cap_fields_setLimit (cap : Word32) (w : Nat) :
    capLimit (setFld cap 0 12 (clampN 600 1500 w)) = clampN 600 1500 w ∧
    capGuard (setFld cap 0 12 (clampN 600 1500 w)) = capGuard cap := by
  refine ⟨(fld_setFld_same _ _ _ _ (by decide)).trans (Nat.mod_eq_of_lt ?_), fld_setFld_of_disjoint _ _ _ _ (by decide) (by decide)⟩
  rw [clampN_eq (by decide)]
  grind

section
variable {s : State} {i3c : Bool}

theorem setEndpointId_of_ignored {eid : Nat} (h : s.reaches (1 + bit i3c) = false ∨ eid = 0 ∨ eid = 0xFF) : setEndpointId i3c eid s = s :=
  if_pos (h.imp_left (by simp [·]))

theorem setEndpointId_of_taken {eid : Nat} (hReaches : s.reaches (1 + bit i3c) = true) (hNull : eid ≠ 0) (hAll : eid ≠ 0xFF) :
    setEndpointId i3c eid s = { s with module := { s.module with
      eidI3c := if i3c then eid else s.module.eidI3c, eidSmbus := if i3c then s.module.eidSmbus else eid } } := by
  cases i3c <;> simp [setEndpointId, hReaches, hNull, hAll]

theorem i3cDynamicAddress_of_primrose (a : Nat) (h : s.primrose = true) :
    i3cDynamicAddress a s = { s with module := { s.module with i3cAddr := some a } } := if_pos h

theorem i3cDynamicAddress_of_noPrimrose (a : Nat) (h : s.primrose = false) : i3cDynamicAddress a s = s := by
  simp [i3cDynamicAddress, h]

end

/-! ### SEC_IDE_STATUS (R486, R487) -/

section
variable (r : Word32) {i : Nat} (v : Nat)

theorem ideState_setFld_same (hi : i < 3) : ideState (setFld r (2 + 2 * i) 2 v) i = v % 4 :=
  fld_setFld_same _ _ _ _ (by omega)

theorem ideState_setFld_ne {k : Nat} (hk : k < 3) (h : k ≠ i) : ideState (setFld r (2 + 2 * i) 2 v) k = ideState r k :=
  fld_setFld_of_disjoint _ _ _ _ (by omega) (by omega)

/-- The mode of the CXL.cache and CXL.mem stream stands above the states of the streams. -/
theorem ideState_setFld_mode {k : Nat} (hk : k < 3) : ideState (setFld r 8 2 v) k = ideState r k :=
  fld_setFld_of_disjoint _ _ _ _ (by omega) (by omega)

theorem ideMode_setFld_state (hi : i < 3) : fld (setFld r (2 + 2 * i) 2 v) 8 2 = fld r 8 2 :=
  fld_setFld_of_disjoint _ _ _ _ (by decide) (by omega)

end

/-- SEC_IDE_STATUS with stream i secure, and with the mode that its keys choose for the CXL.cache and CXL.mem stream. -/
def ideKeyed (r : Word32) (i : Nat) (skid : Bool) : Word32 :=
  if i = 2 then setFld (setFld r (2 + 2 * i) 2 1) 8 2 (if skid then 2 else 1) else setFld r (2 + 2 * i) 2 1

section
variable (r : Word32) {i : Nat} (skid : Bool)

theorem ideKeyed_same (hi : i < 3) : ideState (ideKeyed r i skid) i = 1 := by
  unfold ideKeyed
  split
  · rw [ideState_setFld_mode _ _ hi, ideState_setFld_same _ _ hi]
  · rw [ideState_setFld_same _ _ hi]

theorem ideKeyed_ne {k : Nat} (hk : k < 3) (h : k ≠ i) : ideState (ideKeyed r i skid) k = ideState r k := by
  unfold ideKeyed
  split
  · rw [ideState_setFld_mode _ _ hk, ideState_setFld_ne _ _ hk h]
  · rw [ideState_setFld_ne _ _ hk h]

theorem ideKeyed_mode (h : i = 2) : fld (ideKeyed r i skid) 8 2 = if skid then 2 else 1 := by
  rw [ideKeyed, if_pos h, fld_setFld_same _ _ _ _ (by decide)]
  cases skid <;> rfl

/-- After a stream's keys no stream is insecure just where no other one was. -/
theorem ideKeyed_quiet (hi : i < 3) : (List.range 3).all (fun k => ideState (ideKeyed r i skid) k != 2) = true ↔
    ∀ k < 3, k ≠ i → ideState r k ≠ 2 := by
  simp only [List.all_eq_true, List.mem_range, bne_iff_ne]
  refine ⟨fun h k hk hne => ideKeyed_ne r skid hk hne ▸ h k hk, fun h k hk => ?_⟩
  by_cases hne : k = i
  · rw [hne, ideKeyed_same r skid hi]
    decide
  · rw [ideKeyed_ne r skid hk hne]
    exact h k hk hne

end

/-! ### Requests held and released (R487) -/

/-- A held request goes out. -/
def State.sendHeld (s : State) : HeldReq → State
  | .write a bs => s.hostWrite a bs
  | .msg v => { s with hif := { s.hif with msgs := s.hif.msgs ++ [v] } }

theorem State.releaseHeld_eq (s : State) : s.releaseHeld =
    s.sec.held.foldl State.sendHeld { s with sec := { s.sec with ideHold := false, held := [] } } := by
  refine congrArg (fun f => s.sec.held.foldl f _) (funext fun s => funext fun r => ?_)
  cases r <;> rfl

/-- While requests are not held, one that goes out leaves the SEC block alone. -/
theorem State.sendHeld_sec {s : State} (h : s.sec.ideHold = false) (r : HeldReq) : (s.sendHeld r).sec = s.sec := by
  cases r with
  | write a bs => simp [State.sendHeld, State.hostWrite, h]
  | msg v => rfl

/-- The requests that were held go out, and none is held again. -/
theorem State.releaseHeld_sec (s : State) : s.releaseHeld.sec = { s.sec with ideHold := false, held := [] } := by
  have hGo (l : List HeldReq) (s : State) (h : s.sec.ideHold = false) : (l.foldl State.sendHeld s).sec = s.sec := by
    induction l generalizing s with
    | nil => rfl
    | cons r l ih => rw [List.foldl_cons, ih _ (by rw [State.sendHeld_sec h, h]), State.sendHeld_sec h]
  rw [State.releaseHeld_eq]
  exact hGo _ _ rfl

/-! ### Keys and failures of a stream (R73, R486, R487) -/

/-- The state with a stream's keys programmed, before any held request goes out. -/
def State.ideKeys (s : State) (i : Nat) (skid : Bool) : State :=
  { s with sec := { s.sec with ide := ideKeyed s.sec.ide i skid, ideSet := lmod s.sec.ideSet i (1 - ·) } }

section
variable {s : State} {n i : Nat} {skid : Bool}

theorem ideKeyProgram_of_noSession (h : ¬ (s.reaches 0 = true ∧ s.session? 0 n true = true)) : ideKeyProgram n i skid s = s :=
  if_pos (by grind)

variable (hReaches : s.reaches 0 = true) (hSession : s.session? 0 n true = true) (hi : i < 3)
include hReaches hSession hi

theorem ideKeyProgram_of_held (hHold : s.sec.ideHold = true) (hQuiet : ∀ k < 3, k ≠ i → ideState s.sec.ide k ≠ 2) :
    ideKeyProgram n i skid s = (s.ideKeys i skid).releaseHeld := by
  rw [ideKeyProgram, if_neg (by simp [hReaches, hSession])]
  refine if_pos ?_
  rw [Bool.and_eq_true]
  exact ⟨hHold, (ideKeyed_quiet _ _ hi).mpr hQuiet⟩

theorem ideKeyProgram_of_quiet (h : s.sec.ideHold = false ∨ ¬ ∀ k < 3, k ≠ i → ideState s.sec.ide k ≠ 2) :
    ideKeyProgram n i skid s = s.ideKeys i skid := by
  rw [ideKeyProgram, if_neg (by simp [hReaches, hSession])]
  refine if_neg ?_
  rw [Bool.and_eq_true]
  rintro ⟨hHold, hAll⟩
  exact h.elim (fun hNot => Bool.false_ne_true (hNot.symm.trans hHold)) (fun hNot => hNot ((ideKeyed_quiet _ _ hi).mp hAll))

/-- Released or not, SEC_IDE_STATUS and the key sets are those of the keys. -/
theorem ideKeyProgram_sec : (ideKeyProgram n i skid s).sec.ide = ideKeyed s.sec.ide i skid ∧
    (ideKeyProgram n i skid s).sec.ideSet = lmod s.sec.ideSet i (1 - ·) := by
  by_cases h : s.sec.ideHold = true ∧ ∀ k < 3, k ≠ i → ideState s.sec.ide k ≠ 2
  · obtain ⟨hHold, hQuiet⟩ := h
    rw [ideKeyProgram_of_held hReaches hSession hi hHold hQuiet, State.releaseHeld_sec]
    exact ⟨rfl, rfl⟩
  · rw [not_and_or, Bool.not_eq_true] at h
    rw [ideKeyProgram_of_quiet hReaches hSession hi h]
    exact ⟨rfl, rfl⟩

end

/-- A record leaves the SEC block alone but for a message that is held. -/
theorem State.event_sec_held (s : State) (code sev kind unit d0 d1 : Nat) :
    { (s.event code sev kind unit d0 d1).sec with held := [] } = { s.sec with held := [] } := by
  unfold State.event State.msixSend
  dsimp only
  repeat' split
  all_goals rfl

theorem State.event_viral (s : State) (code sev kind unit d0 d1 : Nat) : (s.event code sev kind unit d0 d1).hif.viral = s.hif.viral := by
  unfold State.event State.msixSend
  dsimp only
  repeat' split
  all_goals rfl

section
variable {s : State}

theorem State.enterViral_sec_held : { s.enterViral.sec with held := [] } = { s.sec with held := [] } := by
  unfold State.enterViral
  split
  · rfl
  · exact State.event_sec_held _ _ _ _ _ _ _

theorem State.enterViral_viral (h : s.module.rails = true) : s.enterViral.hif.viral = true := by
  unfold State.enterViral
  split
  next hStays => simpa [h] using hStays
  next => exact State.event_viral _ _ _ _ _ _ _

end

/-- The state with a stream's failure logged, its requests held and its record made. -/
def State.ideFailed (s : State) (i : Nat) (aer : Word32) : State :=
  ({ s with hif := { s.hif with aer := s.hif.aer ++ [aer.toNat] },
            sec := { s.sec with ide := setFld s.sec.ide (2 + 2 * i) 2 2, ideHold := true } } : State).event 0x0004 3 11 0 aer.toNat 0

section
variable {s : State} {i : Nat} {aer : Word32}

theorem ideIntegrityFailure_of_ignored (h : ¬ (ideState s.sec.ide i = 1 ∧ s.module.rails = true)) : ideIntegrityFailure i aer s = s :=
  if_pos (by grind)

theorem State.ideFailed_sec : (s.ideFailed i aer).sec.ide = setFld s.sec.ide (2 + 2 * i) 2 2 ∧ (s.ideFailed i aer).sec.ideHold = true := by
  have hSec := State.event_sec_held
    { s with hif := { s.hif with aer := s.hif.aer ++ [aer.toNat] },
             sec := { s.sec with ide := setFld s.sec.ide (2 + 2 * i) 2 2, ideHold := true } } 0x0004 3 11 0 aer.toNat 0
  exact ⟨congrArg Sec.ide hSec, congrArg Sec.ideHold hSec⟩

variable (hSecure : ideState s.sec.ide i = 1) (hRails : s.module.rails = true) (hi : i < 3)
include hSecure hRails hi

/-- A failure of the CXL.cache and CXL.mem stream in skid mode is viral too. -/
theorem ideIntegrityFailure_of_secure : ideIntegrityFailure i aer s =
    if i = 2 ∧ fld s.sec.ide 8 2 = 2 then (s.ideFailed i aer).enterViral else s.ideFailed i aer := by
  have hMode : fld (s.ideFailed i aer).sec.ide 8 2 = fld s.sec.ide 8 2 := by
    rw [State.ideFailed_sec.1, ideMode_setFld_state _ _ hi]
  rw [← hMode, ideIntegrityFailure, if_neg (by simp [hSecure, hRails])]
  rfl

/-- Viral or not, the stream is insecure and requests are held. -/
theorem ideIntegrityFailure_sec : (ideIntegrityFailure i aer s).sec.ide = setFld s.sec.ide (2 + 2 * i) 2 2 ∧
    (ideIntegrityFailure i aer s).sec.ideHold = true := by
  obtain ⟨hIde, hHold⟩ := State.ideFailed_sec (s := s) (i := i) (aer := aer)
  rw [ideIntegrityFailure_of_secure hSecure hRails hi]
  split
  · have hSec := State.enterViral_sec_held (s := s.ideFailed i aer)
    exact ⟨(congrArg Sec.ide hSec).trans hIde, (congrArg Sec.ideHold hSec).trans hHold⟩
  · exact ⟨hIde, hHold⟩

end

/-! ### The steps -/

section
variable (s : State) (i3c : Bool)

theorem exec_pldmSetEffecter (w : Nat) : exec (.pldmSetEffecter i3c w) s = .next (pldmSetEffecter i3c w s) := rfl
theorem exec_setEndpointId (eid : BitVec 8) : exec (.setEndpointId i3c eid) s = .next (setEndpointId i3c eid.toNat s) := rfl
theorem exec_i3cDynamicAddress (a : BitVec 7) : exec (.i3cDynamicAddress a) s = .next (i3cDynamicAddress a.toNat s) := rfl
theorem exec_ideIntegrityFailure (stream : Fin 3) (aer : Word32) :
    exec (.ideIntegrityFailure stream aer) s = .next (ideIntegrityFailure stream.val aer s) := rfl
theorem exec_ideKeyProgram (n : Nat) (stream : Fin 3) (skid : Bool) :
    exec (.ideKeyProgram n stream skid) s = .next (ideKeyProgram n stream.val skid s) := rfl

end

/-- Settles O59: each request where its binding reaches Primrose, and the failure and the keys of a stream case by case. -/
theorem sidebandAndIde : Obligations.SidebandAndIde := by
  unfold Obligations.SidebandAndIde
  refine ⟨fun s i3c => ?sideband, fun s stream aer => ?failure, fun s n stream skid => ?keys⟩
  case sideband =>
    intro ok
    have hAway (h : ¬ ok) (f : State → State) : s.pldm i3c f = s := State.pldm_of_not_reaches f (Bool.eq_false_of_not_eq_true h)
    have hTaken (h : ok) (f : State → State) : s.pldm i3c f = f s := State.pldm_of_reaches f h
    refine ⟨fun n => ⟨fun h => congrArg _ (hAway h _), fun h => congrArg _ (hTaken h _)⟩,
      fun w => ⟨fun h => congrArg _ (hAway h _), fun h => ?effecter⟩,
      fun h => congrArg _ (hAway h _), fun h => congrArg _ (hTaken h _),
      fun eid => ⟨fun h => ?ignored, fun h hNull hAll => ?taken⟩, fun a => ⟨fun h => ?address, fun h => ?noAddress⟩⟩
    case effecter =>
      obtain ⟨hLimit, hGuard⟩ := cap_fields_setLimit s.pwr.cap w
      rw [exec_pldmSetEffecter, pldmSetEffecter, hTaken h]
      exact ⟨_, rfl, rfl, hLimit.trans (clampN_eq (by decide) w), hGuard, rfl⟩
    case ignored => rw [exec_setEndpointId, setEndpointId_of_ignored (h.imp_left Bool.eq_false_of_not_eq_true)]
    case taken => rw [exec_setEndpointId, setEndpointId_of_taken h hNull hAll]
    case address => rw [exec_i3cDynamicAddress, i3cDynamicAddress_of_primrose _ h]
    case noAddress => rw [exec_i3cDynamicAddress, i3cDynamicAddress_of_noPrimrose _ h]
  case failure =>
    intro may s1
    rw [exec_ideIntegrityFailure]
    refine ⟨fun h => by rw [ideIntegrityFailure_of_ignored h], fun ⟨hSecure, hRails⟩ => ⟨_, rfl, ?_⟩⟩
    obtain ⟨hIde, hHold⟩ := ideIntegrityFailure_sec (aer := aer) hSecure hRails stream.isLt
    rw [hIde]
    refine ⟨hHold, ideState_setFld_same _ _ stream.isLt, fun k hk hne => ideState_setFld_ne _ _ hk hne, fun h => ?_, fun hStream hSkid => ?_⟩
    · rw [ideIntegrityFailure_of_secure hSecure hRails stream.isLt, if_neg (not_and_or.mpr h)]
      rfl
    · rw [ideIntegrityFailure_of_secure hSecure hRails stream.isLt, if_pos ⟨hStream, hSkid⟩]
      exact State.enterViral_viral ((State.event_module _ _ _ _ _ _ _).symm ▸ hRails)
  case keys =>
    intro may quiet
    rw [exec_ideKeyProgram]
    refine ⟨fun h => by rw [ideKeyProgram_of_noSession h], fun ⟨hReaches, hSession⟩ => ⟨_, rfl, ?_⟩⟩
    obtain ⟨hIde, hSet⟩ := ideKeyProgram_sec (skid := skid) hReaches hSession stream.isLt
    rw [hIde, hSet]
    refine ⟨ideKeyed_same _ _ stream.isLt, ideKeyed_mode _ _, fun hHold hQuiet => ?_, fun h => lget_lmod_same 0 _ h,
      fun k hk => lget_lmod_ne 0 _ _ hk, fun h => ?_⟩
    · rw [ideKeyProgram_of_held hReaches hSession stream.isLt hHold hQuiet, State.releaseHeld_sec]
      exact ⟨rfl, rfl⟩
    · rw [ideKeyProgram_of_quiet hReaches hSession stream.isLt h]
      rfl

end Sys2Proof.Machine
end

section
/-!
SUPPORT. What GO makes of a transfer, its next chunk case by case, and the statement about transfers (R440 to R444).
-/

namespace Sys2Proof.Machine

/-! ### A transfer that starts (R441 to R444) -/

/-- A transfer at GO, before its operation is looked at. -/
def Xfer.started (x : Xfer) (v : Word32) : Xfer :=
  { x with
    ctl := v &&& 0x3FF003FF, host := 0, dev := 0, total := 0, err := 0, state := 0, image := [], abort := false, last := 0
    op := fld v 28 2, base := x.addr.toNat, half := 2 ^ (19 + min 10 (fld v 20 4)), owner := fld v 24 4 }

/-- A transfer after GO: one that reads the device begins or fails, one that fills it waits for its first chunk. -/
def State.xferGo (s : State) (x : Xfer) : Xfer :=
  match x.op with
  | 1 => s.exportSnap x
  | 2 => { x with state := 1 }
  | 3 => s.exportFrames x
  | _ => x

/-- The fields that the operation leaves as GO set them. -/
def Xfer.setup (x : Xfer) : Word32 × Nat × Nat × Nat × Bool × Nat × Nat × Nat :=
  (x.ctl, x.op, x.dev, x.host, x.abort, x.base, x.half, x.owner)

section
variable {x : Xfer}

theorem Xfer.fail_setup (e : Nat) (h : x.abort = false) : (x.fail e).setup = x.setup := by simp [Xfer.fail, Xfer.setup, h]

theorem Xfer.begins_setup (bs : List Byte) (last : Nat) : (x.begins bs last).setup = x.setup := rfl

end

/-! ### Exports (R442, R443) -/

section
variable {s : State} (x : Xfer)

theorem State.exportSnap_of_collection {k : Nat} {z : Snapshot} (h : s.jrn.snaps.find? (fun a => a.1 == s.jrn.snapSel) = some (k, z))
    (hColl : z.session = false) : s.exportSnap x =
      x.begins (xferImage 1 z.object z.label z.epoch z.image.hseq z.image.hseq z.image.g (Config.snapBody z.image)) 0 := by
  simp [State.exportSnap, h, hColl]

theorem State.exportSnap_of_session {k : Nat} {z : Snapshot} (h : s.jrn.snaps.find? (fun a => a.1 == s.jrn.snapSel) = some (k, z))
    (hSession : z.session = true) : s.exportSnap x = x.fail 2 := by
  simp [State.exportSnap, h, hSession]

theorem State.exportSnap_of_none (h : s.jrn.snaps.find? (fun a => a.1 == s.jrn.snapSel) = none) : s.exportSnap x = x.fail 2 := by
  simp [State.exportSnap, h]

end

/-- The last HOST_SEQ of the frames exported: STOP, or that of the collection (R442). -/
def State.exportUntil (s : State) (x : Xfer) : Nat := if x.stop = 0 then (s.coll (fld x.ctl 0 10)).hseq else x.stop.toNat

section
variable {s : State} {x : Xfer} {o : Nat} (hObject : fld x.ctl 0 10 = o)
include hObject

theorem State.exportFrames_of_away (h : ¬ ((s.coll o).state = .ready ∨ (s.coll o).state = .exclusive)) : s.exportFrames x = x.fail 3 := by
  subst hObject
  exact if_pos (not_or.mp h)

variable (hServes : (s.coll o).state = .ready ∨ (s.coll o).state = .exclusive)
include hServes

theorem State.exportFrames_of_lost (h : ¬ ((tget {} s.jrn.images o : Image).markHseq ≤ x.start.toNat ∨ s.jrn.retain = true) ∨
    s.exportUntil x ≤ x.start.toNat ∨ (s.coll o).hseq < s.exportUntil x) : s.exportFrames x = x.fail 4 := by
  subst hObject
  refine (if_neg (fun hAway => (not_or.mpr hAway) hServes)).trans (if_pos (h.imp_left fun hLost => ?_))
  simpa using hLost

theorem State.exportFrames_of_kept (hKept : (tget {} s.jrn.images o : Image).markHseq ≤ x.start.toNat ∨ s.jrn.retain = true)
    (hStart : x.start.toNat < s.exportUntil x) (hEnd : s.exportUntil x ≤ (s.coll o).hseq) : ∃ bs last, s.exportFrames x = x.begins bs last := by
  subst hObject
  refine ⟨_, _, (if_neg (fun hAway => (not_or.mpr hAway) hServes)).trans (if_neg ?_)⟩
  rintro (⟨hMark, hRetain⟩ | hRange | hRange)
  · rcases hKept with hKept | hKept
    · exact absurd hMark (Nat.not_lt.mpr hKept)
    · simp [hKept] at hRetain
  · exact absurd hStart (Nat.not_lt.mpr hRange)
  · exact absurd hRange (Nat.not_lt.mpr hEnd)

end

/-! ### The fields that GO sets (R441) -/

section
variable (s : State) {x : Xfer} (h : x.abort = false)
include h

theorem State.exportSnap_setup : (s.exportSnap x).setup = x.setup := by
  unfold State.exportSnap
  repeat' split
  · exact Xfer.fail_setup 2 h
  · exact Xfer.begins_setup _ _
  · exact Xfer.fail_setup 2 h

theorem State.exportFrames_setup : (s.exportFrames x).setup = x.setup := by
  by_cases hServes : (s.coll (fld x.ctl 0 10)).state = .ready ∨ (s.coll (fld x.ctl 0 10)).state = .exclusive
  · by_cases hLost : ¬ ((tget {} s.jrn.images (fld x.ctl 0 10) : Image).markHseq ≤ x.start.toNat ∨ s.jrn.retain = true) ∨
        s.exportUntil x ≤ x.start.toNat ∨ (s.coll (fld x.ctl 0 10)).hseq < s.exportUntil x
    · rw [State.exportFrames_of_lost rfl hServes hLost, Xfer.fail_setup 4 h]
    · rw [not_or, not_not, not_or, Nat.not_le, Nat.not_lt] at hLost
      obtain ⟨hKept, hStart, hEnd⟩ := hLost
      obtain ⟨bs, last, hBegins⟩ := State.exportFrames_of_kept rfl hServes hKept hStart hEnd
      rw [hBegins, Xfer.begins_setup]
  · rw [State.exportFrames_of_away rfl hServes, Xfer.fail_setup 3 h]

theorem State.xferGo_setup : (s.xferGo x).setup = x.setup := by
  unfold State.xferGo
  split
  · exact s.exportSnap_setup h
  · rfl
  · exact s.exportFrames_setup h
  · rfl

end

/-! ### A write of JRN_XFER_CTL -/

section
variable {s : State} {v : Word32}

theorem xferCtl_of_reset (h : s.hif.inReset ≠ none) : xferCtl v s = s := if_pos (Option.isSome_iff_ne_none.mpr h)

variable (hReset : s.hif.inReset = none)
include hReset

theorem xferCtl_of_running (hGo : flag v 31 = true) (h : s.jrn.xfer.state = 1) :
    xferCtl v s = { s with jrn := { s.jrn with xfer := { s.jrn.xfer with err := 1 } } } := by
  rw [xferCtl, if_neg (by simp [hReset]), if_pos ⟨hGo, h⟩]

theorem xferCtl_of_noGo (hGo : flag v 31 = false) : xferCtl v s = { s with jrn := { s.jrn with xfer := { s.jrn.xfer with
    ctl := v &&& 0x3FF003FF, abort := s.jrn.xfer.abort || (flag v 30 && s.jrn.xfer.state == 1) } } } := by
  rw [xferCtl, if_neg (by simp [hReset]), if_neg (by simp [hGo])]
  exact if_pos (by simp [hGo])

theorem xferCtl_of_go (hGo : flag v 31 = true) (h : s.jrn.xfer.state ≠ 1) : ∃ lp, xferCtl v s = { s with jrn := { s.jrn with
    xfer := s.xferGo (s.jrn.xfer.started v), lastUse := s.hif.timer, lp := lp } } := by
  rw [xferCtl, if_neg (by simp [hReset]), if_neg (by simp [h])]
  exact ⟨_, if_neg (by simp [hGo])⟩

end

/-- GO and ABORT are no part of the stored fields, which name the object in the low bits. -/
theorem fld_xferCtl_object (v : Word32) : fld (v &&& 0x3FF003FF) 0 10 = fld v 0 10 := by
  have hMask : ∀ i < 10, flag (0x3FF003FF : Word32) i = true := by decide
  refine fld_congr fun i _ hi => ?_
  have hBit := hMask i (by omega)
  rw [flag] at hBit
  rw [flag, flag, BitVec.getLsbD_and, hBit, Bool.and_true]

/-! ### The next chunk (R444) -/

/-- The state with the transfer stored and the store used now. -/
def State.putXfer (s : State) (x : Xfer) : State := { s with jrn := { s.jrn with xfer := x, lastUse := s.hif.timer } }

section
variable {s : State}

theorem xferDeviceChunk_of_idle (h : s.jrn.xfer.state ≠ 1) : xferDeviceChunk s = s := if_pos h

variable (hRuns : s.jrn.xfer.state = 1)
include hRuns

theorem xferDeviceChunk_of_abort (h : s.jrn.xfer.abort = true) :
    xferDeviceChunk s = { s with jrn := { s.jrn with xfer := s.jrn.xfer.fail 8 } } :=
  (if_neg (not_not_intro hRuns)).trans (if_pos h)

variable (hAbort : s.jrn.xfer.abort = false) (hActive : s.jrn.lp = 0)
include hAbort hActive

theorem xferDeviceChunk_of_export (h : s.jrn.xfer.op ≠ 2) : xferDeviceChunk s = s.exportChunk s.jrn.xfer := by
  simp [xferDeviceChunk, hRuns, hAbort, hActive, h]

theorem xferDeviceChunk_of_import (h : s.jrn.xfer.op = 2) : xferDeviceChunk s = s.importChunk s.jrn.xfer := by
  simp [xferDeviceChunk, hRuns, hAbort, hActive, h]

end

/-- A transfer with its next chunk written; the last one completes it. -/
def Xfer.chunkDone (x : Xfer) : Xfer :=
  if x.dev + 1 = x.total then { x with dev := x.dev + 1, state := 2, image := [] } else { x with dev := x.dev + 1 }

theorem Xfer.chunkDone_dev (x : Xfer) : x.chunkDone.dev = x.dev + 1 := by
  unfold Xfer.chunkDone
  split <;> rfl

theorem Xfer.chunkDone_state (x : Xfer) : x.chunkDone.state = if x.dev + 1 = x.total then 2 else x.state := by
  unfold Xfer.chunkDone
  split <;> rfl

section
variable {s : State} {x : Xfer} {a : Nat} {bs : List Byte}

theorem State.exportChunk_of_wait (h : ¬ (x.dev < x.host + 2 ∧ x.last ≤ s.jrn.h)) : s.exportChunk x = s := if_pos (by omega)

variable (hAddr : a = x.base + (x.dev % 2) * x.half) (hBytes : bs = (x.image.drop (x.dev * x.half)).take x.half)
  (hMay : x.dev < x.host + 2 ∧ x.last ≤ s.jrn.h)
include hAddr hBytes hMay

theorem State.exportChunk_of_unreachable (h : s.hostOk a bs.length = false) : s.exportChunk x = s.putXfer (x.fail 7) := by
  subst hAddr hBytes
  exact (if_neg (by omega)).trans (if_pos (by rw [h]; rfl))

theorem State.exportChunk_of_reachable (h : s.hostOk a bs.length = true) : s.exportChunk x = (s.hostWrite a bs).putXfer x.chunkDone := by
  subst hAddr hBytes
  exact (if_neg (by omega)).trans (if_neg (by rw [h]; decide))

end

theorem State.hostWrite_hostMem {s : State} (h : s.sec.ideHold = false) (a : Nat) (bs : List Byte) :
    (s.hostWrite a bs).hostMem = memWrite s.hostMem a bs := by
  simp [State.hostWrite, h]

/-! ### Chunks that come in (R443, R444) -/

/-- What is longer than one piece takes more than one. -/
theorem one_lt_cdiv {n m : Nat} (hm : 0 < m) (h : m < n) : 1 < cdiv n m := by
  have hOne : 1 ≤ n / m := Nat.div_pos h.le hm
  have hSplit := Nat.div_add_mod n m
  unfold cdiv
  split
  next hRest =>
    by_contra hNot
    have hEq : n / m = 1 := by omega
    rw [hEq, hRest] at hSplit
    omega
  next => omega

/-- The header of a snapshot image (Table 15.3). -/
def snapshotHead (head : List Byte) : Prop :=
  getLE head 0 4 = 0x53575831 ∧ getLE head 4 1 = 1 ∧ getLE head 6 2 < 1024 ∧ 320 ≤ getLE head 8 8

theorem snapshotHead.not_rejected {head : List Byte} (h : snapshotHead head) :
    ¬ (getLE head 0 4 ≠ 0x53575831 ∨ getLE head 4 1 ≠ 1 ∨ getLE head 8 8 < 320 ∨ 1024 ≤ getLE head 6 2) := by
  obtain ⟨hMagic, hKind, hObject, hTotal⟩ := h
  rintro (h | h | h | h)
  · exact h hMagic
  · exact h hKind
  · exact absurd hTotal (Nat.not_le.mpr h)
  · exact absurd hObject (Nat.not_lt.mpr h)

section
variable {s : State} {x : Xfer} {a : Nat}

theorem State.importChunk_of_wait (h : x.host ≤ x.dev) : s.importChunk x = s := if_pos h

variable (hAddr : a = x.base + (x.dev % 2) * x.half) (hFirst : x.dev = 0) (hHost : 0 < x.host)
include hAddr hFirst hHost

theorem State.importChunk_of_unreachable (h : s.hostOk a 256 = false) : s.importChunk x = s.putXfer (x.fail 7) := by
  subst hAddr
  refine (if_neg (by omega)).trans (if_pos ?_)
  rw [if_pos hFirst, h]
  rfl

variable (hHead : s.hostOk a 256 = true)
include hHead

theorem State.importChunk_of_badMagic (h : getLE (s.hostRead a 256) 0 4 ≠ 0x53575831) : s.importChunk x = s.putXfer (x.fail 5) := by
  subst hAddr
  refine (if_neg (by omega)).trans ((if_neg ?_).trans (if_pos ⟨hFirst, .inl ?_⟩))
  · rw [if_pos hFirst, hHead]
    decide
  · rwa [if_pos hFirst]

/-- The first chunk of a longer image joins it whole. -/
theorem State.importChunk_of_first (h : snapshotHead (s.hostRead a 256)) (hLong : x.half < getLE (s.hostRead a 256) 8 8)
    (hHalf : 0 < x.half) (hOk : s.hostOk a x.half = true) : s.importChunk x = s.putXfer { x with
      image := x.image ++ s.hostRead a x.half, dev := 1, total := cdiv (getLE (s.hostRead a 256) 8 8) x.half } := by
  subst hAddr
  have hLen (n : Nat) (h : x.half < n) : min x.half (n - x.dev * x.half) = x.half := by
    rw [hFirst, Nat.zero_mul, Nat.sub_zero]
    exact Nat.min_eq_left h.le
  have hMore (n : Nat) (h : x.half < n) : x.dev + 1 ≠ cdiv n x.half := by
    rw [hFirst]
    exact (one_lt_cdiv hHalf h).ne
  unfold State.importChunk
  dsimp only
  rw [if_pos hFirst, if_pos hFirst, hLen _ hLong, if_neg (by omega), if_neg (by rw [hHead]; decide), if_neg (fun hBad => h.not_rejected hBad.2),
    if_neg (by rw [hOk]; decide), if_neg (hMore _ hLong), hFirst]
  rfl

end

/-! ### The steps -/

section
variable {s : State} (v : Word32)

/-- A write of JRN_XFER_CTL is one register write, whichever command it is for. -/
theorem exec_of_xferCtl {i : Instr} (h : i = .exportSnap v ∨ i = .exportFrames v ∨ i = .importSnap v ∨ i = .xferAbort v) :
    exec i s = .next (xferCtl v s) := by
  rcases h with rfl | rfl | rfl | rfl <;> rfl

theorem exec_xferHostChunk (stores : List Host.Cell) :
    exec (.xferHostChunk stores v) s = .next (xferHost v.toNat (s.hostStores stores)) := rfl
theorem exec_xferDeviceChunk : exec .xferDeviceChunk s = .next (xferDeviceChunk s) := rfl

theorem xferHost_of_noReset (stores : List Host.Cell) (h : s.hif.inReset = none) : xferHost v.toNat (s.hostStores stores) =
    { s with hostMem := memCells s.hostMem stores, jrn := { s.jrn with xfer := { s.jrn.xfer with host := v.toNat } } } :=
  if_neg (by simp [State.hostStores, h])

variable {x : Xfer}

theorem State.xferGo_of_snap (h : x.op = 1) : s.xferGo x = s.exportSnap x := by simp [State.xferGo, h]
theorem State.xferGo_of_import (h : x.op = 2) : s.xferGo x = { x with state := 1 } := by simp [State.xferGo, h]
theorem State.xferGo_of_frames (h : x.op = 3) : s.xferGo x = s.exportFrames x := by simp [State.xferGo, h]

end

/-- Settles O60: a write of JRN_XFER_CTL by GO and the state of the transfer, and the next chunk either way. -/
theorem transfersMoveTheirImages : Obligations.TransfersMoveTheirImages := by
  unfold Obligations.TransfersMoveTheirImages
  refine ⟨fun s v i hi => ?control, fun s stores v hReset => ?host, fun s => ?chunk⟩
  case control =>
    intro x op
    rw [exec_of_xferCtl v hi]
    refine ⟨fun h => by rw [xferCtl_of_reset h], fun hReset hGo hRuns => by rw [xferCtl_of_running hReset hGo hRuns],
      fun hReset hGo => by rw [xferCtl_of_noGo hReset hGo], fun hReset hGo hIdle => ?_⟩
    obtain ⟨lp, hCtl⟩ := xferCtl_of_go hReset hGo hIdle
    have hSetup := s.xferGo_setup (x := x.started v) rfl
    simp only [Xfer.setup, Prod.mk.injEq] at hSetup
    obtain ⟨hStored, hOp, hDev, hHost, hAbort, hBase, hHalf, hOwner⟩ := hSetup
    rw [hCtl]
    refine ⟨_, _, rfl, rfl, hStored, hOp, hDev, hHost, hAbort, hBase, hHalf, hOwner, rfl, rfl, rfl, fun hSnap k z hFound => ?snap,
      fun hSnap hNone => ?noSnap, fun hImport => ?imported, fun hFrames => ?frames⟩
    case snap =>
      dsimp only
      rw [State.xferGo_of_snap hSnap]
      refine ⟨fun hColl => ?_, fun hSession => ?_⟩
      · rw [State.exportSnap_of_collection _ hFound hColl]
        exact ⟨rfl, rfl, rfl⟩
      · rw [State.exportSnap_of_session _ hFound hSession]
        exact ⟨rfl, rfl⟩
    case noSnap =>
      dsimp only
      rw [State.xferGo_of_snap hSnap, State.exportSnap_of_none _ hNone]
      exact ⟨rfl, rfl⟩
    case imported =>
      dsimp only
      rw [State.xferGo_of_import hImport]
      exact ⟨rfl, rfl, rfl⟩
    case frames =>
      intro o k til kept serves
      have hObject : fld (x.started v).ctl 0 10 = o := fld_xferCtl_object v
      have hTil : s.exportUntil (x.started v) = til := by
        rw [State.exportUntil, hObject]
        rfl
      dsimp only
      rw [State.xferGo_of_frames hFrames]
      refine ⟨fun hAway => ?_, fun hServes hLost => ?_, fun hServes hKept hStart hEnd => ?_⟩
      · rw [State.exportFrames_of_away hObject hAway]
        exact ⟨rfl, rfl⟩
      · rw [State.exportFrames_of_lost hObject hServes (hTil ▸ hLost)]
        exact ⟨rfl, rfl⟩
      · obtain ⟨bs, last, hBegins⟩ := State.exportFrames_of_kept hObject hServes hKept (hTil ▸ hStart) (hTil ▸ hEnd)
        rw [hBegins]
        exact ⟨rfl, rfl⟩
  case host => rw [exec_xferHostChunk, xferHost_of_noReset v stores hReset]
  case chunk =>
    intro x a fails
    have hFails {e : Nat} (h : xferDeviceChunk s = s.putXfer (x.fail e)) : fails e := ⟨_, congrArg Host.Outcome.next h, rfl, rfl, rfl⟩
    rw [exec_xferDeviceChunk]
    refine ⟨fun hIdle => by rw [xferDeviceChunk_of_idle hIdle], fun hRuns hAbort => ?abort, fun hRuns hAbort hActive hExport => ?exported,
      fun hRuns hAbort hActive hImport => ?imported⟩
    case abort => exact ⟨_, congrArg Host.Outcome.next (xferDeviceChunk_of_abort hRuns hAbort), rfl, rfl, rfl⟩
    case exported =>
      intro bs may
      have hChunk := xferDeviceChunk_of_export hRuns hAbort hActive hExport
      refine ⟨fun h => by rw [hChunk, State.exportChunk_of_wait h],
        fun hMay hBad => hFails (hChunk.trans (State.exportChunk_of_unreachable rfl rfl hMay hBad)), fun hMay hOk => ?_⟩
      rw [hChunk, State.exportChunk_of_reachable rfl rfl hMay hOk]
      have hFrames : (s.hostWrite a bs).jrn.frames = s.jrn.frames := by rw [State.hostWrite_jrn]
      exact ⟨_, rfl, x.chunkDone_dev, x.chunkDone_state.trans (by rw [hRuns]), hFrames, State.hostWrite_colls _ _ _,
        fun hFree => State.hostWrite_hostMem hFree _ _⟩
    case imported =>
      have hChunk := xferDeviceChunk_of_import hRuns hAbort hActive hImport
      refine ⟨fun h => by rw [hChunk, State.importChunk_of_wait h],
        fun hFirst hHost hHead hMagic => hFails (hChunk.trans (State.importChunk_of_badMagic rfl hFirst hHost hHead hMagic)),
        fun hFirst hHost hHead => hFails (hChunk.trans (State.importChunk_of_unreachable rfl hFirst hHost hHead)),
        fun hFirst hHost hHead hMagic hKind hObject hTotal hLong hHalf hOk => ?_⟩
      rw [hChunk, State.importChunk_of_first rfl hFirst hHost hHead ⟨hMagic, hKind, hObject, hTotal⟩ hLong hHalf hOk]
      exact ⟨_, rfl, rfl, hRuns, rfl, rfl, rfl⟩

end Sys2Proof.Machine
end

section
/-!
SUPPORT. Every arm of the dispatch answers a next state (log entry 6).
-/

namespace Sys2Proof.Machine

/-- Settles O2: command by command, the meaning it is given is a next state. -/
theorem everyCommandAnswersANextState : Obligations.EveryCommandAnswersANextState := by
  unfold Obligations.EveryCommandAnswersANextState
  intro i s
  cases i <;> exact ⟨_, rfl⟩

end Sys2Proof.Machine
end
